-- ==== Sys2Proof/Word.lean ====
section
/-!
DEFINITION. The word types of the model and their plainest arithmetic: bytes, 32-bit registers, little-endian
byte lists (R12, R17), and time in units of 1/17 ns, so that one spindle cycle of 1.7 GHz is ten units (R10).
-/
namespace Sys2Proof

/-- One byte. -/
abbrev Byte := BitVec 8
/-- A register value (R12). -/
abbrev Word := BitVec 32
/-- A 64-bit sequencer or vector word (R37, R164). -/
abbrev Word64 := BitVec 64
/-- A status code (R20). -/
abbrev Code := BitVec 16
/-- A point in time or a length of time, in units of 1/17 ns. -/
abbrev Time := Nat

/-- One spindle cycle, 1/1.7 ns (R10). -/
def Time.sc (n : Nat) : Time := 10 * n
/-- `n` nanoseconds. -/
def Time.ns (n : Nat) : Time := 17 * n
/-- `n` microseconds. -/
def Time.us (n : Nat) : Time := 17000 * n
/-- `n` milliseconds. -/
def Time.ms (n : Nat) : Time := 17000000 * n
/-- `n` seconds. -/
def Time.sec (n : Nat) : Time := 17000000000 * n

/-- The `n` low bytes of `v`, least significant first (R17). -/
def leBytes : Nat → Nat → List Byte
  | 0, _ => []
  | n + 1, v => BitVec.ofNat 8 v :: leBytes n (v / 256)

/-- The number a little-endian byte list holds (R17). -/
def leNat : List Byte → Nat
  | [] => 0
  | b :: bs => b.toNat + 256 * leNat bs

/-- The `n` bytes of `bs` from offset `o`; a byte past the end reads 0. -/
def sliceBytes (bs : List Byte) (o n : Nat) : List Byte :=
  let t := (bs.drop o).take n
  t ++ List.replicate (n - t.length) 0

/-- The little-endian field of `n` bytes at offset `o` of `bs`. -/
def field (bs : List Byte) (o n : Nat) : Nat := leNat (sliceBytes bs o n)

/-- Bits `hi:lo` of a number. -/
def bits (v hi lo : Nat) : Nat := v / 2 ^ lo % 2 ^ (hi + 1 - lo)

/-- Bit `i` of a number. -/
def bit (v i : Nat) : Bool := v / 2 ^ i % 2 == 1

/-- All bytes of the range are zero. -/
def allZero (bs : List Byte) : Bool := bs.all (· == 0)

/-- The ceiling of a quotient. -/
def ceilDiv (a b : Nat) : Nat := (a + b - 1) / b

/-- A counter of width `w` that stops at its top. -/
def satAdd (w : Nat) (v : BitVec w) (n : Nat) : BitVec w :=
  BitVec.ofNat w (min (v.toNat + n) (2 ^ w - 1))

/-- A register value put together from fields given low bits first, each with its width. -/
def packFields : List (Nat × Nat) → Nat
  | [] => 0
  | (w, v) :: fs => v % 2 ^ w + 2 ^ w * packFields fs

/-- A one-bit field. -/
def b1 (b : Bool) : Nat × Nat := (1, if b then 1 else 0)

/-- Replace element `i` of a list, where there is one. -/
def setAt {α : Type} (l : List α) (i : Nat) (f : α → α) : List α :=
  match l, i with
  | [], _ => []
  | x :: xs, 0 => f x :: xs
  | x :: xs, n + 1 => x :: setAt xs n f

/-- Remove the first element that satisfies `p`, giving it back with the rest in order. -/
def takeFirst {α : Type} (p : α → Bool) : List α → Option (α × List α)
  | [] => none
  | x :: xs =>
    if p x then some (x, xs)
    else match takeFirst p xs with
      | none => none
      | some (y, ys) => some (y, x :: ys)

end Sys2Proof
end

