-- ==== Sys2Proof/Syntax.lean ====
section
/-!
DEFINITION. The commands of the block: one constructor of `Instr` for each row of spec/opcode_table.json, with the
operands the row's event brings from outside the block. What the block itself holds (a program word, a descriptor,
a packet in flight, a staged image) is not an operand: the meaning reads it from State.
-/
namespace Sys2Proof

/-- Spindle index s (R3). -/
abbrev Spindle := Fin 128
/-- Skein index k (R3). -/
abbrev Skein := Fin 16
/-- Die index d (R3). -/
abbrev Die := Fin 4
/-- Warp link index n of Wn (R6). -/
abbrev Link := Fin 96
/-- Device channel number 4k + c of a DMA channel (R272). -/
abbrev Chan := Fin 64
/-- Device region number 16d + i (R327). -/
abbrev Region := Fin 64
/-- Transport number: mailboxes 0 to 7, the I3C target 8 (R442). -/
abbrev Transport := Fin 9

/-- The two memory tiers (R247). -/
inductive Tier where
  | hbm | ddr
  deriving DecidableEq, Repr

/-- A memory controller: tier and stack Hn or channel Dn (R6). -/
structure Ctl where
  tier : Tier
  n : Fin 12
  deriving DecidableEq, Repr

/-- A weft endpoint: die and local number (R221). -/
structure Endpoint where
  die : Die
  loc : BitVec 7
  deriving DecidableEq, Repr

/-- What the error-correcting code of the hop links met on a packet's way: the words that the routers of each die corrected, and
whether one was uncorrectable (R225). -/
structure Transit where
  fixed : Vector (BitVec 16) 4 := Vector.replicate 4 0
  bad : Bool := false
  deriving DecidableEq, Repr

/-- A replication output of a multicast stream: at the source die's crossbar toward another die, at a die's crossbar toward a column,
at creel router C_x toward a spindle (R239). -/
inductive McOut where
  | die (d : Die) | column (d : Die) (x : Fin 8) | spindle (sp : Spindle)
  deriving DecidableEq, Repr

/-- An instance of the common arbiter (R229). -/
inductive ArbId where
  | board (k : Skein) | creel (d : Die) | mem (c : Ctl) | sliver (d : Die)
  deriving DecidableEq, Repr

/-- What the error-correcting code of a memory access finds (R259). -/
inductive Ecc where
  | clean | corrected | uncorrectable
  deriving DecidableEq, Repr

/-- The causes of a restartable grid fault, SPN_FAULT causes 1 to 3 (R79, R90). -/
inductive GridCause where
  | weightParity | sumParity | accWrite
  deriving DecidableEq, Repr

/-- The causes of a grid fault that is not restartable, SPN_FAULT causes 4 to 7 (R82, R90). -/
inductive HardCause where
  | accRead | operandRead | descriptor | protection
  deriving DecidableEq, Repr

/-- The payload of a TICK flit (R310). -/
structure TickPayload where
  tick : BitVec 48
  rootRank : BitVec 16
  fwdDelay : BitVec 32
  depth : BitVec 16
  periodNs : BitVec 32
  deriving DecidableEq, Repr

/-- A warp flit: header fields, payload and CRC (R304). -/
structure Flit where
  kind : BitVec 4
  last : Bool
  poison : Bool
  ackValid : Bool
  seq : BitVec 12
  ack : BitVec 12
  stream : BitVec 16
  len : BitVec 8
  payload : List Byte
  crc : BitVec 64
  deriving DecidableEq, Repr

/-- What a peer says of itself when a link is brought up (R298). -/
structure PeerIdent where
  system : List Byte := []
  rank : BitVec 16
  link : BitVec 7
  maxRate : BitVec 2
  deriving DecidableEq, Repr

/-- A barrier frame (R382). -/
structure Frame where
  kind : BitVec 8
  seq : BitVec 8
  len : BitVec 9
  ctx : BitVec 7
  payload : List Byte
  crc : BitVec 32
  deriving DecidableEq, Repr

/-- A request message as it reaches the distaff: its transport, its crossing number (R392) and its bytes (R414). -/
structure Request where
  transport : Transport
  crossing : BitVec 16
  bytes : List Byte
  /-- the flash does not take the record that this request needs (R454) -/
  flashFails : Bool := false
  /-- a fuse that this request burns fails to burn (R463) -/
  fuseFails : Bool := false
  deriving DecidableEq, Repr

/-- A unit that a rung of the reset ladder covers (R476). -/
inductive ResetUnit where
  | spindle (s : Spindle) | skein (k : Skein) | die (d : Die) | device
  deriving DecidableEq, Repr

/-- A unit the watchdog watches, in the row order of R468. -/
inductive WatchUnit where
  | spindle (s : Spindle) | channel (c : Chan) | board (k : Skein) | routers (d : Die) | crossbar
  deriving DecidableEq, Repr

/-- A function that can be disabled, by the class numbers of DST_FN_SEL (R489, R498). -/
inductive Func where
  | spindle (s : Spindle) | channel (c : Chan) | link (l : Link) | region (r : Region)
  | hbmPc (p : Fin 768) | ddrCh (n : Fin 12)
  deriving DecidableEq, Repr

/-- The inputs one multiply-accumulate slice sees at a clock edge (R332). -/
structure SliceInput where
  slice : Nat
  a : BitVec 27
  b : BitVec 24
  op : BitVec 2
  reset : Bool
  deriving DecidableEq, Repr

/-- One access of a block RAM or LUT RAM port at a clock edge, with what the code of an ECC block finds in a read (R329, R334). -/
structure RamAccess where
  ram : Nat
  port : Fin 2
  addr : Nat
  write : Option Nat
  ecc : Ecc := .clean
  deriving DecidableEq, Repr

/-- One flip-flop's data, clock enable and reset at a clock edge (R329). -/
structure FlopInput where
  flop : Nat
  d : Bool
  en : Bool
  rst : Bool
  deriving DecidableEq, Repr

/-- A signal that region logic drives across its border: region of the die, border group, number in the group, value (R326, R328). -/
structure BorderSignal where
  region : Fin 16
  group : Fin 16
  signal : Fin 64
  value : Bool
  deriving DecidableEq, Repr

/-- What the region logic presents to the clocked elements of one domain at an edge, and drives (R328 to R335). The meaning of
the configuration bits that route these signals is not in the manual, so they come with the edge. -/
structure EdgeInputs where
  slices : List SliceInput
  rams : List RamAccess
  flops : List FlopInput
  pins : List (Nat × Bool)
  border : List BorderSignal := []
  deriving DecidableEq, Repr

/-- A regulator reading over PMBus: row of R502, millivolts, milliamperes (R516). -/
structure RailReading where
  rail : Fin 18
  mv : Nat
  ma : Nat
  deriving DecidableEq, Repr

/-- A DDR5 channel's fitted modules as training finds them (R245, R246). -/
structure DdrFit where
  modules : Fin 3
  mrdimm : Bool
  mixed : Bool
  badType : Bool
  differ : Bool
  ranks : Fin 5
  rankGib : BitVec 8
  speed : BitVec 4
  trained : Bool
  deriving DecidableEq, Repr

/-- What a full device reset finds on the board: which stacks train, the modules of each channel, and the peer at the far end of each
link that answers (R246, R298). -/
structure Training where
  stackSet : BitVec 12
  ddr : List DdrFit
  peers : List (Link × PeerIdent) := []
  deriving DecidableEq, Repr

/-- Where a register access is made: the control space, firmware's private window, or BAR0 (R389, R532, R536). -/
inductive RegSpace where
  | control | priv | bar0
  deriving DecidableEq, Repr

/-- The reference clocks (R508). -/
inductive RefClk where
  | core | warp (d : Die)
  deriving DecidableEq, Repr

/-- Where a staged personality image comes from (R365 to R369, R434). -/
inductive ImageSource where
  | primary | golden | load (store : Bool)
  deriving DecidableEq, Repr

/-- What host memory answers to one piece of a bulk transfer (R404). -/
inductive HostData where
  | data (bs : List Byte) | failed | poisoned
  deriving DecidableEq, Repr

/-- The commands, one for each row of the table, in the table's order. -/
inductive Instr where
  /-- TICK_EDGE (R42). -/
  | tickEdge
  /-- DRAIN_END (R42). -/
  | drainEnd
  /-- COMMIT (R41). -/
  | commit
  /-- STEP_START (R486). -/
  | stepStart
  /-- TICK_FLIT (R25). -/
  | tickFlit (l : Link) (f : Flit)
  /-- TICK_LOSS (R28). -/
  | tickLoss
  /-- PERIOD_ARM (R29). -/
  | periodArm
  /-- PERIOD_APPLY (R29). -/
  | periodApply
  /-- TCK_COUNT_LO_READ (R53). -/
  | tckCountLoRead
  /-- PACE_COMMIT (R55). -/
  | paceCommit
  /-- PATTERN_SWITCH (R35). -/
  | patternSwitch
  /-- BUDGET_FAULT (R46). -/
  | budgetFault (sp : Spindle)
  /-- NEXT (R196). -/
  | seqNext (sp : Spindle)
  /-- SBEGIN (R37). -/
  | sbegin (sp : Spindle)
  /-- SEND (R201). -/
  | send (sp : Spindle)
  /-- SEND_PUBLISH (R201). -/
  | sendPublish (sp : Spindle)
  /-- PASS (R37). -/
  | pass (sp : Spindle)
  /-- PASS_ARM (R155). -/
  | passArm (sp : Spindle)
  /-- VEC (R37). -/
  | vec (sp : Spindle)
  /-- DMA (R273). -/
  | dma (sp : Spindle)
  /-- WAIT (R37). -/
  | wait (sp : Spindle)
  /-- WAIT_SATISFIED (R211). -/
  | waitSatisfied (sp : Spindle)
  /-- PUSH (R211). -/
  | push (sp : Spindle)
  /-- POP (R211). -/
  | pop (sp : Spindle)
  /-- POP_TAKE (R211). -/
  | popTake (sp : Spindle)
  /-- LOOP (R538). -/
  | seqLoop (sp : Spindle)
  /-- JMP (R538). -/
  | jmp (sp : Spindle)
  /-- STEPEND (R538). -/
  | stepend (sp : Spindle)
  /-- SETH (R38). -/
  | seth (sp : Spindle)
  /-- WEIGHT_LOAD (R66). -/
  | weightLoad (sp : Spindle)
  /-- PASS_START (R65). -/
  | passStart (sp : Spindle)
  /-- PASS_COMPLETE (R64). -/
  | passComplete (sp : Spindle)
  /-- PREEMPT_REQ (R78). -/
  | preemptReq (sp : Spindle)
  /-- PREEMPTION_TAKEN (R78). -/
  | preemptionTaken (sp : Spindle)
  /-- RESUME (R78). -/
  | resume (sp : Spindle)
  /-- GRID_FAULT (R79). -/
  | gridFault (sp : Spindle) (later : Bool) (c : GridCause) (row : BitVec 12)
  /-- PASS_RESTART (R80). -/
  | passRestart (sp : Spindle)
  /-- NON_RESTARTABLE_FAULT (R82). -/
  | nonRestartableFault (sp : Spindle) (later : Bool) (c : HardCause) (row : BitVec 12)
  /-- TRIGGER_TAKE (R155). -/
  | triggerTake (sp : Spindle)
  /-- ADD (R166). -/
  | vAdd (sp : Spindle)
  /-- SUB (R166). -/
  | vSub (sp : Spindle)
  /-- MUL (R166). -/
  | vMul (sp : Spindle)
  /-- FMA (R168). -/
  | vFma (sp : Spindle)
  /-- MIN (R168). -/
  | vMin (sp : Spindle)
  /-- MAX (R168). -/
  | vMax (sp : Spindle)
  /-- UNARY (R166). -/
  | vUnary (sp : Spindle)
  /-- CMP (R168). -/
  | vCmp (sp : Spindle)
  /-- SEL (R166). -/
  | vSel (sp : Spindle)
  /-- SHIFT (R169). -/
  | vShift (sp : Spindle)
  /-- LOGIC (R166). -/
  | vLogic (sp : Spindle)
  /-- ACT (R170). -/
  | vAct (sp : Spindle)
  /-- GATE (R170). -/
  | vGate (sp : Spindle)
  /-- DIV (R170). -/
  | vDiv (sp : Spindle)
  /-- SQRT (R170). -/
  | vSqrt (sp : Spindle)
  /-- RSQRT (R170). -/
  | vRsqrt (sp : Spindle)
  /-- LN (R170). -/
  | vLn (sp : Spindle)
  /-- REDUCE (R171). -/
  | vReduce (sp : Spindle)
  /-- BCAST (R166). -/
  | vBcast (sp : Spindle)
  /-- PERM (R166). -/
  | vPerm (sp : Spindle)
  /-- LD (R166). -/
  | vLd (sp : Spindle)
  /-- ST (R166). -/
  | vSt (sp : Spindle)
  /-- CVT (R170). -/
  | vCvt (sp : Spindle)
  /-- VST (R172). -/
  | vVst (sp : Spindle)
  /-- LDSD (R172). -/
  | vLdsd (sp : Spindle)
  /-- MOVS (R174). -/
  | vMovs (sp : Spindle)
  /-- FTAP (R175). -/
  | vFtap (sp : Spindle)
  /-- RSFOLD (R176). -/
  | vRsfold (sp : Spindle)
  /-- RSFIN (R176). -/
  | vRsfin (sp : Spindle)
  /-- PLYEXP (R177). -/
  | vPlyexp (sp : Spindle)
  /-- PLYSPLIT (R178). -/
  | vPlysplit (sp : Spindle)
  /-- PLYCOMB (R179). -/
  | vPlycomb (sp : Spindle)
  /-- LP (R180). -/
  | vLp (sp : Spindle)
  /-- HALT (R166). -/
  | vHalt (sp : Spindle)
  /-- SETA (R166). -/
  | vSeta (sp : Spindle)
  /-- SETS (R166). -/
  | vSets (sp : Spindle)
  /-- SETC (R166). -/
  | vSetc (sp : Spindle)
  /-- IHOLD (R183). -/
  | vIhold (sp : Spindle)
  /-- IREL (R183). -/
  | vIrel (sp : Spindle)
  /-- RETI (R186). -/
  | vReti (sp : Spindle)
  /-- LPSAVE (R185). -/
  | vLpsave (sp : Spindle)
  /-- LPLOAD (R185). -/
  | vLpload (sp : Spindle)
  /-- LPCLR (R166). -/
  | vLpclr (sp : Spindle)
  /-- NOP (R166). -/
  | vNop (sp : Spindle)
  /-- VEC_INTERRUPT_ENTRY (R183). -/
  | vecInterruptEntry (sp : Spindle)
  /-- HOLD_WINDOW_EXCEEDED (R183). -/
  | holdWindowExceeded (sp : Spindle)
  /-- HANDLER_FORCED_HALT (R186). -/
  | handlerForcedHalt (sp : Spindle)
  /-- VEC_GO (R182). -/
  | vecGo (sp : Spindle)
  /-- SLOW_SET (R204). -/
  | slowSet (k : Skein) (lanes : BitVec 8)
  /-- PHASE_ADVANCE (R202). -/
  | phaseAdvance (k : Skein)
  /-- LANE_STUCK (R205). -/
  | laneStuck (sp : Spindle)
  /-- SKN_STALL_CYCLE (R214). -/
  | sknStallCycle (lanes : List Spindle)
  /-- ARBITER_GRANT (R230). -/
  | arbiterGrant (a : ArbId) (pc : Fin 64) (requests : BitVec 32)
  /-- ARB_COMMIT (R231). -/
  | arbCommit (a : ArbId)
  /-- WEFT_READ_REQUEST (R221). -/
  | weftReadRequest (src dst : Endpoint) (vc : BitVec 2) (way : Transit)
  /-- WEFT_WRITE (R221). -/
  | weftWrite (src dst : Endpoint) (vc : BitVec 2) (way : Transit)
  /-- READ_RESPONSE (R221). -/
  | readResponse (src dst : Endpoint) (vc : BitVec 2) (way : Transit)
  /-- WRITE_ACKNOWLEDGEMENT (R284). -/
  | writeAcknowledgement (src dst : Endpoint) (vc : BitVec 2) (way : Transit)
  /-- MULTICAST_WRITE (R239). -/
  | multicastWrite (src : Endpoint) (way : Transit) (blocked : List McOut)
  /-- MCAST_BRANCH_TIMEOUT (R240). -/
  | mcastBranchTimeout (src : Endpoint) (stream : BitVec 8) (branch : McOut)
  /-- FENCE_REQUEST (R227). -/
  | fenceRequest (d : Die) (ep : Fin 16)
  /-- FENCE_DRAIN_COMPLETE (R227). -/
  | fenceDrainComplete (d : Die) (ep : Fin 16)
  /-- WFT_FENCE_TIMEOUT (R228). -/
  | wftFenceTimeout (d : Die) (ep : Fin 16)
  /-- FENCE_RELEASE (R227). -/
  | fenceRelease (d : Die) (ep : Fin 16)
  /-- CREEL_READ (R234). -/
  | creelRead (src dst : Endpoint) (vc : BitVec 2) (ecc : Ecc)
  /-- CREEL_LINE_FILL (R235). -/
  | creelLineFill (src dst : Endpoint)
  /-- CREEL_INVALIDATE (R236). -/
  | creelInvalidate (src dst : Endpoint)
  /-- CREEL_EMPTY_REQUEST (R236). -/
  | creelEmptyRequest (d : Die)
  /-- MEM_READ (R254). -/
  | memRead (src dst : Endpoint) (vc : BitVec 2)
  /-- MEM_WRITE (R254). -/
  | memWrite (src dst : Endpoint) (vc : BitVec 2)
  /-- MEM_READ_COMPLETE (R260). -/
  | memReadComplete (c : Ctl) (i : Nat) (found : List Ecc)
  /-- RETIREMENT_REQUEST (R263). -/
  | retirementRequest (c : Ctl) (rank : Fin 4)
  /-- COMMAND_PARITY_ERROR (R263). -/
  | commandParityError (c : Ctl) (rank : Fin 4) (pc : Fin 64)
  /-- REFRESH (R244). -/
  | refresh (c : Ctl) (pc : Fin 64) (bank : Nat)
  /-- SELF_REFRESH_ENTRY (R258). -/
  | selfRefreshEntry (c : Ctl) (pc : Fin 64)
  /-- SELF_REFRESH_EXIT (R258). -/
  | selfRefreshExit (c : Ctl) (pc : Fin 64)
  /-- SCRUB (R262). -/
  | scrub (c : Ctl) (rank : Fin 4) (pc : Fin 64) (line : Nat) (ecc : Ecc)
  /-- MIGRATION_START (R263). -/
  | migrationStart (t : Tier)
  /-- LINE_COPY (R264). -/
  | lineCopy (t : Tier) (pc : Fin 64) (source target : Ecc)
  /-- MIGRATION_COMPLETE (R264). -/
  | migrationComplete (t : Tier)
  /-- MEM_MIGRATING (R265). -/
  | memMigrating (c : Ctl) (i : Nat)
  /-- DMA_REQUEST_ISSUE (R278). -/
  | dmaRequestIssue (ch : Chan)
  /-- DMA_POP_FILL (R283). -/
  | dmaPopFill (ch : Chan)
  /-- DMA_LIST_COMPLETE (R285). -/
  | dmaListComplete (ch : Chan)
  /-- DMA_RESUME (R287). -/
  | dmaResume (ch : Chan)
  /-- LINK_RETRAIN (R298). -/
  | linkRetrain (l : Link) (peer : PeerIdent)
  /-- LINK_RATE_STEP (R299). -/
  | linkRateStep (l : Link) (passed : Bool) (skew : BitVec 10)
  /-- LINK_LATENCY_MEASURE (R300). -/
  | linkLatencyMeasure (l : Link) (rtt : BitVec 24)
  /-- LOSS_OF_SIGNAL (R302): a lane's detector asserts, or clears. -/
  | lossOfSignal (l : Link) (lane : Fin 2) (lost : Bool)
  /-- LOSS_OF_LOCK (R302): a lane's detector asserts, or clears. -/
  | lossOfLock (l : Link) (lane : Fin 2) (lost : Bool)
  /-- LINK_AUTO_RETRAIN (R302). -/
  | linkAutoRetrain (l : Link) (peer : PeerIdent)
  /-- SLOT_BOUNDARY (R309), with a message that the distaff or a die agent hands to the link for the peer's distaff (R305). -/
  | slotBoundary (l : Link) (sliver : Option (List Byte))
  /-- DATA_FLIT (R317). -/
  | dataFlit (l : Link) (f : Flit)
  /-- SLIVER_FLIT (R305); `loop` is the far-end loop that its message asks this device to serve, or to end (R303). -/
  | sliverFlit (l : Link) (f : Flit) (loop : Option (Link × Bool))
  /-- CREDIT_FLIT (R317). -/
  | creditFlit (l : Link) (f : Flit)
  /-- IDLE_FLIT (R306). -/
  | idleFlit (l : Link) (f : Flit)
  /-- REPLAY_FLIT (R307). -/
  | replayFlit (l : Link) (f : Flit)
  /-- ABORT_FLIT (R311). -/
  | abortFlit (l : Link) (f : Flit)
  /-- STREAM_HANDLE_POP (R316). -/
  | streamHandlePop (l : Link) (stream : BitVec 12)
  /-- FABRIC_INBOUND_REQUEST (R337). -/
  | fabricInboundRequest (src dst : Endpoint) (vc : BitVec 2)
  /-- FABRIC_INBOUND_ANSWER (R339). -/
  | fabricInboundAnswer (d : Die) (ep : Fin 16) (i : Nat) (data : List Byte)
  /-- FAB_EP_TIMEOUT (R339). -/
  | fabEpTimeout (d : Die) (ep : Fin 16) (i : Nat)
  /-- FABRIC_OUTBOUND_REQUEST (R338). -/
  | fabricOutboundRequest (d : Die) (ep : Fin 16) (write : Option (List Byte)) (addr : BitVec 64) (bytes : Nat) (tag : BitVec 12)
  /-- INGEST_BEAT (R342). -/
  | ingestBeat (d : Die) (j : Fin 2) (addr : BitVec 17) (data : List Byte) (be : BitVec 64)
  /-- INGEST_POST (R343). -/
  | ingestPost (d : Die) (j : Fin 2) (ring : BitVec 5) (handle : BitVec 32)
  /-- DONE_HIGH (R344). -/
  | doneHigh (d : Die)
  /-- RELEASE_OUTPUTS (R344). -/
  | releaseOutputs (d : Die)
  /-- RELEASE_WRITE_ENABLES (R344). -/
  | releaseWriteEnables (d : Die)
  /-- RELEASE_RESETS (R344). -/
  | releaseResets (d : Die)
  /-- REGION_CLOCK_SWITCH (R345). -/
  | regionClockSwitch (r : Region) (clk : BitVec 4)
  /-- REGION_POWER_OFF (R346). -/
  | regionPowerOff (r : Region)
  /-- REGION_FENCE_ASSERT (R349). -/
  | regionFenceAssert (r : Region)
  /-- REGION_CLOCK_GATE (R349). -/
  | regionClockGate (r : Region)
  /-- REGION_FRAMES_WRITTEN (R349). -/
  | regionFramesWritten (r : Region)
  /-- REGION_CLOCK_UNGATE (R349). -/
  | regionClockUngate (r : Region)
  /-- REGION_FENCE_LIFT (R349). -/
  | regionFenceLift (r : Region)
  /-- CAPTURE_ARM (R353). -/
  | captureArm (d : Die)
  /-- CAPTURE_STOP (R353). -/
  | captureStop (d : Die)
  /-- CAPTURE_READOUT_COMPLETE (R354). -/
  | captureReadoutComplete (d : Die) (frames : List Byte)
  /-- CAPTURE_GO (R354). -/
  | captureGo (d : Die)
  /-- BOOT_ACTION (R367). -/
  | bootAction
  /-- IMAGE_STAGED (R365). -/
  | imageStaged (flashOk : Bool)
  /-- AUTHENTICATION_PASS (R366). -/
  | authenticationPass
  /-- CHECK_PASS (R365). -/
  | checkPass (vccioOk designOk : Bool)
  /-- WRITE_PASS (R370). -/
  | writePass
  /-- CFG_DONE_TIMEOUT (R372). -/
  | cfgDoneTimeout
  /-- PROG_N_LOW (R373). -/
  | progNLow
  /-- PROG_N_RISE (R373). -/
  | progNRise
  /-- BARRIER_FRAME (R383). -/
  | barrierFrame (rx : Bool) (ch : Fin 20) (f : Frame)
  /-- BARRIER_CHANNEL_FAIL (R384). -/
  | barrierChannelFail (rx : Bool) (ch : Fin 20)
  /-- BARRIER_TRAINING (R385). -/
  | barrierTraining (txFailed rxFailed : BitVec 20)
  /-- MAILBOX_DOORBELL (R392). -/
  | mailboxDoorbell (n : Fin 8) (length : BitVec 13) (tag : BitVec 16)
  /-- MAILBOX_RESPONSE (R393). -/
  | mailboxResponse (n : Fin 8)
  /-- MAILBOX_TIMEOUT (R394). -/
  | mailboxTimeout (n : Fin 8)
  /-- MAILBOX_ACK (R395). -/
  | mailboxAck (n : Fin 8)
  /-- MIRROR_UPDATE (R398). -/
  | mirrorUpdate
  /-- MIRROR_STALE (R400). -/
  | mirrorStale
  /-- BCTL_RECORD (R403). -/
  | bctlRecord (n : Fin 8)
  /-- BULK_PIECE (R403). -/
  | bulkPiece (n : Fin 8) (entry : List Byte) (host : HostData) (ecc : Ecc)
  /-- BULK_RETRY (R404). -/
  | bulkRetry (n : Fin 8)
  /-- PERST_N_LOW (R407). -/
  | perstNLow
  /-- PERST_N_RELEASE (R407). -/
  | perstNRelease
  /-- HOST_LINK_DOWN (R408). -/
  | hostLinkDown
  /-- QUERY_STATUS (R417). -/
  | queryStatus (req : Request)
  /-- TELEMETRY_READ (R418). -/
  | telemetryRead (req : Request)
  /-- LOG_READ (R455). -/
  | logRead (req : Request)
  /-- ATTEST (R458). -/
  | attest (req : Request)
  /-- PATTERN_STAGE (R420). -/
  | patternStage (req : Request)
  /-- PATTERN_VERIFY (R422). -/
  | patternVerify (req : Request)
  /-- PATTERN_ARM (R35). -/
  | patternArm (req : Request)
  /-- PATTERN_DISCARD (R421). -/
  | patternDiscard (req : Request)
  /-- JOB_SUBMIT (R427). -/
  | jobSubmit (req : Request)
  /-- JOB_CANCEL (R428). -/
  | jobCancel (req : Request)
  /-- JOB_STATUS (R428). -/
  | jobStatus (req : Request)
  /-- GRANT_OPEN (R426). -/
  | grantOpen (req : Request)
  /-- GRANT_CLOSE (R426). -/
  | grantClose (req : Request)
  /-- BULK_IN (R403). -/
  | bulkIn (req : Request)
  /-- BULK_OUT (R403). -/
  | bulkOut (req : Request)
  /-- POWER_CAP_SET (R435). -/
  | powerCapSet (req : Request)
  /-- RESET (R481). -/
  | msgReset (req : Request)
  /-- ROLE_CHALLENGE (R445). -/
  | roleChallenge (req : Request)
  /-- ROLE_ENTER (R446). -/
  | roleEnter (req : Request)
  /-- ROLE_EXIT (R443). -/
  | roleExit (req : Request)
  /-- FABRIC_LOAD (R434). -/
  | fabricLoad (req : Request)
  /-- FABRIC_CAPTURE (R434). -/
  | fabricCapture (req : Request)
  /-- LINK_TEST (R434), with the bit errors that the link's checker met since the last one (R303). -/
  | linkTest (req : Request) (errors : Word)
  /-- CONFIG_SET (R433). -/
  | configSet (req : Request)
  /-- FW_STAGE (R462). -/
  | fwStage (req : Request)
  /-- FW_ACTIVATE (R462). -/
  | fwActivate (req : Request)
  /-- FW_CONFIRM (R462). -/
  | fwConfirm (req : Request)
  /-- KEY_ENROL (R449). -/
  | keyEnrol (req : Request)
  /-- KEY_REVOKE (R449). -/
  | keyRevoke (req : Request)
  /-- KEY_PROGRAM (R450). -/
  | keyProgram (req : Request)
  /-- GOLDEN_STORE (R463). -/
  | goldenStore (req : Request)
  /-- FUSE_PROGRAM (R463). -/
  | fuseProgram (req : Request)
  /-- TEST_MODE (R463). -/
  | testMode (req : Request)
  /-- RA_UNLOCK (R464). -/
  | raUnlock (req : Request)
  /-- ROLE_IDLE_TIMEOUT (R443). -/
  | roleIdleTimeout (t : Transport)
  /-- NONCE_EXPIRY (R445). -/
  | nonceExpiry (t : Transport)
  /-- LOCKOUT_END (R447). -/
  | lockoutEnd (t : Transport)
  /-- WATCHDOG_HANG (R470). -/
  | watchdogHang (u : WatchUnit)
  /-- AGENT_HEARTBEAT_MISS (R471). -/
  | agentHeartbeatMiss (d : Die)
  /-- CORE_HEARTBEAT_MISS (R471). -/
  | coreHeartbeatMiss (core : Fin 4)
  /-- SPINDLE_RESET (R478). -/
  | spindleReset (sp : Spindle) (cause : Code)
  /-- SPINDLE_POWER_CYCLE (R478). -/
  | spindlePowerCycle (sp : Spindle) (cause : Code)
  /-- SPINDLE_MARKED_FAILED (R480). -/
  | spindleMarkedFailed (sp : Spindle) (cause : Code)
  /-- SKEIN_COMPUTE_RESET (R478). -/
  | skeinComputeReset (k : Skein) (cause : Code)
  /-- DIE_COMPUTE_RESET (R478). -/
  | dieComputeReset (d : Die) (cause : Code)
  /-- DEVICE_COMPUTE_RESET (R478). -/
  | deviceComputeReset (cause : Code)
  /-- FULL_DEVICE_RESET (R478). -/
  | fullDeviceReset (cause : Code) (found : Training)
  /-- FLT_RESET_TIMEOUT (R477). -/
  | fltResetTimeout (u : ResetUnit)
  /-- RESTORE_COMPLETE (R478). -/
  | restoreComplete
  /-- RETURN_TO_SERVICE (R485). -/
  | returnToService
  /-- WFT_EDGE_DOWN (R482). -/
  | wftEdgeDown (edge : Fin 4)
  /-- FLT_EDGE_FAILED (R482). -/
  | fltEdgeFailed (edge : Fin 4)
  /-- FUNCTION_DISABLE (R489). -/
  | functionDisable (f : Func)
  /-- FUNCTION_DRAIN_COMPLETE (R489). -/
  | functionDrainComplete (f : Func)
  /-- FUNCTION_ENABLE (R490). -/
  | functionEnable (f : Func)
  /-- ALERT_N_LOW (R492). -/
  | alertNLow
  /-- THERMAL_READINGS_STALE (R492). -/
  | thermalReadingsStale (d : Die)
  /-- EMERGENCY_FW_FORCE (R492). -/
  | emergencyFwForce (on : Bool)
  /-- EMERGENCY_THROTTLE_END (R492). -/
  | emergencyThrottleEnd
  /-- THERMAL_READING (R522). -/
  | thermalReading (d : Die) (sensors stackSet modules : List Nat)
  /-- THERMAL_LEVEL_STEP_DOWN (R522). -/
  | thermalLevelStepDown (d : Die)
  /-- THERMAL_TRIP (R523). -/
  | thermalTrip (d : Die) (sensor : Fin 64) (tempC : BitVec 8)
  /-- THERMTRIP_RELEASE (R523). -/
  | thermtripRelease
  /-- FLT_ENVIRONMENT (R504). -/
  | fltEnvironment (rail : Fin 18)
  /-- FLT_REFCLK (R509). -/
  | fltRefclk (c : RefClk)
  /-- VBAT_LOSS (R450). -/
  | vbatLoss
  /-- AVS_SET_POINT (R516). -/
  | avsSetPoint (d : Die) (mv : BitVec 10) (answer : Option (BitVec 10))
  /-- PMBUS_POLL (R516). -/
  | pmbusPoll (readings : List RailReading)
  /-- SYS_RST_N_LOW (R512). -/
  | sysRstNLow
  /-- SYS_RST_N_RISE (R513). -/
  | sysRstNRise (failMode : Bool) (boot : BitVec 2) (coreBad : Bool) (warpBad : BitVec 4)
  /-- TICK_IN_EDGE (R514). -/
  | tickInEdge
  /-- TICK_IN_MISSED (R514). -/
  | tickInMissed
  /-- REGISTER_WRITE (R13). -/
  | registerWrite (sp : RegSpace) (offset : BitVec 32) (value : Word)
  /-- USER_CLOCK_EDGE (R332). -/
  | userClockEdge (d : Die) (domain : Fin 16) (x : EdgeInputs)
  /-- TAP_CLOCK_EDGE (R515). -/
  | tapClockEdge (tms tdi : Bool)
  /-- POWER_REMOVAL (R506). -/
  | powerRemoval
  /-- HOST_LINK_UP (R408); `msix`: the host has MSI-X enabled and not masked in configuration space (R397). -/
  | hostLinkUp (msix : Bool)
  /-- PCIE_POWER_STATE_CHANGE (R388), with MSI-X as HOST_LINK_UP states it. -/
  | pciePowerStateChange (d3hot msix : Bool)
  /-- BAR0_ACCESS (R390). -/
  | bar0Access (offset : Nat) (bytes : Nat) (write : Option (List Byte))
  /-- RUNG_COMPLETE (R478). -/
  | rungComplete (u : ResetUnit)
  /-- DIE_EDGE_RETRAINED (R482). -/
  | dieEdgeRetrained (edge : Fin 4)
  /-- CREEL_EMPTY_COMPLETE (R236). -/
  | creelEmptyComplete (d : Die)
  deriving DecidableEq, Repr

end Sys2Proof
end

