-- ==== Sys2Proof/Machine/Numerics.lean ====
section
/-!
DEFINITION. Number formats, exact sums and products, rounding, conversion for storage and the stochastic-rounding draw
(chapter 03).
-/
namespace Sys2Proof.Machine

/-- A value: a finite dyadic number (-1)^neg × m × 2^e, an infinity, or one of the two kinds of NaN (R98, R99). -/
inductive Val where
  | fin (neg : Bool) (m : Nat) (e : Int)
  | inf (neg : Bool)
  | nan (gen : Bool)
  deriving DecidableEq, Repr

/-- Which encodings above the largest finite one a format has (R91). -/
inductive FmtKind where
  | ieee | nanOnly | finiteOnly
  deriving DecidableEq, Repr

/-- A floating format: width, stored mantissa bits, exponent of the least subnormal, magnitude code of the largest finite
value (R91). -/
structure Fmt where
  width : Nat
  mbits : Nat
  lsb : Int
  top : Nat
  kind : FmtKind
  deriving DecidableEq, Repr

/-- FP32 (R91). -/
def fp32 : Fmt := ⟨32, 23, -149, 0x7F7FFFFF, .ieee⟩
/-- BF16 (R91). -/
def bf16 : Fmt := ⟨16, 7, -133, 0x7F7F, .ieee⟩
/-- FP16 (R91). -/
def fp16 : Fmt := ⟨16, 10, -24, 0x7BFF, .ieee⟩
/-- FP64 (R161). -/
def fp64 : Fmt := ⟨64, 52, -1074, 0x7FEFFFFFFFFFFFFF, .ieee⟩
/-- E4M3 (R91). -/
def e4m3 : Fmt := ⟨8, 3, -9, 0x7E, .nanOnly⟩
/-- E5M2 (R91). -/
def e5m2 : Fmt := ⟨8, 2, -16, 0x7B, .ieee⟩
/-- E2M1 (R91). -/
def e2m1 : Fmt := ⟨4, 1, -1, 7, .finiteOnly⟩

/-- The value of a magnitude code (R91, R96). -/
def Fmt.mag (f : Fmt) (c : Nat) : Nat × Int :=
  let ex := c / 2 ^ f.mbits
  if ex = 0 then (c, f.lsb) else (2 ^ f.mbits + c % 2 ^ f.mbits, f.lsb + ((ex : Int) - 1))

/-- The magnitude code of a NaN (R99). -/
def Fmt.nanCode (f : Fmt) (gen : Bool) : Nat :=
  match f.kind with
  | .ieee => f.top + 1 + 2 ^ (f.mbits - 1) + (if gen then 1 else 0)
  | .nanOnly => f.top + 1
  | .finiteOnly => f.top

/-- Decode an encoding. `flight` says that it is a value in flight or a seed, whose generated encoding stays the generated
NaN; an operand's NaN is an input NaN whatever its encoding (R98, R99). -/
def Fmt.decode (f : Fmt) (flight : Bool) (b : Nat) : Val :=
  let neg := bit b (f.width - 1)
  let c := b % 2 ^ (f.width - 1)
  if c ≤ f.top then let (m, e) := f.mag c; .fin neg m e
  else if f.kind == .ieee && c == f.top + 1 then .inf neg
  else .nan (flight && f.kind == .ieee && !neg && c == f.nanCode true)

/-- How a conversion rounds (R94, R102); the stochastic mode carries its random word (R105). -/
inductive RMode where
  | rne | rtz | sr (u : Nat)
  deriving DecidableEq, Repr

/-- Round the magnitude m × 2^e (m ≠ 0) to a multiple of 2^l (R102, R105). -/
def roundAt (mode : RMode) (l : Int) (m : Nat) (e : Int) : Nat :=
  if l ≤ e then m * 2 ^ (e - l).toNat
  else
    let k := (l - e).toNat
    let q := m / 2 ^ k
    let r := m % 2 ^ k
    match mode with
    | .rne => if 2 ^ k < 2 * r ∨ (2 ^ k = 2 * r ∧ q % 2 = 1) then q + 1 else q
    | .rtz => q
    | .sr u => if 2 ^ 32 ≤ r * 2 ^ 32 / 2 ^ k + u then q + 1 else q

/-- floor(log2 (m × 2^e)) for m ≠ 0. -/
def log2Of (m : Nat) (e : Int) : Int := (m.log2 : Int) + e

/-- The magnitude code that a finite magnitude rounds to; a code above `top` is an overflow. -/
def Fmt.roundMag (f : Fmt) (mode : RMode) (m : Nat) (e : Int) : Nat :=
  if m = 0 then 0
  else
    let l := max (log2Of m e - (f.mbits : Int)) f.lsb
    (l - f.lsb).toNat * 2 ^ f.mbits + roundAt mode l m e

/-- Put a sign on a magnitude code. -/
def Fmt.signed (f : Fmt) (neg : Bool) (c : Nat) : Nat := (if neg then 2 ^ (f.width - 1) else 0) + c

/-- Encode a value rounded to nearest even, with whether a finite value became an infinity (R95, R99). -/
def Fmt.encode (f : Fmt) (v : Val) : Nat × Bool :=
  match v with
  | .fin neg m e =>
    let c := f.roundMag .rne m e
    if f.top < c then (f.signed neg (f.top + 1), true) else (f.signed neg c, false)
  | .inf neg => (f.signed neg (f.top + 1), false)
  | .nan gen => (f.nanCode gen, false)

/-- Round a value to a format and keep it as a value in flight, with whether it overflowed (R95). -/
def Fmt.rnd (f : Fmt) (v : Val) : Val × Bool :=
  match v with
  | .fin _ _ _ => let (b, o) := f.encode v; (f.decode true b, o)
  | v => (v, false)

/-- A value is a NaN. -/
def Val.isNan : Val → Bool
  | .nan _ => true
  | _ => false
/-- A value is an infinity. -/
def Val.isInf : Val → Bool
  | .inf _ => true
  | _ => false
/-- A value is the generated NaN. -/
def Val.isGen : Val → Bool
  | .nan g => g
  | _ => false
/-- A value is ±0. -/
def Val.isZero : Val → Bool
  | .fin _ m _ => m == 0
  | _ => false
/-- The sign. -/
def Val.neg : Val → Bool
  | .fin n _ _ => n
  | .inf n => n
  | .nan _ => false
/-- Change the sign of a number; a NaN keeps its kind. -/
def Val.flip : Val → Val
  | .fin n m e => .fin (!n) m e
  | .inf n => .inf (!n)
  | .nan g => .nan g
/-- An integer as a value. -/
def Val.ofInt (i : Int) : Val := .fin (decide (i < 0)) i.natAbs 0
/-- Positive zero. -/
def Val.zero : Val := .fin false 0 0
/-- One. -/
def Val.one : Val := .fin false 1 0

/-- The exact product (R95, R97): zero times infinity is invalid. -/
def Val.mul (a b : Val) : Val :=
  match a, b with
  | .nan g, .nan h => .nan (g || h)
  | .nan g, _ => .nan g
  | _, .nan h => .nan h
  | .inf s, .inf t => .inf (s != t)
  | .inf s, .fin t m _ => if m = 0 then .nan true else .inf (s != t)
  | .fin s m _, .inf t => if m = 0 then .nan true else .inf (s != t)
  | .fin s m e, .fin t n f => .fin (s != t) (m * n) (e + f)

/-- A finite term as a signed number in units of 2^lo. -/
def termAt (lo : Int) : Val → Int
  | .fin n m e => (if n then -1 else 1) * ((m * 2 ^ (e - lo).toNat : Nat) : Int)
  | _ => 0

/-- The least exponent of the nonzero finite terms. -/
def leastExp : List Val → Option Int
  | [] => none
  | .fin _ m e :: r =>
    if m = 0 then leastExp r
    else match leastExp r with
      | none => some e
      | some x => some (min x e)
  | _ :: r => leastExp r

/-- The exact sum of a nonempty list of terms, by the precedence of R98 and the rules of R95 and R97. -/
def Val.sum (ts : List Val) : Val :=
  let pos := ts.any (· == .inf false)
  let neg := ts.any (· == .inf true)
  if ts.any Val.isGen || (pos && neg) then .nan true
  else if ts.any Val.isNan then .nan false
  else if pos then .inf false
  else if neg then .inf true
  else match leastExp ts with
    | none => .fin (ts.all Val.neg) 0 0
    | some lo =>
      let t := ts.foldl (fun a v => a + termAt lo v) 0
      .fin (decide (t < 0)) t.natAbs lo

/-- The exact sum of two values. -/
def Val.add (a b : Val) : Val := Val.sum [a, b]
/-- The exact difference. -/
def Val.sub (a b : Val) : Val := Val.sum [a, b.flip]

/-- Order of two numbers, with -0 equal to +0; none where one is a NaN. -/
def Val.cmp (a b : Val) : Option Ordering :=
  match a, b with
  | .nan _, _ => none
  | _, .nan _ => none
  | .inf s, .inf t => some (if s = t then .eq else if s then .lt else .gt)
  | .inf s, _ => some (if s then .lt else .gt)
  | _, .inf t => some (if t then .gt else .lt)
  | .fin _ _ _, .fin _ _ _ =>
    match leastExp [a, b] with
    | none => some .eq
    | some lo => some (compare (termAt lo a) (termAt lo b))

/-- A quotient close enough to round once to any format: the quotient truncated far below the last place, with a sticky
bit for what is left (R170). -/
def divFin (m : Nat) (e : Int) (n : Nat) (f : Int) : Nat × Int :=
  let k := 140 + n.log2
  let q := m * 2 ^ k / n
  (2 * q + (if m * 2 ^ k % n = 0 then 0 else 1), e - f - k - 1)

/-- The quotient (R170): 0/0 and ∞/∞ are invalid, and a number over zero is an infinity. -/
def Val.div (a b : Val) : Val :=
  match a, b with
  | .nan g, .nan h => .nan (g || h)
  | .nan g, _ => .nan g
  | _, .nan h => .nan h
  | .inf _, .inf _ => .nan true
  | .inf s, .fin t _ _ => .inf (s != t)
  | .fin s _ _, .inf t => .fin (s != t) 0 0
  | .fin s m e, .fin t n f =>
    if n = 0 then (if m = 0 then .nan true else .inf (s != t))
    else let (q, x) := divFin m e n f; .fin (s != t) q x

/-- Integer square root, by bisection over its bits from bit `k` down. -/
def isqrtFrom (n : Nat) : Nat → Nat → Nat
  | 0, r => r
  | k + 1, r => let t := r + 2 ^ k; isqrtFrom n k (if t * t ≤ n then t else r)

/-- The square root (R170): of a negative number it is invalid. -/
def Val.sqrt (a : Val) : Val :=
  match a with
  | .nan g => .nan g
  | .inf s => if s then .nan true else .inf false
  | .fin s m e =>
    if m = 0 then .fin s 0 0
    else if s then .nan true
    else
      let k : Nat := if e % 2 = 0 then 240 else 241
      let n := m * 2 ^ k
      let r := isqrtFrom n (n.log2 / 2 + 1) 0
      .fin false (2 * r + (if r * r = n then 0 else 1)) ((e - k) / 2 - 1)

/-- FP32 addition with one rounding, RNE, of a row that memory gives (R98, R99, R280); `flight` says that the other term is a sum. -/
def fp32Add (flight : Bool) (a b : Word) : Word :=
  BitVec.ofNat 32 (fp32.encode ((fp32.decode flight a.toNat).add (fp32.decode false b.toNat))).1

/-- Round a value to an integer (R102); none for a NaN, and an infinity's sign. -/
def Val.toInteger (mode : RMode) : Val → Int
  | .fin n m e => (if n then -1 else 1) * (roundAt mode 0 m e : Int)
  | _ => 0

/-- The exact value of a finite number that is an integer. -/
def Val.int (v : Val) : Int := v.toInteger .rne

/-- Clamp into a range, with whether it had to (R100). -/
def clampTo (lo hi : Int) (x : Int) : Int × Bool := if x < lo then (lo, true) else if hi < x then (hi, true) else (x, false)

/-- The INT32 range (R100). -/
def clamp32 (x : Int) : Int × Bool := clampTo (-2147483648) 2147483647 x

/-- A 32-bit pattern as INT32. -/
def int32 (w : Nat) : Int := (BitVec.ofNat 32 w).toInt

/-- The low `w` bits of an integer. -/
def intBits (w : Nat) (x : Int) : Nat := (BitVec.ofInt w x).toNat

/-- E8M0: the exponent of a scale; none for 0xFF (R91, R93). -/
def e8m0 (b : Byte) : Option Int := if b = 0xFF then none else some ((b.toNat : Int) - 127)

/-- Multiply by a power of two. -/
def Val.scale (v : Val) (x : Int) : Val :=
  match v with
  | .fin n m e => .fin n m (e + x)
  | v => v

/-- Philox4x32-10: one round (R106). -/
def philoxRound (k0 k1 : Nat) (c : Nat × Nat × Nat × Nat) : Nat × Nat × Nat × Nat :=
  let p0 := 0xD2511F53 * c.1
  let p1 := 0xCD9E8D57 * c.2.2.1
  ((p1 / 2 ^ 32) ^^^ c.2.1 ^^^ k0, p1 % 2 ^ 32, (p0 / 2 ^ 32) ^^^ c.2.2.2 ^^^ k1, p0 % 2 ^ 32)

/-- Philox4x32-10: `n` rounds, with the key stepped between them (R106). -/
def philoxRounds : Nat → Nat → Nat → Nat × Nat × Nat × Nat → Nat × Nat × Nat × Nat
  | 0, _, _, c => c
  | n + 1, k0, k1, c =>
    philoxRounds n ((k0 + 0x9E3779B9) % 2 ^ 32) ((k1 + 0xBB67AE85) % 2 ^ 32) (philoxRound k0 k1 c)

/-- The random word of an element: seed, tensor identifier, element index (R106). -/
def philoxWord (seed t i : Nat) : Nat :=
  let b := i / 4
  let r := philoxRounds 10 (seed % 2 ^ 32) (seed / 2 ^ 32 % 2 ^ 32) (b % 2 ^ 32, b / 2 ^ 32 % 2 ^ 32, t % 2 ^ 32, 0)
  match i % 4 with
  | 0 => r.1
  | 1 => r.2.1
  | 2 => r.2.2.1
  | _ => r.2.2.2

/-- What a conversion for storage gives: the stored code, overflow, underflow (R103). -/
structure Stored where
  code : Nat
  ovf : Bool := false
  unf : Bool := false
  deriving DecidableEq, Repr

/-- Convert to a floating storage format (R102, R103). -/
def storeFloat (f : Fmt) (mode : RMode) (sat : Bool) (v : Val) : Stored :=
  match v with
  | .nan g => { code := f.nanCode g }
  | .inf n =>
    match f.kind with
    | .ieee => { code := f.signed n (f.top + 1) }
    | _ => { code := f.signed n (if sat then f.top else f.top + 1) }
  | .fin n m e =>
    if m = 0 then { code := f.signed n 0 }
    else
      let c := f.roundMag .rtz m e
      let (mx, ex) := f.mag f.top
      let beyond := f.top < c || (c == f.top && Val.cmp (.fin false m e) (.fin false mx ex) == some .gt)
      let toMax := sat || f.kind != .ieee
      match mode with
      | .rtz => if beyond then { code := f.signed n f.top, ovf := true } else { code := f.signed n c, unf := c == 0 }
      | .rne | .sr _ =>
        let r := f.roundMag (if beyond then .rne else mode) m e
        if f.top < r then { code := f.signed n (if toMax then f.top else f.top + 1), ovf := true }
        else { code := f.signed n r, unf := r == 0 }

/-- Convert to an integer storage format of `w` bits with range [lo, hi] (R103). -/
def storeInt (w : Nat) (lo hi : Int) (mode : RMode) (v : Val) : Stored :=
  match v with
  | .nan _ => { code := 0 }
  | .inf n => { code := intBits w (if n then lo else hi) }
  | .fin n m e =>
    let above := match Val.cmp v (.ofInt hi) with | some .gt => true | _ => false
    let below := match Val.cmp v (.ofInt lo) with | some .lt => true | _ => false
    let mode' := match mode with | .sr _ => if above || below then .rne else mode | x => x
    let x := (Val.fin n m e).toInteger mode'
    let (y, o) := clampTo lo hi x
    { code := intBits w y, ovf := o, unf := m != 0 && y == 0 }

/-- The bits of an element in a storage format (R94). -/
def storeBits : Nat → Nat
  | 0 => 32 | 1 => 16 | 2 => 16 | 3 => 8 | 4 => 8 | 5 => 32 | 6 => 8 | 7 => 8 | 8 => 4 | 9 => 4
  | 10 => 8 | 11 => 8 | 12 => 4 | _ => 64

/-- The element format of an MX storage format (R94). -/
def mxFmt : Nat → Fmt
  | 10 => e4m3 | 11 => e5m2 | _ => e2m1

/-- The rounding mode that a rounding field selects, with the random word for the stochastic mode (R94). -/
def modeOf (rounding u : Nat) : RMode :=
  match rounding % 4 with
  | 0 => .rne
  | 1 => .rtz
  | _ => .sr u

/-- A scalar store of an FP32 or INT32 value (R102, R103). -/
def storeScalar (fmt rounding u : Nat) (v : Val) : Stored :=
  let mode := modeOf rounding u
  let sat := bit rounding 2
  match fmt with
  | 0 => storeFloat fp32 mode sat v
  | 1 => storeFloat bf16 mode sat v
  | 2 => storeFloat fp16 mode sat v
  | 3 => storeFloat e4m3 mode sat v
  | 4 => storeFloat e5m2 mode sat v
  | 5 => storeInt 32 (-2147483648) 2147483647 mode v
  | 6 => storeInt 8 (-128) 127 mode v
  | 7 => storeInt 8 0 255 mode v
  | 8 => storeInt 4 (-8) 7 mode v
  | _ => storeInt 4 0 15 mode v

/-- An element of an MX block of scale 2^x: rounded and saturated (R104). -/
def mxElem (f : Fmt) (mode : RMode) (x : Int) : Val → Nat
  | .fin n m e => f.signed n (min (f.roundMag mode m (e - x)) f.top)
  | _ => 0

/-- Convert a block of 32 values to an MX format: the scale byte and the element codes (R104). -/
def mxBlock (fmt : Nat) (rounding : Nat) (us : List Nat) (vs : List Val) : Byte × List Nat :=
  let f := mxFmt fmt
  if vs.any (fun v => v.isNan || v.isInf) then (0xFF, vs.map (fun _ => 0))
  else
    let emax : Int := match fmt with | 10 => 8 | 11 => 15 | _ => 2
    let tops := vs.filterMap (fun v => match v with | .fin _ m e => if m = 0 then none else some (log2Of m e) | _ => none)
    let x : Int := match tops with
      | [] => -127
      | t :: ts => (clampTo (-127) 127 (ts.foldl max t - emax)).1
    (BitVec.ofInt 8 (x + 127), (List.zip vs us).map (fun p => mxElem f (modeOf rounding p.2) x p.1))

/-- Pack element codes into bytes, the lower element in the low nibble of 4-bit formats (R92). -/
def packCodes (bitsPer : Nat) : List Nat → List Byte
  | [] => []
  | c :: cs =>
    if bitsPer = 4 then
      match cs with
      | [] => [BitVec.ofNat 8 (c % 16)]
      | d :: ds => BitVec.ofNat 8 (c % 16 + 16 * (d % 16)) :: packCodes bitsPer ds
    else leBytes (bitsPer / 8) c ++ packCodes bitsPer cs

end Sys2Proof.Machine
end

