-- ==== Sys2Proof/Config.lean ====
section
/-!
DEFINITION. The free values: results that the spec leaves open. Each is an opaque function, so nothing can be proved of
its values; a statement that meets one holds for every value (the assumption log says where each is used).
-/
namespace Sys2Proof.Config

/-- The instructions of a TAP of IEEE 1149.1 and 1149.6; `other` is any instruction of neither (R515). -/
inductive TapInst where
  | bypass | idcode | sample | extest | extestPulse | extestTrain | clamp | highz | other
  deriving DecidableEq, Repr, Inhabited

/-- The shapes of a block RAM (R334). -/
inductive RamShape where
  | x1 | x2 | x4 | x9 | x18 | x36 | x72 | ecc
  deriving DecidableEq, Repr, Inhabited

/-- The instruction that an instruction register content selects; the spec gives no codes (R515). -/
opaque tapDecode : List Bool → TapInst
/-- Width of the TAP's instruction register (R515). -/
opaque irBits : Nat
/-- Length of the boundary-scan chain (R515). -/
opaque boundaryBits : Nat

/-- A byte that the spec leaves undefined, by the index of its occurrence (State.fresh). -/
opaque freeByte : Nat → Byte
/-- A register value that the spec leaves undefined, by the index of its occurrence. -/
opaque freeWord : Nat → Word
/-- The activation functions of R144 and R170 in their ordinary range: function code and FP32 operand. -/
opaque activation : Nat → Word → Word
/-- The reciprocal square root of R170 in its ordinary range. -/
opaque rsqrt : Word → Word
/-- The natural logarithm of R170 in its ordinary range. -/
opaque ln : Word → Word
/-- A signature made with the identity key: leaf number and message (R457, R458). -/
opaque identitySign : Nat → List Byte → List Byte
/-- Random bytes of the true random number generator, by the index of their occurrence (R445). -/
opaque random : Nat → List Byte

/-- Signedness of A (bit 0) and of B (bit 1) and saturation (bit 2) of a multiply-accumulate slice, as the frames of its die
configure it; the place of these bits in a frame is not in the spec (R332). -/
opaque sliceMode : Nat → List (Nat × List Byte) → BitVec 3
/-- The shape of a block RAM as the frames of its die configure it; the place of these bits in a frame is not in the spec (R334). -/
opaque ramShape : Nat → List (Nat × List Byte) → RamShape
/-- A cluster's LUT RAM is 16 × 8, not 128 × 1, as the frames of its die configure it (R329). -/
opaque lutWide : Nat → List (Nat × List Byte) → Bool
/-- Initial contents of a RAM by RAM and address, as the frames of its die hold them (R361). -/
opaque initRam : Nat → Nat → List (Nat × List Byte) → Nat
/-- Domains that the frames of a die let a region use, one bit each (R330). -/
opaque regionDomains : Nat → List (Nat × List Byte) → BitVec 16

/-- The SHA-256 hash of the maker root key, burnt into fuses at manufacture (R448). -/
opaque rootHash : List Byte
/-- The firmware image of manufacture, in slot 0 (R460). -/
opaque factoryImage : List Byte
/-- The device serial in fuses (R448). -/
opaque serial : List Byte
/-- The provisioning key in fuses (R448). -/
opaque provisioningKey : List Byte
/-- The identity certificate that the maker stores (R456). -/
opaque certificate : List Byte
/-- The version of the boot ROM (R459). -/
opaque romVersion : Word

/-- The descriptor that a program word names, as firmware takes it to stand when the word runs: image, spindle, word address and
offset in the descriptor; a PASS word's chain descriptor follows its pass descriptor, from offset 64. The descriptors stand in
scratchpads at run time, and no rule says how verification knows them (R87, R422). -/
opaque plannedByte : List Byte → Nat → Nat → Nat → Byte
/-- Whether firmware finds that the passes issued before a reuse pass forbid it (the last two reuse conditions of R88): image, spindle and
word address. The order of the passes on a spindle depends on the board, and no rule says how verification follows it. -/
opaque reuseRefused : List Byte → Nat → Nat → Bool
/-- Whether the pair passes that a PLYCOMB word combines exceed the limits of R127: image, spindle and word address. Which passes those
are shows at run time alone, and no rule says how verification knows. -/
opaque plyTooLong : List Byte → Nat → Nat → Bool
/-- Whether a pattern has a reduction across spindles or devices, which R33 asks firmware to know and no rule says how. -/
opaque crossReduction : List Byte → Bool

/-- Rank of the device (R32). The four values of the installation are no registers: they are what the installer's system is. -/
opaque rank : BitVec 16
/-- Devices of the system (R32). -/
opaque devices : Nat
/-- Depth of the tick tree, D_tick (R23). -/
opaque dTick : Nat
/-- L_hop of the system in ns (R30). -/
opaque lHop : Nat

/-- nJ charged for the bytes of a DMA list, which R47 charges and no rule prices. -/
opaque dmaCharge : Nat → Nat
/-- nJ charged for a vector routine, by the instructions it issued; R47 charges it and no rule prices it. -/
opaque vecCharge : Nat → Nat

/-- The DDR5 subchannel that holds an address, which the layout inside a rank decides and no rule states (R250, R271). -/
opaque ddrSubchannel : Nat → Bool

end Sys2Proof.Config
end

