-- ==== Sys2Proof/Machine/Types/Spindle.lean ====
section
/-!
DEFINITION. State of one spindle: grid, accumulator, memories, sequencer, vector engine and numeric report
(chapters 01 to 06).
-/
namespace Sys2Proof.Machine

/-- A sparse store: strictly rising keys, no entry equal to the default. -/
abbrev Cells (α : Type) := List (Nat × α)

/-- The fields of a pass descriptor (R87). -/
structure PassDesc where
  shape : Nat := 0
  cls : Nat := 0
  aVar : Bool := false
  bVar : Bool := false
  accumulate : Bool := false
  reuse : Bool := false
  m : Nat := 1
  accRow : Nat := 0
  aAddr : Nat := 0
  aStride : Nat := 0
  wAddr : Nat := 0
  wStride : Nat := 0
  scaleAddr : Nat := 0
  fusedAddr : Nat := 0xFFFFFFFF
  tag : Word := 0
  /-- every reserved bit and byte is zero and every variant bit is allowed (R88) -/
  clean : Bool := true
  deriving DecidableEq, Repr

/-- The fields of a fused-chain descriptor (R146). -/
structure ChainDesc where
  entry : Nat
  act : Nat
  outFormat : Nat
  rounding : Nat
  dest : Bool
  hasCol : Bool
  hasRow : Bool
  statFirst : Bool
  statLast : Bool
  trigger : Bool
  trigW : Bool
  trigRing : Nat
  resFormat : Nat
  outAddr : Nat
  outStride : Nat
  mxAddr : Nat
  mxStride : Nat
  resAddr : Nat
  resStride : Nat
  statIn : Nat
  statOut : Nat
  eps : Word
  rowpAddr : Nat
  tileIndex : Nat
  colOff : Nat
  biasOff : Nat
  rowOff : Nat
  gammaOff : Nat
  betaOff : Nat
  colBase : Nat
  rowBase : Nat
  kBase : Nat
  tensorId : Word
  elemBase : Nat
  elemPitch : Nat
  recordAddr : BitVec 64
  clean : Bool
  deriving DecidableEq, Repr

/-- A weight block as the cells or their shadow hold it, with its MX scales (R58, R60, R66). -/
structure WeightSet where
  shape : Nat
  cls : Nat
  addr : Nat
  block : List Byte
  scales : List Byte
  deriving DecidableEq, Repr

/-- A ring position held by a triggered pass (R157). -/
structure HeldPos where
  ring : Nat
  pos : Nat
  handle : Word
  deriving DecidableEq, Repr

/-- A pass in the queue, in the grid, or armed (R64, R155). -/
structure Pass where
  desc : PassDesc
  descAddr : Nat
  chain : Option ChainDesc
  /-- earliest start of its weight load: its descriptor is fetched, or its handle taken (R66, R156) -/
  issuedAt : Time
  /-- its PASS word has the wait bit set (R37) -/
  waits : Bool := false
  /-- the weight load has begun, at this time -/
  loadAt : Option Time := none
  startedAt : Option Time := none
  restarts : Nat := 0
  /-- discarded by a restartable fault; starts again at this time (R80) -/
  restartAt : Option Time := none
  charged : Bool := false
  held : Option HeldPos := none
  staple : BitVec 16 := 0xFFFF
  /-- the weights it runs on, from its start -/
  weights : Option WeightSet := none
  /-- address of the weight block it runs on, its own or that of the pass whose weights it reuses (R75) -/
  blockAddr : Nat := 0
  /-- the ring position an armed pass waits on (R155, R211) -/
  wantPos : Nat := 0
  deriving DecidableEq, Repr

/-- Kinds of pre-emption (R78). -/
inductive Preempt where
  | resume | abandon
  deriving DecidableEq, Repr

/-- Why a sequencer stalls (R37, R65, R196, R201, R211, R273). -/
inductive Stall where
  | none | passQueue | passWait | vec | dmaPlace | event (e : Nat) | popWait (ring reg : Nat) | send | next | stepend
  deriving DecidableEq, Repr

/-- An active LOOP of the sequencer (R37, R538). -/
structure SeqLoop where
  start : Nat
  stop : Nat
  left : Nat
  deriving DecidableEq, Repr

/-- A staple entry (R194). -/
structure Staple where
  id : BitVec 16
  entry : Nat
  budget : Nat
  owner : Fin 8
  pinned : Bool
  phase : Nat := 0
  deriving DecidableEq, Repr

/-- A handle pushed and not yet published (R211). -/
structure Pushed where
  skein : Skein
  ring : Nat
  pos : Nat
  handle : Word
  deriving DecidableEq, Repr

/-- The sequencer of a spindle (R34, R37, R38, R57, R538). -/
structure Seq where
  bank0 : Cells Word64 := []
  bank1 : Cells Word64 := []
  activeBank : Bool := false
  idle : Bool := true
  /-- the spindle counts as at STEPEND in the step (R42, R216, R540) -/
  atEnd : Bool := false
  budgetFault : Bool := false
  seqFault : Bool := false
  pc : BitVec 13 := 0
  stapleId : BitVec 16 := 0xFFFF
  budget : Nat := 0
  faultPc : BitVec 13 := 0
  faultSeen : Bool := false
  stepCycles : Word := 0
  startedAt : Time := 0
  h : Vector Word 32 := Vector.replicate 32 0
  loops : List SeqLoop := []
  inStaple : Bool := false
  /-- the staple a NEXT took, until its SBEGIN issues (R200) -/
  taken : Option Staple := none
  /-- the jump-table word was a JMP (R200) -/
  jumped : Bool := false
  /-- address of the NEXT word that took it (R538) -/
  nextPc : BitVec 13 := 0
  stall : Stall := .none
  /-- earliest issue of the next word (R198, R199) -/
  readyAt : Time := 0
  /-- start of the present ring wait (R214) -/
  waitSince : Time := 0
  pops : List Pushed := []
  pushes : List Pushed := []
  /-- this spindle runs under the pattern in effect (R540) -/
  runs : Bool := false
  words : Nat := 0
  deriving DecidableEq, Repr

/-- An address register (R163). -/
structure Adr where
  base : Nat := 0
  length : Nat := 0
  ptr : Int := 0
  step : Int := 0
  deriving DecidableEq, Repr

/-- A store descriptor slot with its running position (R172, R173). -/
structure StoreSlot where
  raw : List Byte
  row : Nat
  col : Nat
  deriving DecidableEq, Repr

/-- A register result on its way through the pipeline (R167). -/
structure RegWrite where
  /-- advancing cycle from which an issuing instruction reads it -/
  due : Nat
  reg : Fin 32
  bytes : BitVec 2048
  /-- ones at the bits it writes -/
  mask : BitVec 2048
  byLd : Bool
  /-- an FTAP's result (R175) -/
  ftap : Bool
  /-- the hold window it was issued in (R184) -/
  hold : Option Nat
  deriving DecidableEq, Repr

/-- A memory write on its way: it retires in advancing cycle `due` (R167). `at_` is an offset of the spindle's window
(R528); a byte that an inactive element keeps is none. -/
structure MemWrite where
  due : Nat
  at_ : Nat
  bytes : List (Option Byte)
  deriving DecidableEq, Repr

/-- A mask result on its way (R167). -/
structure MaskWrite where
  due : Nat
  reg : Fin 4
  bits : BitVec 256
  /-- ones at the mask bits it writes -/
  set : BitVec 256
  hold : Option Nat
  deriving DecidableEq, Repr

/-- What an operation or a completion reports (R108, R114). -/
structure NumRep where
  flags : BitVec 7 := 0
  invalid : Nat := 0
  nanIn : Nat := 0
  ovf : Nat := 0
  sat : Nat := 0
  storeOvf : Nat := 0
  storeUnf : Nat := 0
  /-- place of the first element newly made the generated NaN -/
  first : Option (Nat × Nat) := none
  /-- fault code of a store: 0x0311, 0x0313 or 0x0314 -/
  code : Code := 0
  deriving DecidableEq, Repr

/-- The report of a vector instruction under way: it counts in advancing cycle `due` (R109, R171). -/
structure VecReport where
  due : Nat
  rep : NumRep
  deriving DecidableEq, Repr

/-- A level of the vector engine's loop state (R185). -/
structure VecLoop where
  start : Nat
  stop : Nat
  left : Nat
  deriving DecidableEq, Repr

/-- The vector engine (R161 to R190). -/
structure Vec where
  v : Vector (BitVec 2048) 32 := Vector.replicate 32 0
  /-- register last written by LD (R98) -/
  byLd : BitVec 32 := 0
  mask : Vector (BitVec 256) 4 := Vector.replicate 4 0
  adr : Vector Adr 15 := Vector.replicate 15 {}
  scale : Vector (BitVec 448) 4 := Vector.replicate 4 0
  slots : Vector (Option StoreSlot) 4 := Vector.replicate 4 none
  planeStride : BitVec 22 := 0
  cycle : Nat := 0
  regWrites : List RegWrite := []
  maskWrites : List MaskWrite := []
  memWrites : List MemWrite := []
  reports : List VecReport := []
  /-- loop state that an LPLOAD brings, with the advancing cycle it arrives in (R166, R185) -/
  loopLoad : Option (Nat × List VecLoop) := none
  /-- innermost first -/
  loops : List VecLoop := []
  /-- how many of the outermost levels are frozen until RETI (R185) -/
  frozen : Nat := 0
  /-- the handler has executed LPSAVE; it left the interrupted loop state undefined (R186) -/
  lpSaved : Bool := false
  loopsLost : Bool := false
  buffer : List Nat := []
  running : Bool := false
  inHandler : Bool := false
  stopped : Bool := false
  /-- time at which the hold window opened, and its serial number (R183, R184) -/
  holdAt : Option Time := none
  holdNo : Nat := 0
  forced : Bool := false
  preEn : Bool := false
  brkEn : Bool := false
  fltEn : Bool := false
  handler : BitVec 13 := 0
  breakAddr : BitVec 13 := 0
  breakEn : Bool := false
  epc : BitVec 13 := 0
  icause : BitVec 2 := 0
  faultCause : BitVec 4 := 0
  faultSeen : Bool := false
  faultPc : BitVec 13 := 0
  pc : BitVec 13 := 0
  issued : Word := 0
  stallSc : Word := 0
  /-- interrupts that wait, by cause number (R182) -/
  pending : BitVec 3 := 0
  /-- words left in a loop-entry or loop-reload window (R183) -/
  window : Nat := 0
  handlerAt : Time := 0
  /-- the break at this address was taken and is being continued past (R182) -/
  pastBreak : Option (BitVec 13) := none
  readyAt : Time := 0
  /-- a PLYCOMB waits for passes (R130) -/
  waits : Bool := false
  /-- instructions issued in the routine -/
  routine : Nat := 0
  /-- no further routine in this step (R111, R188) -/
  barred : Bool := false
  deriving DecidableEq, Repr

/-- One statistics record under collection (R116 to R118). -/
structure StatRec where
  addr : BitVec 64
  tensorId : Word
  format : Nat
  isInt : Bool
  saturated : Bool := false
  elements : Nat := 0
  firstInvalid : Nat := 0xFFFFFFFFFFFFFFFF
  zero : Nat := 0
  subnormal : Nat := 0
  inf : Nat := 0
  nanGen : Nat := 0
  nanProp : Nat := 0
  overflow : Nat := 0
  underflow : Nat := 0
  bins : Cells Nat := []
  deriving DecidableEq, Repr

/-- The NUM_ block (R119) and the open record slots (R116). -/
structure Num where
  mask : BitVec 7 := 0
  flags : BitVec 7 := 0
  fault : Bool := false
  faultCode : BitVec 8 := 0
  invalidCount : Word := 0
  firstTag : Word := 0
  firstRow : BitVec 12 := 0
  firstCol : BitVec 7 := 0
  firstValid : Bool := false
  nanInCount : Word := 0
  ovfCount : Word := 0
  satCount : Word := 0
  storeOvf : BitVec 16 := 0
  storeUnf : BitVec 16 := 0
  slots : List StatRec := []
  deriving DecidableEq, Repr

/-- Power and service state of a spindle under the reset ladder (R476 to R480, R490). -/
inductive SpindlePower where
  | on | resetting | powerCycling | failed | off
  deriving DecidableEq, Repr

/-- One spindle (R58). -/
structure SpindleState where
  scratch : Cells Byte := []
  epilogue : Cells Byte := []
  acc0 : Cells Word := []
  acc1 : Cells Word := []
  /-- select bit per accumulator row: 1 selects copy 1 (R73) -/
  sel : BitVec 4096 := 0
  /-- 32-byte scratchpad units that arrived poisoned and read as uncorrectable (R225) -/
  badBytes : List Nat := []
  active : Option WeightSet := none
  shadow : Option WeightSet := none
  passes : List Pass := []
  armed : List Pass := []
  /-- when the grid became free and the interval of the pass that freed it (R85) -/
  gridFree : Option (Time × Nat) := none
  /-- the pass issued last in this step (R88) -/
  lastPass : Option PassDesc := none
  /-- class and block address of the pass issued last that loads weights (R66, R75, R88) -/
  lastLoad : Option (Nat × Nat) := none
  preemptPending : Option Preempt := none
  preempted : Bool := false
  retryLimit : BitVec 3 := 2
  barred : Bool := false
  cause : BitVec 4 := 0
  faultSeen : Bool := false
  restarted : Bool := false
  faultTag : Word := 0
  faultRow : BitVec 12 := 0
  passCount : Word := 0
  rowCount : Word := 0
  restarts : BitVec 16 := 0
  wstall : Word := 0
  tstall : Word := 0
  weightStall : Bool := false
  pacerStall : Bool := false
  /-- the grid is in a thermal wait or halt -/
  thermalWait : Bool := false
  power : SpindlePower := .on
  /-- ticks of the recent entries into rung 1 or 2 (R480) -/
  rungTicks : List Nat := []
  /-- an abandon pre-emption of this lane's staple waits to be returned (R205) -/
  returning : Option Staple := none
  stopReqAt : Time := 0
  /-- earliest time at which a pending pre-emption is taken (R78, R84) -/
  takeAt : Time := 0
  /-- window ranges that chains have written in this step (R159) -/
  wrote : List (Nat × Nat) := []
  seq : Seq := {}
  vec : Vec := {}
  num : Num := {}
  deriving DecidableEq, Repr

end Sys2Proof.Machine
end

