-- ==== Sys2Proof/Machine/Types/Config.lean ====
section
/-!
DEFINITION. State of personality-image configuration and the flash (chapter 13).
-/
namespace Sys2Proof.Machine

/-- How far a staged image has come (R365). -/
inductive ImagePass where
  | staging | staged | authentic | checked | written
  deriving DecidableEq, Repr

/-- The request that a load answers: transport, crossing, its header, and the role and key slot it came with (R434, R440). -/
structure LoadReq where
  transport : Transport
  crossing : BitVec 16
  header : List Byte
  role : Nat
  slot : Nat
  deriving DecidableEq, Repr

/-- The image in the staging area (R365). -/
structure StagedImage where
  source : ImageSource
  bytes : List Byte
  pass : ImagePass := .staging
  /-- the plain records once decrypted -/
  plain : List Byte := []
  req : Option LoadReq := none
  /-- CFG_STATUS.state before the load -/
  prior : BitVec 4 := 0
  /-- regions of a partial image whose sequence has not ended (R375) -/
  left : BitVec 64 := 0
  /-- the audit record of the accepted action is committed (R454) -/
  logged : Bool := false
  /-- the grant region that a FABRIC_LOAD copies from (R426) -/
  grant : Nat := 0
  deriving DecidableEq, Repr

/-- The CFG_ block and what stands behind it (R359 to R378). -/
structure CfgState where
  doneTimeoutMs : BitVec 16 := 0x03E8
  state : BitVec 4 := 0
  failMode : Bool := false
  boot : BitVec 2 := 0
  doneHeld : Bool := true
  /-- level of the shared DONE line as last sampled (R371) -/
  doneLine : Bool := false
  golden : Bool := false
  err : Bool := false
  code : Code := 0
  version : Word := 0
  loaded : BitVec 64 := 0
  primary : BitVec 29 := 0x04000000
  progress : Word := 0
  failOffset : Word := 0
  loadsFull : BitVec 16 := 0
  loadsPartial : BitVec 16 := 0
  staged : Option StagedImage := none
  /-- the distaff has booted and has yet to act on CFG_BOOT (R367) -/
  bootDue : Bool := false
  /-- the digest that the loaded full image's signature covers (R364, R459) -/
  digest : List Byte := List.replicate 32 0
  /-- the write pass ended; DONE is awaited from this time (R372) -/
  doneAt : Time := 0
  deriving DecidableEq, Repr

end Sys2Proof.Machine
end

