-- ==== Sys2Proof/Machine/Types/Tick.lean ====
section
/-!
DEFINITION. State of the tick block, the step in progress, the energy pacer and the jobs (chapters 01 and 15).
-/
namespace Sys2Proof.Machine

/-- A field with a shadow (R13, R14): `eff` is read; `shadow` holds a write that waits for the commit write. -/
structure Rws (w : Nat) where
  eff : BitVec w := 0
  shadow : Option (BitVec w) := none
  deriving DecidableEq, Repr

/-- The pacer of one die, in nJ (R47, R56). -/
structure Pacer where
  bucketNj : Nat := 0
  grantedNj : Nat := 0
  debtNj : Nat := 0
  /-- refill not yet a whole nJ, in nJ times the refill period -/
  fraction : Nat := 0
  stallSc : Word := 0
  stallLast : Word := 0
  deriving DecidableEq, Repr

/-- The TCK_ block (R52 to R56) and the tick state behind it (R22 to R29). -/
structure Tick where
  src : BitVec 2 := 0
  upLink : BitVec 7 := 0
  enable : Bool := false
  periodArm : Bool := false
  periodNs : BitVec 28 := 0x0989680
  periodNext : BitVec 28 := 0x0989680
  applyLo : Word := 0
  applyHi : BitVec 16 := 0
  count : BitVec 48 := 0
  countHi : BitVec 16 := 0
  linkComp : BitVec 24 := 0
  holdNs : BitVec 28 := 0xFA0
  lossLimit : BitVec 4 := 4
  locked : Bool := false
  lost : Bool := false
  badPeriod : Bool := false
  lateAbort : Bool := false
  phaseErr : BitVec 16 := 0
  floorUj : Rws 32 := {}
  coef : Vector (Rws 32) 16 := Vector.replicate 16 {}
  pacer : Vector Pacer 4 := Vector.replicate 4 {}
  /-- consecutive expected edges without a good TICK flit (R28) -/
  missed : Nat := 0
  /-- a good TICK flit came for the last edge; one came early for the next (R25, R28) -/
  flitSeen : Bool := false
  flitEarly : Bool := false
  lastEdge : Time := 0
  nextEdge : Time := 0
  /-- stopped starting steps after tick loss (R28) -/
  stopped : Bool := false
  /-- forwarding delay and depth carried by the last TICK flit (R310) -/
  fwdDelay : BitVec 32 := 0
  depth : BitVec 16 := 0
  rootRank : BitVec 16 := 0
  /-- a TICK_IN edge placed the coming edge (R514) -/
  tickInAt : Option Time := none
  /-- end of the TICK_OUT pulse (R27) -/
  tickOutUntil : Time := 0
  deriving DecidableEq, Repr

/-- Where the device stands between two tick edges (R42). -/
inductive StepPhase where
  | idle | window | drain | spread
  deriving DecidableEq, Repr

/-- A cause of an abort, as the end report carries it (R431). -/
structure Cause where
  code : Code
  unit : BitVec 16 := 0xFFFF
  aux0 : Word := 0
  aux1 : Word := 0
  addr : BitVec 64 := 0
  resume : List Byte := []
  deriving DecidableEq, Repr

/-- The step in progress or in its commit hold (R42, R43). -/
structure Step where
  phase : StepPhase := .idle
  /-- tick number at which the step began -/
  tick : BitVec 48 := 0
  /-- its index in the job -/
  index : Nat := 0
  /-- the step window has begun (R42, last row) -/
  begun : Bool := false
  beganAt : Time := 0
  /-- the boundary's outcome is decided -/
  closed : Bool := true
  overrun : Bool := false
  aborted : Bool := false
  faulted : Bool := false
  cause : Code := 0
  origin : BitVec 16 := 0
  unit : BitVec 16 := 0xFFFF
  aux0 : Word := 0
  aux1 : Word := 0
  addr : BitVec 64 := 0
  resume : List Byte := []
  /-- the first cause that forbids a re-run (R113, R207, R430) -/
  final : Option Cause := none
  /-- the first cause that is poison (R261) -/
  poisoned : Option Cause := none
  /-- a die was at level 15; the emergency throttle was active (R493) -/
  level15 : Bool := false
  emergency : Bool := false
  /-- (tick, origin) pairs of the ABORTs already acted on (R311) -/
  seen : List (BitVec 48 × BitVec 16) := []
  /-- a cause found after H_d: it counts against the step that starts in the named tick (R43) -/
  nextCause : Option (BitVec 48 × Code × BitVec 16) := none
  deriving DecidableEq, Repr

/-- The commit record (R40). -/
structure CommitRec where
  jobId : BitVec 64 := 0
  currentHalf : BitVec 256 := 0
  committedTick : BitVec 64 := 0
  committedStep : BitVec 64 := 0
  deriving DecidableEq, Repr

/-- States of a job (R428). -/
inductive JobState where
  | queued | running | delivered | endedEarly | cancelled
  deriving DecidableEq, Repr

/-- A job held by the device (R425, R427, R428). -/
structure Job where
  id : BitVec 64
  pattern : BitVec 64
  steps : Nat
  reruns : Nat
  notify : Bool
  accept : Nat
  promise : Nat
  state : JobState := .queued
  commit : CommitRec := {}
  cancelAt : Option Nat := none
  /-- steps discarded so far (R431) -/
  discarded : Nat := 0
  firstCause : Code := 0
  origin : BitVec 16 := 0
  unit : BitVec 16 := 0xFFFF
  lastStep : Nat := 0
  lastTick : Nat := 0
  aux0 : Word := 0
  aux1 : Word := 0
  addr : BitVec 64 := 0
  resume : List Byte := []
  endCode : Code := 0
  /-- a step was discarded for poison and is being re-run (R261) -/
  poisonRerun : Bool := false
  deriving DecidableEq, Repr

end Sys2Proof.Machine
end

