-- ==== Sys2Proof/Machine/Types/Skein.lean ====
section
/-!
DEFINITION. State of a skein: staple board, bobbin rings, DMA channels; the common arbiter (chapters 07, 08, 10).
-/
namespace Sys2Proof.Machine

/-- The state of one instance of the common arbiter (R229 to R232). -/
structure Arbiter where
  prio : Vector (Rws 32) 4 := Vector.replicate 4 {}
  fairN : Rws 7 := { eff := 8 }
  backoffEn : Rws 1 := { eff := 1 }
  g : Nat := 0
  last : BitVec 5 := 0
  loss : Vector Nat 32 := Vector.replicate 32 0
  waiting : Vector Nat 32 := Vector.replicate 32 0
  backoff : Vector Nat 32 := Vector.replicate 32 0
  fairGrants : Word := 0
  deriving DecidableEq, Repr

/-- The wiring of a ring (R210). -/
structure RingWiring where
  laneLocal : Bool
  home : Fin 8
  producer : Nat
  consumer : Nat
  src : Fin 16
  preload : Nat
  bufferCount : Nat
  bufferBase : Nat
  bufferStride : Nat
  preloadUnits : Nat
  deriving DecidableEq, Repr

/-- Positions of a ring that belong to one staple (R209). -/
structure RingShare where
  staple : BitVec 16
  first : Nat
  count : Nat
  deriving DecidableEq, Repr

/-- A bobbin ring (R208 to R212). -/
structure Ring where
  wiring : Option RingWiring := none
  /-- filled and published positions not yet freed, with their handles -/
  filled : List (Nat × Word) := []
  held : List Nat := []
  /-- positions freed in this step -/
  done : List Nat := []
  producers : List RingShare := []
  consumers : List RingShare := []
  /-- next position of a producer other than staples -/
  nextPost : Nat := 0
  /-- next position of a consumer other than staples -/
  nextTake : Nat := 0
  deriving DecidableEq, Repr

/-- A phase of the board: its window and the remaining list of each lane (R193, R203). -/
structure BoardPhase where
  window : Nat
  lists : Vector (List Staple) 8
  deriving DecidableEq, Repr

/-- A DMA descriptor as the store holds it (R277). -/
structure DmaDesc where
  kind : Nat
  barrier : Bool
  pool : Bool
  push : Bool
  pop : Bool
  mcLast : Bool
  idx64 : Bool
  srcSpace : Nat
  dstSpace : Nat
  srcRegion : Nat
  dstRegion : Nat
  idxSpace : Nat
  idxRegion : Nat
  srcAddr : Nat
  dstAddr : Nat
  idxAddr : Nat
  len0 : Nat
  count1 : Nat
  count2 : Nat
  srcStride1 : Int
  dstStride1 : Int
  srcStride2 : Int
  dstStride2 : Int
  idxCount : Nat
  ring : Nat
  group : Nat
  aux : Nat
  deriving DecidableEq, Repr

/-- What a request of a channel is for. -/
inductive DmaUse where
  | data | index | store
  deriving DecidableEq, Repr

/-- A request of a channel that awaits its answer (R272). -/
structure DmaReq where
  tag : Nat
  use : DmaUse
  /-- 4096 × serial of the list + descriptor index -/
  desc : Nat
  unit : Nat
  piece : Nat
  /-- for a read, the element within a bag or group -/
  elem : Nat
  addr : Nat
  bytes : Nat
  /-- offset of the wanted bytes within the read, and their number -/
  skip : Nat := 0
  want : Nat := 0
  /-- its data came back poisoned (R225) -/
  poison : Bool := false
  deriving DecidableEq, Repr

/-- An index piece of 256 bytes that has come back (R279): its number, status, device address and bytes. -/
structure IdxPiece where
  n : Nat
  status : Code
  addr : Nat
  bytes : List Byte
  deriving DecidableEq, Repr

/-- The earliest failed access of a halting list (R286). -/
structure DmaFail where
  desc : Nat
  unit : Nat
  piece : Nat
  code : Code
  write : Bool
  addr : Nat
  deriving DecidableEq, Repr

/-- The source a pop descriptor takes from its handle (R283). -/
structure PopSource where
  space : Nat
  addr : Nat
  len : Nat
  deriving DecidableEq, Repr

/-- A list running or queued on a channel (R273). Units are runs, elements, 32-byte groups or bags. -/
structure DmaRun where
  list : Nat
  /-- serial number of the list on its channel -/
  serial : Nat := 0
  lane : Fin 8
  staple : BitVec 16
  acceptedAt : Time
  /-- index within the list of the descriptor running -/
  desc : Nat := 0
  /-- next read: unit, element within it, piece -/
  unit : Nat := 0
  elem : Nat := 0
  piece : Nat := 0
  /-- next write: unit and piece -/
  wUnit : Nat := 0
  wPiece : Nat := 0
  bytes : Nat := 0
  descBytes : Nat := 0
  idxPieces : List IdxPiece := []
  idxAsked : Nat := 0
  /-- read data waiting to be written -/
  landed : List (DmaReq × List Byte) := []
  held : Option HeldPos := none
  /-- the descriptor whose popped position is held -/
  heldDesc : Nat := 0
  /-- sources taken by pop descriptors of the list so far -/
  pops : List (Nat × PopSource) := []
  /-- descriptors of the list whose handle has been posted -/
  pushed : List Nat := []
  fail : Option DmaFail := none
  /-- padding elements of scatters passed so far, which wrote nothing: descriptor and element -/
  skips : List (Nat × Nat) := []
  /-- it runs again from a resume point after its completion event (R287) -/
  again : Bool := false
  /-- its staple, its lane or the step has stopped: it resumes no more (R290) -/
  gone : Bool := false
  deriving DecidableEq, Repr

/-- A resume record (R289). -/
structure ResumeRec where
  list : Nat := 0
  desc : Nat := 0
  unit : Nat := 0
  piece : Nat := 0
  code : Code := 0
  attempts : Nat := 0
  valid : Bool := false
  retryable : Bool := false
  write : Bool := false
  addr : BitVec 64 := 0
  bytesDone : Nat := 0
  deriving DecidableEq, Repr

/-- A DMA channel (R272 to R294). -/
structure Channel where
  disable : Bool := false
  run : Option DmaRun := none
  queued : Option DmaRun := none
  /-- complete lists that have writes outstanding, oldest first (R284, R286) -/
  past : List DmaRun := []
  /-- lists that wait while an earlier one runs again (R287) -/
  parked : List DmaRun := []
  halted : Bool := false
  /-- a halt that waits for its outstanding requests or for its retry time -/
  retryAt : Option Time := none
  halting : Bool := false
  stopping : Bool := false
  /-- the unit boundary at which a stopping list issues nothing further (R290) -/
  stopAt : Nat := 0
  haltSeen : Bool := false
  code : Code := 0
  listsDone : Word := 0
  units : Word := 0
  bytes : Word := 0
  retries : Word := 0
  reads : List DmaReq := []
  writes : List DmaReq := []
  nextTag : Nat := 0
  serial : Nat := 0
  res : ResumeRec := {}
  /-- pushes whose descriptors' writes are not all acknowledged: list descriptor, ring, handle (R283) -/
  pushDue : List (Nat × Nat × Word) := []
  /-- the last descriptor is complete; the completion event is visible from this time (R273) -/
  doneAt : Option Time := none
  deriving DecidableEq, Repr

/-- One skein (R191, R216, R294). -/
structure SkeinState where
  stallEn : Bool := true
  limit : Word := 0x4000
  restartLimit : BitVec 8 := 8
  excluded : BitVec 8 := 0
  slow : BitVec 8 := 0
  excludedNow : BitVec 8 := 0
  boardActive : Bool := false
  tableBase : Nat := 0
  phases : List BoardPhase := []
  phase : Nat := 0
  done : Bool := false
  phaseAt : Time := 0
  /-- the phase was complete at this time; the advance comes 4 sc later (R202) -/
  completeAt : Option Time := none
  latePhases : BitVec 4 := 0
  /-- the current phase is counted among them -/
  lateCounted : Bool := false
  returned : List Staple := []
  inProgress : List (Fin 8 × Staple) := []
  /-- staples that raised a budget fault in this step (R46) -/
  faultedOnce : List (BitVec 16) := []
  stallFault : Bool := false
  overrun : Bool := false
  budgetRepeat : Bool := false
  code : Code := 0
  takes : Word := 0
  steals : Word := 0
  sends : Word := 0
  returnedCount : BitVec 16 := 0
  stallLanes : Word := 0
  stallRings : Word := 0
  rings : Vector Ring 32 := Vector.replicate 32 {}
  arb : Arbiter := {}
  channels : Vector Channel 4 := Vector.replicate 4 {}
  retryDelay : BitVec 12 := 0x100
  retryLimit : BitVec 7 := 0x40
  lists : List (Nat × Nat) := []
  descs : List DmaDesc := []
  /-- words that firmware wrote through the private window, by offset; the spec gives the store no layout there (R536) -/
  window : Cells Word := []
  /-- the board, its rings and its channels are in a running rung (R478, R479) -/
  inReset : Bool := false
  deriving DecidableEq, Repr

end Sys2Proof.Machine
end

