-- ==== Sys2Proof/Machine/Types/Weft.lean ====
section
/-!
DEFINITION. State of the weft and the creel of each die, and the packets in flight (chapter 08).
-/
namespace Sys2Proof.Machine

/-- The packet types (R221). -/
inductive PacketKind where
  | readReq | write | mcast | readResp | writeAck | inval
  deriving DecidableEq, Repr

/-- The unit behind a source endpoint that a request serves; its answer goes back there. A tag of R221 carries this. -/
inductive Owner where
  | chan (c : Chan) | link (l : Link) (stream : Nat) | slice | fabric | ingest | bulk (n : Fin 8) | agent
  deriving DecidableEq, Repr

/-- A packet in flight (R221). -/
structure Packet where
  kind : PacketKind
  src : Endpoint
  dst : Endpoint
  vc : BitVec 2
  owner : Owner
  tag : Nat
  addr : Nat
  /-- bytes asked for by a read request -/
  bytes : Nat := 0
  data : List Byte := []
  poison : Bool := false
  /-- last flag of a multicast stream -/
  last : Bool := false
  status : Code := 0
  group : Nat := 0
  stream : Nat := 0
  ring : Nat := 0
  sentAt : Time := 0
  deriving DecidableEq, Repr

/-- A multicast packet not yet acknowledged: stored by some receivers only; the worst status so far (R284). -/
structure McAck where
  pkt : Packet
  status : Code := 0
  deriving DecidableEq, Repr

/-- A replication output that holds packets or is pruned (R239, R240). -/
structure McBranch where
  out : McOut
  pruned : Bool := false
  /-- packets held in its skid, oldest first -/
  skid : List Packet := []
  /-- since when a flit waits at its head -/
  since : Option Time := none
  deriving DecidableEq, Repr

/-- A multicast stream in one step (R239, R240). -/
structure McStream where
  src : Endpoint
  stream : Nat
  group : Nat
  ring : Nat
  bytes : Nat := 0
  /-- the last packet has entered the network -/
  last : Bool := false
  /-- outputs that hold packets or are pruned; any other takes flits as they come -/
  branches : List McBranch := []
  /-- receivers whose copy is not complete: torn, or a write to them was refused -/
  torn : BitVec 128 := 0
  acks : List McAck := []
  deriving DecidableEq, Repr

/-- A creel window (R234, R243). -/
structure CreelWin where
  base : BitVec 30 := 0
  limit : BitVec 30 := 0
  cls : BitVec 2 := 0
  deriving DecidableEq, Repr

/-- A line held by a creel slice, in a way of its set (R233). -/
structure CreelLine where
  n : Nat
  way : Fin 16
  data : List Byte
  deriving DecidableEq, Repr

/-- A line fetch outstanding at a slice (R235). -/
structure CreelFetch where
  n : Nat
  id : Nat
  allocate : Bool
  /-- an invalidate passed while the fetch was under way: deliver, do not allocate -/
  stale : Bool := false
  deriving DecidableEq, Repr

/-- A read at the creel with the lines it has and the lines it waits for (R235). -/
structure CreelWait where
  pkt : Packet
  parts : List (Nat × List Byte)
  /-- lines it waits for, each with the number of its fetch -/
  need : List (Nat × Nat)
  status : Code := 0
  poison : Bool := false
  deriving DecidableEq, Repr

/-- One creel slice (R233). -/
structure CreelSlice where
  lines : List CreelLine := []
  /-- the pseudo-LRU tree of each set (R233) -/
  plru : Cells (BitVec 15) := []
  fetches : List CreelFetch := []
  deriving DecidableEq, Repr

/-- The WFT_ and CRL_ blocks of one die and what stands behind them (R217 to R243). -/
structure DieState where
  basez : BitVec 16 := 0
  fenced : BitVec 16 := 0
  draining : BitVec 16 := 0
  fenceLimit : BitVec 16 := 0x0800
  fenceAt : Vector Time 16 := Vector.replicate 16 0
  /-- releases asked for before the drain ended (R227) -/
  releaseHeld : BitVec 16 := 0
  /-- an endpoint accepts packets again from this time (R227) -/
  acceptAt : Vector Time 16 := Vector.replicate 16 0
  edgeRowUp : Bool := false
  edgeColUp : Bool := false
  torn : Bool := false
  poison : Bool := false
  fenceTimeout : Bool := false
  code : Code := 0
  errEp : BitVec 9 := 0
  corr : Word := 0
  uncorr : Word := 0
  tornGroup : BitVec 6 := 0
  tornSpindle : BitVec 7 := 0
  tornValid : Bool := false
  sliverMax : BitVec 16 := 0
  /-- group masks as firmware loaded them, and in effect in this step (R238) -/
  mcastLoaded : Vector (BitVec 128) 64 := Vector.replicate 64 0
  mcast : Vector (BitVec 128) 64 := Vector.replicate 64 0
  sliverArb : Arbiter := {}
  creelEn : Bool := true
  /-- since when the creel is emptying (R236) -/
  emptying : Option Time := none
  hits : Word := 0
  misses : Word := 0
  merged : Word := 0
  crlCorr : Word := 0
  crlUncorr : Word := 0
  inval : Word := 0
  wins : Vector CreelWin 16 := Vector.replicate 16 {}
  slices : Vector CreelSlice 8 := Vector.replicate 8 {}
  waits : List CreelWait := []
  creelArb : Arbiter := {}
  /-- the die agent is restarting until this time (R471) -/
  agentUntil : Time := 0
  deriving DecidableEq, Repr

/-- A die-to-die edge, in the order 0-1, 2-3, 0-2, 1-3 (R4, R482). -/
structure Edge where
  up : Bool := false
  downAt : Time := 0
  deriving DecidableEq, Repr

end Sys2Proof.Machine
end

