-- ==== Sys2Proof/Machine/Types/Memory.lean ====
section
/-!
DEFINITION. State of the memory controllers, the interleave maps, retirement and migration (chapter 09).
-/
namespace Sys2Proof.Machine

/-- Where a disabled function stands (R489). -/
inductive FnState where
  | on | draining | off
  deriving DecidableEq, Repr

/-- A function's disable state with the start of its drain and its last drain time (R489, R498). -/
structure Fn where
  st : FnState := .on
  since : Time := 0
  /-- DST_FN_STATE.drain_ns: last drain time in units of 16 ns, saturating -/
  drain : BitVec 16 := 0
  /-- an enable waits for the next step start (R490) -/
  enabling : Bool := false
  deriving DecidableEq, Repr

/-- A region of the interleave map (R249). -/
structure MapRegion where
  tier : Tier
  base : Nat
  size : Nat
  g : Nat
  members : BitVec 12
  ranks : BitVec 4
  deriving DecidableEq, Repr

/-- A rank: member of the tier and rank index (R247). -/
structure RankId where
  n : Fin 12
  r : Fin 4
  deriving DecidableEq, Repr

/-- A request in a controller's queue: that of its pseudo-channel, or of its DDR5 subchannel (R253, R254). -/
structure MemReq where
  pkt : Packet
  r : Fin 4
  pc : Nat
  arrived : Time
  /-- what a read returns: the bytes that the writes accepted before it left, and those before it in the queue leave (R254) -/
  data : List Byte := []
  deriving DecidableEq, Repr

/-- A write performed whose acknowledgement waits for creel invalidates (R236). -/
structure OwedAck where
  ack : Packet
  id : Nat
  left : Nat
  deriving DecidableEq, Repr

/-- A command under retry after a parity error (R263). -/
structure CmdRetry where
  r : Fin 4
  pc : Nat
  tries : Nat
  deriving DecidableEq, Repr

/-- One HBM_ or DDR_ block and its controller (R270, R271). -/
structure CtlState where
  trained : Bool := false
  uncorrSeen : Bool := false
  cmdErr : Bool := false
  code : Code := 0
  rank : Vector (BitVec 4) 4 := Vector.replicate 4 6
  remap : Word := 0
  idleClocks : BitVec 16 := 0x2000
  srEn : Bool := true
  /-- pseudo-channels (HBM) or the channel (DDR5, bit 0) in self-refresh -/
  inSr : BitVec 64 := 0
  /-- self-refresh exit under way until this time -/
  wakeAt : Vector Time 64 := Vector.replicate 64 0
  lastCmd : Vector Time 64 := Vector.replicate 64 0
  srLate : Word := 0
  corr : Word := 0
  uncorr : Word := 0
  cmdRetry : Word := 0
  errAddr : BitVec 48 := 0
  errPc : BitVec 6 := 0
  errRank : BitVec 2 := 0
  errKind : BitVec 2 := 0
  errValid : Bool := false
  migLines : Word := 0
  migPoisoned : Word := 0
  scrubs : BitVec 16 := 0
  temp : BitVec 8 := 0
  refresh2x : Bool := false
  /-- banks refreshed so far, per pseudo-channel (R244) -/
  refreshes : Vector Nat 64 := Vector.replicate 64 0
  /-- the bank refreshed last, per pseudo-channel -/
  refBank : Vector Nat 64 := Vector.replicate 64 0
  map : Vector (Word × Word × Word) 16 := Vector.replicate 16 (0, 0, 0)
  arb : Arbiter := {}
  /-- command slots of each pseudo-channel or of the channel, for the maintenance share (R253) -/
  slotNo : Vector Nat 64 := Vector.replicate 64 0
  queue : List MemReq := []
  owed : List OwedAck := []
  retry : Option CmdRetry := none
  pcFn : Vector Fn 64 := Vector.replicate 64 {}
  /-- DDR5 population (R271) -/
  modules : BitVec 2 := 0
  mrdimm : Bool := false
  ranks : BitVec 3 := 0
  rankGib : BitVec 8 := 0
  speed : BitVec 4 := 0
  speedCap : BitVec 4 := 3
  deriving DecidableEq, Repr

/-- A running migration (R264). The pseudo-channels of an HBM rank copy in parallel; a DDR5 channel copies as the first. -/
structure Migration where
  src : RankId
  tgt : RankId
  /-- lines of each pseudo-channel or of the channel -/
  lines : Nat := 0
  /-- the next line to copy of each, in ascending order -/
  line : Vector Nat 64 := Vector.replicate 64 0
  /-- since when that line is held by its copy (R265) -/
  since : Vector (Option Time) 64 := Vector.replicate 64 none
  deriving DecidableEq, Repr

/-- Retirement and sparing of one tier (R248, R263 to R267). -/
structure TierState where
  pool : List RankId := []
  /-- pool entries that become spares at the next full device reset, or after the running migration -/
  poolNext : List RankId := []
  poolPending : Bool := false
  /-- ranks retired and waiting for their migration, in order, with the spare reserved; none = locked -/
  waiting : List (RankId × Option RankId) := []
  mig : Option Migration := none
  /-- the installer named the pool; else the default pool of R248 is taken at training -/
  custom : Bool := false
  /-- the retirement journal in flash: a retired rank with its replacement, or locked (none) (R266) -/
  record : List (RankId × Option RankId) := []
  deriving DecidableEq, Repr

end Sys2Proof.Machine
end

