-- ==== Sys2Proof/Machine/Types/Fabric.lean ====
section
/-!
DEFINITION. State of the logic fabric of each die: regions, endpoints, ingest windows, capture and the clocked
elements of user logic (chapter 12).
-/
namespace Sys2Proof.Machine

/-- A request into a fabric endpoint that its region has not answered (R339). -/
structure FabIn where
  pkt : Packet
  since : Time
  deriving DecidableEq, Repr

/-- A request that region logic sent out (R338). -/
structure FabOut where
  tag : BitVec 12
  write : Bool
  addr : BitVec 64
  bytes : Nat
  deriving DecidableEq, Repr

/-- A fabric weft endpoint (R337, R338, R358). -/
structure FabEp where
  inBase : Word := 0
  inLimit : Word := 0
  outBase : Vector Word 4 := Vector.replicate 4 0
  outLimit : Vector Word 4 := Vector.replicate 4 0
  perm : BitVec 8 := 0
  refused : Word := 0
  inFlight : List FabIn := []
  outstanding : List FabOut := []
  /-- answers delivered to the region: tag, status, data -/
  answers : List (BitVec 12 × Code × List Byte) := []
  deriving DecidableEq, Repr

/-- A step of the partial load of a region (R349). -/
inductive RegionLoad where
  | none | fenced | gated | written | ungated
  deriving DecidableEq, Repr

/-- A logic region (R357). -/
structure FabRegion where
  state : BitVec 3 := 0
  basez : Bool := false
  clkSel : BitVec 4 := 0
  power : Bool := true
  modes : Word := 0
  load : RegionLoad := .none
  loadAt : Time := 0
  /-- the clock or power switch waits for the Basez fence (R227, R345) -/
  switching : Option (BitVec 4) := none
  poweringOff : Bool := false
  fn : Fn := {}
  deriving DecidableEq, Repr

/-- One ingest window (R341 to R343). -/
structure Ingest where
  validHeld : Bool := true
  dropSeen : Bool := false
  writes : Word := 0
  /-- the access that later beats may join: its 256-byte block, its beats so far, and the clock edge of its last beat (R342) -/
  open_ : Option (Nat × Nat × Nat) := none
  deriving DecidableEq, Repr

/-- A multiply-accumulate slice (R332). -/
structure Slice where
  slice : Nat
  acc : BitVec 64 := 0
  ovf : Bool := false
  /-- operands in the pipeline, oldest last -/
  pipe : List (BitVec 27 × BitVec 24 × BitVec 2 × Bool) := []
  deriving DecidableEq, Repr

/-- The last access of a port of a RAM: address, domain and count of its clock edges, whether it wrote, its output, and the outputs that
signal a corrected and an uncorrectable word of an ECC block (R334). -/
structure RamPort where
  ram : Nat
  port : Fin 2
  addr : Nat
  domain : Fin 16
  edge : Nat
  wrote : Bool
  out : Nat
  corrected : Bool := false
  uncorrectable : Bool := false
  deriving DecidableEq, Repr

/-- Release of a full image's outputs in stages (R344). -/
inductive Release where
  | none | done | outputs | enables | resets
  deriving DecidableEq, Repr

/-- The FAB_ block of one die and its logic (R326 to R358). -/
structure FabDie where
  relGap : BitVec 8 := 8
  epTimeoutUs : BitVec 8 := 0x64
  configured : Bool := false
  released : Bool := false
  release : Release := .none
  releaseAt : Time := 0
  err : Bool := false
  code : Code := 0
  capDomain : BitVec 4 := 0
  capResume : Bool := false
  capEdge : Word := 1
  capDst : BitVec 48 := 0
  capLen : Nat := 0
  capBytes : Word := 0
  capArmed : Bool := false
  capStopped : Bool := false
  capCount : Nat := 0
  /-- the captured domain is stopped and its elements are being read out (R354) -/
  capRead : Bool := false
  regions : Vector FabRegion 16 := Vector.replicate 16 {}
  eps : Vector FabEp 16 := Vector.replicate 16 {}
  ingest : Vector Ingest 2 := Vector.replicate 2 {}
  /-- configuration memory: frame number and its bytes -/
  frames : List (Nat × List Byte) := []
  slices : List Slice := []
  rams : List (Nat × Cells Nat) := []
  ports : List RamPort := []
  /-- frequency of each user clock domain in kHz, from the CLOCKS record (R330, R361) -/
  freq : Vector Nat 16 := Vector.replicate 16 0
  /-- rising edges of each domain so far -/
  clockEdges : Vector Nat 16 := Vector.replicate 16 0
  flops : List (Nat × Bool) := []
  pins : List (Nat × Bool) := []
  /-- border signals by region, group and number, as region logic last drove them with the fence down (R328, R350) -/
  border : List ((Fin 16 × Fin 16 × Fin 64) × Bool) := []
  deriving DecidableEq, Repr

end Sys2Proof.Machine
end

