-- ==== Sys2Proof/Machine/Types/Fault.lean ====
section
/-!
DEFINITION. State of the fault and reset registers, the rungs in progress and the crash record (chapter 17).
-/
namespace Sys2Proof.Machine

/-- A rung in progress over a unit (R476, R477, R539). -/
structure Rung where
  unit : ResetUnit
  rung : Nat
  cause : Code
  startedAt : Time
  /-- the start of its bound: the request, or the commit of its crash record (R477) -/
  boundFrom : Time
  deriving DecidableEq, Repr

/-- The watchdog's sample of a unit: its progress counters, and since when it has been watched without a change of them (R468). -/
structure Watch where
  since : Time := 0
  seen : List Nat := []
  deriving DecidableEq, Repr

/-- The DST_ block (R498) and what stands behind it. -/
structure FaultState where
  windowUs : BitVec 24 := 0
  wdogEn : Bool := true
  hangClass : BitVec 3 := 0
  hangIndex : BitVec 10 := 0
  hangSeen : Bool := false
  ctlRung : BitVec 3 := 0
  ctlTarget : BitVec 10 := 0
  ctlCause : BitVec 16 := 0
  escalated : Bool := false
  statusTarget : BitVec 10 := 0
  statusCode : Code := 0
  windowTicks : BitVec 16 := 0x0400
  repeatLimit : BitVec 4 := 3
  lastRung : BitVec 3 := 0
  lastCode : Code := 0
  failed : BitVec 128 := 0
  crashBase : BitVec 48 := 0
  crashSeq : Word := 0
  crashWin : Vector (BitVec 24) 16 := Vector.ofFn (fun n => BitVec.ofNat 24 (n.val * 0x60000))
  fnClass : BitVec 3 := 0
  fnIndex : BitVec 10 := 0
  emergActive : Bool := false
  fwForce : Bool := false
  alert : Bool := false
  stale : Bool := false
  emergSeen : Bool := false
  /-- every source of the emergency throttle has been clear since this time (R492) -/
  clearSince : Option Time := none
  envSupply : Bool := false
  envTemp : Bool := false
  envCore : Bool := false
  envWarp : Bool := false
  resetsSpindle : BitVec 16 := 0
  resetsWider : BitVec 16 := 0
  rungs : List Rung := []
  /-- a compute rung ended and firmware restores the pattern; since this time (R478) -/
  restoringSince : Option Time := none
  /-- the restore completed at this time (R485) -/
  restoredAt : Option Time := none
  /-- out of service after a compute rung, until RETURN_TO_SERVICE -/
  outOfService : Bool := false
  /-- a rung 7 missed its bound: held in reset until power is removed (R477) -/
  dead : Bool := false
  lastFault : Code := 0
  faultReports : Nat := 0
  spindleFn : Vector Fn 128 := Vector.replicate 128 {}
  chanFn : Vector Fn 64 := Vector.replicate 64 {}
  /-- resets of each distaff core in the last hour (R471) -/
  coreResets : Vector (List Time) 4 := Vector.replicate 4 []
  coreHalted : BitVec 4 := 0
  /-- memory has been trained in the full device reset that runs (R246) -/
  trained : Bool := false
  /-- a RESET message asked for rung 7, at this time (R435) -/
  asked : Option Time := none
  watchSpindle : Vector Watch 128 := Vector.replicate 128 {}
  watchChannel : Vector Watch 64 := Vector.replicate 64 {}
  watchBoard : Vector Watch 16 := Vector.replicate 16 {}
  watchRouters : Vector Watch 4 := Vector.replicate 4 {}
  watchCrossbar : Watch := {}
  deriving DecidableEq, Repr

end Sys2Proof.Machine
end

