-- ==== Sys2Proof/Machine/Types/Link.lean ====
section
/-!
DEFINITION. State of a warp link: bring-up, sequencing and replay, streams and slots (chapter 11).
-/
namespace Sys2Proof.Machine

/-- Where a link's bring-up stands (R298 to R300). -/
inductive LinkPhase where
  | down | training | measuring | up
  deriving DecidableEq, Repr

/-- A stream entry of a warp slot table (R314). -/
structure StreamEntry where
  stream : Nat
  token : Bool
  ring : Nat
  firstSlot : Nat
  count : Nat
  staging : Nat
  expert : Nat
  quota : Nat
  rowBytes : Nat
  deferRegion : Nat
  deferOffset : Nat
  deriving DecidableEq, Repr

/-- A transmit stream (R316, R320). -/
structure StreamTx where
  e : StreamEntry
  credits : Nat
  /-- payloads of the flits of the popped handle, with the last flag, not yet sent -/
  out : List (List Byte × Bool) := []
  /-- popped positions whose last flit is unsent (none) or sent under a seq, not yet acknowledged -/
  held : List (Nat × Option (BitVec 12)) := []
  popped : Nat := 0
  slotsUsed : Nat := 0
  deriving DecidableEq, Repr

/-- A receive stream (R317, R318). -/
structure StreamRx where
  e : StreamEntry
  flits : Nat := 0
  lasts : Nat := 0
  /-- bytes received for the handle under way -/
  bytes : Nat := 0
  pos : Nat := 0
  /-- writes sent to memory and not yet acknowledged, with the position they fill -/
  owed : List (Nat × Nat) := []
  /-- handles whose last flit came: position and bytes, posted once acknowledged -/
  ready : List (Nat × Nat) := []
  creditsDue : Nat := 0
  /-- flits in staging that have no ring position to go to: bytes, last flag, poison -/
  staged : List (List Byte × Bool × Bool) := []
  nextTag : Nat := 0
  /-- bytes taken from staging that do not yet fill a 32-byte unit, with their poison (R221) -/
  carry : List Byte := []
  carryBad : Bool := false
  deriving DecidableEq, Repr

/-- The slot table of a link in the pattern in effect (R314). -/
structure SlotTable where
  peerRank : Nat
  peerLink : Nat
  rate : Nat
  slots : Nat
  deriving DecidableEq, Repr

/-- One warp link (R325). -/
structure LinkState where
  enable : Bool := false
  maxRate : BitVec 2 := 3
  autoRetrain : Bool := true
  tickDown : Bool := false
  phase : LinkPhase := .down
  rate : BitVec 2 := 0
  los : BitVec 2 := 0
  lol : BitVec 2 := 0
  downSeen : Bool := false
  budget : Bool := false
  mismatch : Bool := false
  slotMissed : Bool := false
  code : Code := 0
  peerRank : BitVec 16 := 0
  peerLink : BitVec 7 := 0
  peerCheck : Bool := false
  rtt : BitVec 24 := 0
  failedRate : BitVec 2 := 0
  attempts : BitVec 2 := 0
  skew : BitVec 10 := 0
  fecCorr : Word := 0
  fecUncorr : Word := 0
  crcErr : BitVec 16 := 0
  stale : BitVec 16 := 0
  replaysStep : BitVec 8 := 0
  replaysTotal : BitVec 24 := 0
  tickDrop : Word := 0
  testMode : BitVec 2 := 0
  testPattern : BitVec 2 := 0
  testRun : Bool := false
  farEnd : Bool := false
  testErr : Word := 0
  slotsIdle : Word := 0
  defer : Word := 0
  sliver : Word := 0
  /-- the lower of the two ends' highest rates, from the identity exchange (R298) -/
  target : BitVec 2 := 0
  /-- tries at the present rate step (R299) -/
  tries : Nat := 0
  /-- what the peer said of itself in the last identity exchange (R298) -/
  peerSaid : Option PeerIdent := none
  /-- the link went down and waits to start again: since then, or since a detector last changed (R302) -/
  downAt : Option Time := none
  /-- streams displaced from their slots, to go in the next ones, in order (R309) -/
  displaced : List Nat := []
  txSeq : BitVec 12 := 0
  /-- sequenced flits sent and not acknowledged, oldest first (R306) -/
  replay : List Flit := []
  /-- flits of the replay buffer to send again (R307) -/
  resend : List Flit := []
  rxNext : BitVec 12 := 0
  /-- when a replay of `rxNext`, which has not arrived, was last asked for (R307) -/
  askedAt : Option Time := none
  replayDue : Option (BitVec 8) := none
  slotsSinceIdle : Nat := 0
  tickDue : Option TickPayload := none
  aborts : List (List Byte) := []
  slivers : List (List Byte) := []
  slot : Nat := 0
  tx : List StreamTx := []
  rx : List StreamRx := []
  table : Option SlotTable := none
  /-- SLIVER payloads delivered to the distaff (R305) -/
  sliverIn : List (List Byte) := []
  /-- the flit on the wire toward the peer (R309) -/
  wire : Option Flit := none
  fn : Fn := {}
  deriving DecidableEq, Repr

end Sys2Proof.Machine
end

