-- ==== Sys2Proof/Machine/Types/Distaff.lean ====
section
/-!
DEFINITION. State of the distaff: patterns, jobs, grants, core queues and the installer's configuration (chapter 15).
-/
namespace Sys2Proof.Machine

/-- A pattern image (R32). -/
abbrev Image := List Byte

/-- A staged pattern (R420, R421). -/
structure Staged where
  image : Image
  verified : Bool := false
  armedAt : Option Nat := none
  deriving DecidableEq, Repr

/-- A grant region (R426). -/
structure Grant where
  id : Nat
  base : Nat
  bytes : Nat
  dirIn : Bool
  dirOut : Bool
  closing : Bool := false
  transfers : Nat := 0
  deriving DecidableEq, Repr

/-- An admitted request not yet answered (R436). -/
structure Held where
  core : Nat
  transport : Transport
  crossing : BitVec 16
  opcode : Nat
  bound : Nat
  arrived : Time
  /-- the length of the request's range, which bounds of the staging messages grow with (R416) -/
  range : Nat := 0
  deriving DecidableEq, Repr

/-- A response on its way to its transport (R393). -/
structure Response where
  transport : Transport
  crossing : BitVec 16
  bytes : List Byte
  deriving DecidableEq, Repr

/-- A link entry of the installer's topology (R321, R433 item 1). -/
structure TopoEntry where
  link : Nat
  ctl : Nat
  peerRank : Nat
  peerLink : Nat
  deriving DecidableEq, Repr

/-- The distaff (R411 to R440). -/
structure Distaff where
  /-- image of the pattern in effect (R35) -/
  active : Option Image := none
  staged : Option Staged := none
  jobs : List Job := []
  /-- ended jobs whose end reports are kept, latest first, at most 64 (R427, R428) -/
  ended : List Job := []
  grants : List Grant := []
  queue : List Held := []
  responses : List Response := []
  busyCount : Nat := 0
  topology : List TopoEntry := []
  topologyNext : Option (List TopoEntry) := none
  map : List MapRegion := []
  /-- the installer's map, loaded at the next full device reset; none = default (R249, R252) -/
  mapNext : Option (List MapRegion) := none
  hbm : TierState := {}
  ddr : TierState := {}
  /-- training report codes (R246) -/
  training : List Code := []
  alive : Bool := false
  deriving DecidableEq, Repr

end Sys2Proof.Machine
end

