-- ==== Sys2Proof/Machine/Types/Power.lean ====
section
/-!
DEFINITION. State of pins, supplies, clocks and temperature (chapter 18).
-/
namespace Sys2Proof.Machine

/-- Thermal state of a die (R521, R522, R525). -/
structure ThermState where
  temp : BitVec 8 := 0
  /-- hottest junction sensor of the last reading (R399) -/
  junction : BitVec 8 := 0
  level : BitVec 4 := 0
  stale : Bool := false
  tmax : BitVec 8 := 0
  readAt : Time := 0
  /-- target level of the last reading (R522) -/
  target : BitVec 4 := 0
  /-- the target is below the level since this time, or since the last step down (R522) -/
  coolSince : Option Time := none
  /-- the controlling temperature is below 95 °C since this time (R523) -/
  below95 : Option Time := none
  setMv : BitVec 10 := 0x2EE
  readMv : BitVec 10 := 0
  deriving DecidableEq, Repr

/-- TAP controller states of IEEE 1149.1 (R515). -/
inductive TapState where
  | reset | idle | selDr | capDr | shDr | ex1Dr | pauDr | ex2Dr | updDr
  | selIr | capIr | shIr | ex1Ir | pauIr | ex2Ir | updIr
  deriving DecidableEq, Repr

/-- The PWR_ block, the pins and the test port (R502 to R525). -/
structure PwrState where
  trip : Bool := false
  alertPin : Bool := false
  railFault : Bool := false
  stage2 : Bool := false
  stage3 : Bool := false
  stage4 : Bool := false
  rail : BitVec 8 := 0
  powerW : BitVec 16 := 0
  capW : BitVec 16 := 0
  limitW : BitVec 16 := 0x0B54
  therm : Vector ThermState 4 := Vector.replicate 4 {}
  startC : BitVec 8 := 0x60
  fallMs : BitVec 8 := 1
  tripTemp : BitVec 8 := 0
  tripSensor : BitVec 6 := 0
  tripDie : BitVec 2 := 0
  tickMissed : BitVec 16 := 0
  tickOutside : BitVec 16 := 0
  rails : List RailReading := []
  sysRstLow : Bool := true
  sysRstSince : Time := 0
  thermtripLow : Bool := false
  progLow : Bool := false
  progSince : Time := 0
  tap : TapState := .reset
  /-- the instruction in the TAP's instruction register (R515) -/
  inst : Config.TapInst := .idcode
  /-- the shift stage of the instruction register, the bit nearest TDO first -/
  irShift : List Bool := []
  /-- the shift stage of the selected data register, the bit nearest TDO first -/
  drShift : List Bool := []
  /-- the update stage of the boundary-scan register, which drives the pins under EXTEST and CLAMP -/
  boundary : List Bool := []
  /-- the level of TDO; none while it is not driven -/
  tdo : Option Bool := none
  refCoreBad : Bool := false
  refWarpBad : BitVec 4 := 0
  deriving DecidableEq, Repr

end Sys2Proof.Machine
end

