-- ==== Sys2Proof/Machine/Types/Security.lean ====
section
/-!
DEFINITION. State of roles, keys, attestation, the audit log and firmware slots (chapter 16).
-/
namespace Sys2Proof.Machine

/-- A role held by a transport (R442, R443). -/
inductive Role where
  | operator | installer | maker
  deriving DecidableEq, Repr

/-- The role state of one transport (R443 to R447). -/
structure RoleState where
  role : Role := .operator
  slot : Nat := 0
  lastUse : Time := 0
  nonce : Option (List Byte × Time) := none
  /-- signature parts of a ROLE_ENTER received so far, in order (R446) -/
  parts : List (List Byte) := []
  partsNext : Nat := 0
  /-- bytes 0x20 to 0x6F of the assembly's part 0 -/
  partsHead : List Byte := []
  fails : Nat := 0
  lockedUntil : Option Time := none
  deriving DecidableEq, Repr

/-- An enrolled installer key (R449). -/
structure InstallerKey where
  key : List Byte
  revoked : Bool := false
  deriving DecidableEq, Repr

/-- A firmware slot (R460, R462): its image as it was staged, and whether that image met R460. -/
structure FwSlot where
  image : List Byte := []
  version : Word := 0
  security : Nat := 0
  valid : Bool := false
  deriving DecidableEq, Repr

/-- The newest committed slot-switch record (R462): slot and trial. -/
structure SwitchRec where
  slot : Bool := false
  trial : BitVec 2 := 0
  deriving DecidableEq, Repr

/-- The SEC_ block and what stands behind it (R442 to R467). -/
structure SecState where
  vbatOk : Bool := false
  vbatLost : Bool := false
  /-- event 0x0033 is to be logged at the next boot (R450) -/
  vbatLogDue : Bool := false
  tableValid : Bool := false
  testMode : Bool := false
  fwSlot : Bool := false
  code : Code := 0
  roles : Vector RoleState 9 := Vector.replicate 9 {}
  installer : Vector (Option InstallerKey) 4 := Vector.replicate 4 none
  generation : Nat := 0
  rootHash : Option (List Byte) := some Config.rootHash
  fuseKeys : Vector (Option (List Byte)) 4 := Vector.replicate 4 none
  fuseRevoked : BitVec 4 := 0
  battKeys : Vector (Option (List Byte)) 2 := Vector.replicate 2 none
  battRevoked : BitVec 2 := 0
  rollback : BitVec 7 := 0
  raFuse : Bool := false
  leavesLeft : BitVec 26 := 0
  block : BitVec 19 := 0
  blockValid : Bool := false
  nextLeaf : Nat := 0
  audit : List (List Byte) := []
  auditSeq : Nat := 0
  erased : Word := 0
  idleS : BitVec 16 := 0x0258
  bootCount : Word := 0
  /-- slot 0 leaves manufacture with firmware 3.2 (log 41) -/
  slots : Vector FwSlot 2 := Vector.ofFn (fun i => if i = 0 then { image := Config.factoryImage, version := 0x03020000, valid := true } else {})
  switchRec : SwitchRec := {}
  /-- the slot that is not running holds a staged image -/
  fwStaged : Bool := false
  attest : List Byte := []
  attestBy : Option Transport := none
  /-- refusals during a role-entry lock, by transport (R447) -/
  lockRefused : Vector Nat 9 := Vector.replicate 9 0
  serial : List Byte := Config.serial
  /-- the provisioning key in fuses (R448) -/
  provKey : List Byte := Config.provisioningKey
  /-- VBAT is in range (R450, R518) -/
  vbat : Bool := true
  deriving DecidableEq, Repr

end Sys2Proof.Machine
end

