-- ==== Sys2Proof/Machine/Types/Selvedge.lean ====
section
/-!
DEFINITION. State of the selvedge: barrier, mailboxes, mirror, interrupts and bulk transfers (chapter 14).
-/
namespace Sys2Proof.Machine

/-- States of a mailbox (R392 to R395, R410). -/
inductive MbState where
  | idle | busy | done | failed
  deriving DecidableEq, Repr

/-- A host mailbox (R391, R410). -/
structure Mailbox where
  state : MbState := .idle
  cause : BitVec 3 := 0
  lost : Bool := false
  dropped : Bool := false
  hostTag : BitVec 16 := 0
  respLen : BitVec 13 := 0
  req : Cells Byte := []
  resp : Cells Byte := []
  /-- crossing number of the latest request (R392) -/
  crossing : BitVec 16 := 0
  /-- the selvedge's own copy of the request taken (R392) -/
  staged : List Byte := []
  /-- when the request was taken, or failed -/
  since : Time := 0
  deriving DecidableEq, Repr

/-- The role of a barrier channel (R381, R384). -/
inductive BarRole where
  | bulk | msg | spare | out
  deriving DecidableEq, Repr

/-- A barrier channel of one direction (R381 to R385). -/
structure BarCh where
  failed : Bool := false
  role : BarRole := .out
  /-- the seq its receiver expects next -/
  seq : BitVec 8 := 0
  /-- the seq that a REPLAY named and that has not come yet -/
  asked : Option (BitVec 8) := none
  /-- times of recent CRC errors on this channel (R384) -/
  errors : List Time := []
  /-- frames sent and not acknowledged, oldest first (R383) -/
  replay : List Frame := []
  deriving DecidableEq, Repr

/-- A scatter-list entry (R402). -/
structure Scatter where
  addr : BitVec 64
  bytes : Nat
  deriving DecidableEq, Repr

/-- A bulk transfer (R401 to R406). -/
structure Bulk where
  toDevice : Bool
  grant : Nat
  base : Nat
  offset : Nat
  total : Nat
  done : Nat := 0
  listAddr : Nat
  entries : Nat
  /-- the scatter entry under way and the bytes of it already moved -/
  entry : Option Scatter := none
  entryDone : Nat := 0
  entryIndex : Nat := 0
  started : Bool := false
  crossing : BitVec 16
  reqHeader : List Byte
  arrived : Time
  retries : Nat := 0
  retryAt : Option Time := none
  ended : Bool := false
  deriving DecidableEq, Repr

/-- The SLV_ block and what stands behind it (R379 to R410). -/
structure SlvState where
  barrierUp : Bool := false
  computePower : Bool := false
  distaffAlive : Bool := false
  mirrorValid : Bool := false
  event : BitVec 5 := 0
  eventEn : BitVec 5 := 0
  errLimit : BitVec 8 := 0x10
  tx : Vector BarCh 20 := Vector.replicate 20 {}
  rx : Vector BarCh 20 := Vector.replicate 20 {}
  repairs : Word := 0
  crc : Word := 0
  timeoutMs : BitVec 16 := 0x07D0
  staleMs : BitVec 8 := 0x32
  /-- mirror bytes 0x008 to 0x02F (R399) -/
  mirror : List Byte := List.replicate 40 0
  mirrorSeq : Word := 0
  mirrorAt : Time := 0
  bulkIn : Word := 0
  bulkOut : Word := 0
  /-- bytes moved beyond the whole 64 KiB units counted -/
  bulkInPart : Nat := 0
  bulkOutPart : Nat := 0
  /-- what the latest piece wrote to host memory: host address and bytes, in order (the model's own field) -/
  hostPosts : List (BitVec 64 × List Byte) := []
  badAccess : Bool := false
  lateResp : Word := 0
  mb : Vector Mailbox 8 := Vector.replicate 8 {}
  bulk : Vector (Option Bulk) 8 := Vector.replicate 8 none
  /-- MSI-X table entries: address, data, mask (R397) -/
  msix : Vector (BitVec 64 × Word × Bool) 64 := Vector.replicate 64 (0, 0, true)
  pba : BitVec 64 := 0
  /-- MSI-X is off, or its function mask set: as PCI Express resets it (R386, R397; PRESUMED, log 139) -/
  fnMask : Bool := true
  /-- interrupt messages sent to the host, per vector -/
  posted : Vector Nat 64 := Vector.replicate 64 0
  d3hot : Bool := false
  linkUp : Bool := false
  perst : Bool := false
  /-- a training of the barrier is due: PERST_N rose, the compute side's supply came up, or a full device reset ended (R385) -/
  trainDue : Bool := true
  /-- what the latest host read of BAR0 returned (the model's own field) -/
  hostRead : List Byte := []
  deriving DecidableEq, Repr

end Sys2Proof.Machine
end

