-- ==== Sys2Proof/Machine/State.lean ====
section
/-!
DEFINITION. The state of the YK-4128: every register block, memory and queue of the spec as plain data, the queue of
waiting commands, and the state after reset.
-/
namespace Sys2Proof.Machine

/-- Why the machine stops with a fault. What the spec calls a fault of the device is a command's effect on State and
no constructor here. -/
inductive Fault where
  /-- A register access at an address that the register index does not define (R15, R535). Raised by REGISTER_WRITE.
  Safe: no state follows. -/
  | undefinedAddress
  deriving DecidableEq, Repr

/-- Why a command has no next state. -/
inductive Refusal where
  /-- A command whose meaning is not written yet. Raised by exec's arms alone. Safe. -/
  | notModelled (mnemonic : String)
  /-- A write of 1 to a reserved bit: R15 gives it no defined result. Raised by REGISTER_WRITE and BAR0_ACCESS. Safe: no
  state follows. -/
  | reservedBit
  /-- The tick counter would wrap: R22 defines no behaviour. Raised by TICK_EDGE. Safe. -/
  | tickWrap
  deriving DecidableEq, Repr

/-- The whole machine. -/
structure State where
  /-- commands that wait, first in, first out -/
  pending : List Instr
  /-- time since power-up, in units of 1/17 ns -/
  now : Time
  /-- index of the next free value (the model's own field) -/
  fresh : Nat
  /-- this device's rank and the size of its system (R32) -/
  rank : BitVec 16
  devices : Nat
  /-- D_tick and L_hop of the system, in links and ns (R42) -/
  dTick : Nat
  lHop : Nat
  tick : Tick
  step : Step
  dist : Distaff
  spindles : Vector SpindleState 128
  skeins : Vector SkeinState 16
  dies : Vector DieState 4
  edges : Vector Edge 4
  /-- packets on the weft, oldest first -/
  flight : List Packet
  streams : List McStream
  /-- device memory: bytes of the HBM and DDR5 windows by device address -/
  mem : List Host.Cell
  /-- poisoned 256-byte lines, by address div 256, rising -/
  poison : List Nat
  hbm : Vector CtlState 12
  ddr : Vector CtlState 12
  links : Vector LinkState 96
  fabric : Vector FabDie 4
  cfg : CfgState
  slv : SlvState
  sec : SecState
  pwr : PwrState
  flt : FaultState
  /-- flash: bytes by offset; an unlisted byte is erased, 0xFF -/
  flash : Cells Byte
  /-- the device's statistics table (R116) -/
  stats : List StatRec
  deriving DecidableEq, Repr

/-- The machine right after reset: every register at the reset value its map states, every memory at its default,
no command waiting (log entries name the values the spec leaves open). -/
def State.reset : State where
  pending := []
  now := 0
  fresh := 0
  rank := Config.rank
  devices := Config.devices
  dTick := Config.dTick
  lHop := Config.lHop
  tick := {}
  step := {}
  dist := {}
  spindles := Vector.replicate 128 {}
  skeins := Vector.replicate 16 {}
  dies := Vector.replicate 4 {}
  edges := Vector.replicate 4 {}
  flight := []
  streams := []
  mem := []
  poison := []
  hbm := Vector.replicate 12 {}
  ddr := Vector.replicate 12 {}
  links := Vector.replicate 96 {}
  fabric := Vector.replicate 4 {}
  cfg := {}
  slv := {}
  sec := {}
  pwr := {}
  flt := {}
  flash := []
  stats := []

/-- The outcome of a command. -/
abbrev Out := Host.Outcome State Fault Refusal

end Sys2Proof.Machine
end

