-- ==== Sys2Proof/Machine/Codes.lean ====
section
/-!
DEFINITION. The status codes that the chapters define (R20, R21), and a cause that the spec does not name.
-/
namespace Sys2Proof.Machine

/-- Runs of defined codes: the first and the last of each (R20, R21; the tables of every chapter). -/
def codeRuns : List (Nat × Nat) :=
  [(0x0101, 0x0107), (0x0201, 0x020D), (0x0211, 0x0215), (0x0220, 0x0220), (0x0222, 0x0227), (0x0230, 0x0231), (0x0240, 0x0245),
   (0x0250, 0x0251), (0x0301, 0x0307), (0x0310, 0x0314), (0x0401, 0x0407), (0x0410, 0x0411), (0x0420, 0x0423), (0x0481, 0x0485),
   (0x0487, 0x0488), (0x0501, 0x050C), (0x0601, 0x0606), (0x0641, 0x0650), (0x0701, 0x070F), (0x0711, 0x0712)] ++
  [(0x0801, 0x080A), (0x0810, 0x0815), (0x0820, 0x0821), (0x0830, 0x0831), (0x0844, 0x0848), (0x0851, 0x0858), (0x0860, 0x0860),
   (0x0901, 0x0905), (0x0910, 0x0914), (0x0981, 0x0987), (0x0989, 0x0989)]

/-- Every defined code but OK. -/
def definedCodes : List Code :=
  codeRuns.flatMap (fun r => (List.range (r.2 + 1 - r.1)).map (fun i => BitVec.ofNat 16 (r.1 + i)))

/-- A defined code of no stated value, by the index of its occurrence: the cause of an overrun that no rule names (R21, R42; log 56). -/
def freeCause (i : Nat) : Code := definedCodes.getD ((Config.freeWord i).toNat % definedCodes.length) 0x0912

/-- A cause that forbids a re-run of its step: a numeric fault or SKN_PINNED_LOST (R113, R207, R430). -/
def forbidsRerun (c : Code) : Bool := (0x0301#16).ule c && c.ule 0x0307#16 || (0x0311#16).ule c && c.ule 0x0314#16 || c == 0x0914

/-- A read met poison (R260, R261). -/
def isPoison (c : Code) : Bool := c == 0x0401 || c == 0x0402

end Sys2Proof.Machine
end

