-- ==== Sys2Proof/Machine/Route.lean ====
section
/-!
DEFINITION. The fixed routes of the weft: the nodes that a packet passes between two endpoints (R217 to R219).
-/
namespace Sys2Proof.Machine

/-- A node of the weft, or a die-to-die edge in the order 0-1, 2-3, 0-2, 1-3 (R217). -/
inductive WeftNode where
  | mesh (d : Die) (x y : Nat) | creel (d : Die) (x : Nat) | crossbar (d : Die) | ring (d : Die) (i : Nat) | edge (e : Fin 4)
  deriving DecidableEq, Repr

/-- Mesh coordinates of the spindle at a local number (R218). -/
def meshAt (loc : Nat) : Nat × Nat := (2 * (loc / 8) + loc % 8 % 2, 3 - loc % 8 / 2)

/-- The numbers from one to another, both included, rising or falling. -/
def span (a b : Nat) : List Nat := (List.range (max a b - min a b + 1)).map (fun k => if a ≤ b then a + k else a - k)

/-- The routers of the mesh from one to another, X first, then Y (R219). -/
def meshPath (d : Die) (a b : Nat × Nat) : List WeftNode :=
  (span a.1 b.1).map (fun x => .mesh d x a.2) ++ ((span a.2 b.2).drop 1).map (fun y => .mesh d b.1 y)

/-- The ring routers from F_i to F0 or F8, whichever is fewer hops away, F0 on a tie (R219). -/
def ringPath (d : Die) (i : Nat) : List WeftNode :=
  let down := min i (16 - i)
  let far := max i 8 - min i 8
  if far < down then (span i 8).map (.ring d) else if i ≤ 8 then (span i 0).map (.ring d) else (span i 16).map (fun k => .ring d (k % 16))

/-- The row edge of a die (R218). -/
def rowEdge (d : Die) : Fin 4 := if d.val < 2 then 0 else 1
/-- The column edge of a die (R218). -/
def colEdge (d : Die) : Fin 4 := if d.val % 2 = 0 then 2 else 3

/-- From the crossbar of a die to that of another: the row edge first where one is needed, then the column edge (R218, R219). -/
def dieRoute (a b : Die) : List WeftNode :=
  let mid : Die := if a.val % 2 = b.val % 2 then a else ⟨a.val / 2 * 2 + b.val % 2, by omega⟩
  [.crossbar a] ++ (if mid = a then [] else [.edge (rowEdge a), .crossbar mid]) ++
  (if mid = b then [] else [.edge (colEdge mid), .crossbar b])

/-- The nodes between an endpoint and its crossbar, from the endpoint on (R217, R219). -/
def ascent (e : Endpoint) : List WeftNode :=
  let n := e.loc.toNat
  if n < 32 then [.mesh e.die (meshAt n).1 (meshAt n).2, .creel e.die (meshAt n).1]
  else if 42 ≤ n ∧ n < 50 then [.creel e.die (n - 42)]
  else if 64 ≤ n ∧ n < 80 then ringPath e.die (n - 64)
  else []

/-- The route between two endpoints (R219). Toward a fabric endpoint a packet takes the ring as on the way out (DEDUCED, log 130). -/
def route (a b : Endpoint) : List WeftNode :=
  let m := a.loc.toNat
  let n := b.loc.toNat
  if a.die = b.die ∧ n < 32 ∧ m < 32 then meshPath a.die (meshAt m) (meshAt n)
  else if a.die = b.die ∧ n < 32 ∧ 64 ≤ m ∧ m < 80 then .ring a.die (m - 64) :: meshPath a.die ((m - 64) / 2, 3) (meshAt n)
  else ascent a ++ dieRoute a.die b.die ++ (ascent b).reverse

/-- The dies that a route passes. -/
def WeftNode.onDie (d : Die) : WeftNode → Bool
  | .mesh e _ _ | .creel e _ | .crossbar e | .ring e _ => e == d
  | .edge _ => false

/-- A router of a die's mesh, or a creel router. -/
def WeftNode.inMesh (d : Die) : WeftNode → Bool
  | .mesh e _ _ | .creel e _ => e == d
  | _ => false

/-- A crossbar. -/
def WeftNode.isCrossbar : WeftNode → Bool
  | .crossbar _ => true
  | _ => false

end Sys2Proof.Machine
end

