-- ==== Sys2Proof/Machine/Ops.lean ====
section
/-!
DEFINITION. The named operations on State: element access, sparse stores, rings, vectors and reports, and raising an
ABORT (R43, R311).
-/
namespace Sys2Proof.Machine

/-- Change one element of a vector. -/
def vmod {α : Type} {n : Nat} (v : Vector α n) (i : Fin n) (f : α → α) : Vector α n :=
  v.set i.val (f v[i.val]) i.isLt

/-- Change every element of a vector, given its index. -/
def vall {α β : Type} {n : Nat} (v : Vector α n) (f : Fin n → α → β) : Vector β n :=
  Vector.ofFn (fun i => f i v[i.val])

/-- Change one spindle. -/
def State.modSp (s : State) (i : Spindle) (f : SpindleState → SpindleState) : State :=
  { s with spindles := vmod s.spindles i f }
/-- Change one skein. -/
def State.modSk (s : State) (k : Skein) (f : SkeinState → SkeinState) : State :=
  { s with skeins := vmod s.skeins k f }
/-- Change one die's weft and creel. -/
def State.modDie (s : State) (d : Die) (f : DieState → DieState) : State :=
  { s with dies := vmod s.dies d f }
/-- Change one link. -/
def State.modLink (s : State) (l : Link) (f : LinkState → LinkState) : State :=
  { s with links := vmod s.links l f }
/-- Change one die's logic fabric. -/
def State.modFab (s : State) (d : Die) (f : FabDie → FabDie) : State :=
  { s with fabric := vmod s.fabric d f }
/-- A memory controller. -/
def State.ctl (s : State) (c : Ctl) : CtlState :=
  match c.tier with
  | .hbm => s.hbm[c.n]
  | .ddr => s.ddr[c.n]
/-- Change one memory controller. -/
def State.modCtl (s : State) (c : Ctl) (f : CtlState → CtlState) : State :=
  match c.tier with
  | .hbm => { s with hbm := vmod s.hbm c.n f }
  | .ddr => { s with ddr := vmod s.ddr c.n f }

/-- Skein of a spindle (R3). -/
def skeinOf (i : Spindle) : Skein := ⟨i.val / 8, by omega⟩
/-- Lane of a spindle in its skein (R3). -/
def laneOf (i : Spindle) : Fin 8 := ⟨i.val % 8, by omega⟩
/-- Die of a spindle (R3). -/
def dieOf (i : Spindle) : Die := ⟨i.val / 32, by omega⟩
/-- Lane L of skein k (R3). -/
def spindleOf (k : Skein) (l : Fin 8) : Spindle := ⟨8 * k.val + l.val, by omega⟩
/-- Die of a skein (R3). -/
def dieOfSkein (k : Skein) : Die := ⟨k.val / 4, by omega⟩
/-- Skein of a device channel (R272). -/
def chanSkein (c : Chan) : Skein := ⟨c.val / 4, by omega⟩
/-- Channel number within its skein (R272). -/
def chanIdx (c : Chan) : Fin 4 := ⟨c.val % 4, by omega⟩
/-- Device channel 4k + c (R272). -/
def chanOf (k : Skein) (c : Fin 4) : Chan := ⟨4 * k.val + c.val, by omega⟩
/-- Die of a warp link (R6). -/
def linkDie (l : Link) : Die := ⟨l.val / 24, by omega⟩
/-- Skein whose DMA block serves a link (R313). -/
def linkSkein (l : Link) : Skein := ⟨4 * (l.val / 24) + l.val % 24 / 6, by omega⟩
/-- Die of a controller (R6). -/
def ctlDie (c : Ctl) : Die := ⟨c.n.val / 3, by omega⟩
/-- The spindles beside the fabric (R5). -/
def isIngest (i : Spindle) : Bool := i.val % 32 < 2
/-- A fabric endpoint as a weft endpoint (R221). -/
def fabEndpoint (d : Die) (e : Fin 16) : Endpoint := ⟨d, BitVec.ofNat 7 (64 + e.val)⟩
/-- A spindle as a weft endpoint (R221). -/
def spindleEndpoint (i : Spindle) : Endpoint := ⟨dieOf i, BitVec.ofNat 7 (i.val % 32)⟩
/-- A skein DMA block as a weft endpoint (R221, R272). -/
def dmaEndpoint (k : Skein) : Endpoint := ⟨dieOfSkein k, BitVec.ofNat 7 (32 + k.val % 4)⟩
/-- A memory controller as a weft endpoint (R221). -/
def ctlEndpoint (c : Ctl) : Endpoint :=
  ⟨ctlDie c, BitVec.ofNat 7 ((match c.tier with | .hbm => 36 | .ddr => 39) + c.n.val % 3)⟩
/-- A creel slice as a weft endpoint (R221). -/
def sliceEndpoint (d : Die) (x : Fin 8) : Endpoint := ⟨d, BitVec.ofNat 7 (42 + x.val)⟩

/-- Read a sparse store with default `d`. -/
def Cells.get {α : Type} (d : α) : Cells α → Nat → α
  | [], _ => d
  | (k, v) :: r, a => if k = a then v else Cells.get d r a

/-- Write a sparse store, keeping its keys rising and no entry equal to the default. -/
def Cells.put {α : Type} [DecidableEq α] (d : α) : Cells α → Nat → α → Cells α
  | [], a, x => if x = d then [] else [(a, x)]
  | (k, v) :: r, a, x =>
    if a < k then (if x = d then (k, v) :: r else (a, x) :: (k, v) :: r)
    else if a = k then (if x = d then r else (a, x) :: r)
    else (k, v) :: Cells.put d r a x

/-- The canonical form of a sparse store: keys above `lo` and rising, no entry equal to the default. -/
def Cells.wfFrom {α : Type} [DecidableEq α] (d : α) : Nat → Cells α → Bool
  | _, [] => true
  | lo, (k, v) :: r => decide (lo ≤ k) && decide (v ≠ d) && Cells.wfFrom d (k + 1) r

/-- The canonical form of a sparse store. -/
def Cells.wf {α : Type} [DecidableEq α] (d : α) (c : Cells α) : Bool := Cells.wfFrom d 0 c

/-- Read `n` entries from address `a`. -/
def Cells.read {α : Type} (d : α) (c : Cells α) (a n : Nat) : List α :=
  (List.range n).map (fun i => Cells.get d c (a + i))

/-- Write a list of entries from address `a`. -/
def Cells.write {α : Type} [DecidableEq α] (d : α) (c : Cells α) (a : Nat) : List α → Cells α
  | [] => c
  | x :: xs => Cells.write d (Cells.put d c a x) (a + 1) xs

/-- What an unlisted byte of device memory reads as. DESIGN CHOICE (log 2). -/
def memDefault : Byte := 0

/-- Read device memory by device address. -/
def State.memRead (s : State) (a n : Nat) : List Byte := Cells.read memDefault s.mem a n

/-- Write device memory by device address. -/
def State.memWrite (s : State) (a : Nat) (bs : List Byte) : State :=
  { s with mem := Cells.write memDefault s.mem a bs }

/-- The canonical form of device memory. -/
abbrev Memory.wf (m : List Host.Cell) : Bool := Cells.wf memDefault m

/-- The 256-byte lines that a range touches. -/
def linesOf (a n : Nat) : List Nat :=
  if n = 0 then [] else (List.range ((a + n - 1) / 256 - a / 256 + 1)).map (· + a / 256)

/-- Insert a line into the rising list of poisoned lines. -/
def poisonLine (l : Nat) : List Nat → List Nat
  | [] => [l]
  | x :: xs => if l < x then l :: x :: xs else if l = x then x :: xs else x :: poisonLine l xs

/-- Some line of the range is poisoned (R260). -/
def State.poisoned (s : State) (a n : Nat) : Bool := (linesOf a n).any (s.poison.contains ·)

/-- Raise an MSI-X vector: post its message, or set its pending bit where the entry or the function is masked, in D3hot, and
while the host link is down (R388, R397, R408). -/
def State.raiseVector (s : State) (v : Fin 64) : State :=
  let e := s.slv.msix[v]
  if e.2.2 || s.slv.fnMask || s.slv.d3hot || !s.slv.linkUp then
    { s with slv := { s.slv with pba := s.slv.pba ||| (1#64 <<< v.val) } }
  else
    { s with slv := { s.slv with posted := vmod s.slv.posted v (· + 1) } }

/-- A bit of SLV_EVENT becomes 1; vector 8 follows while its enable bit is 1 (R397, R410). -/
def State.slvEvent (s : State) (b : Fin 5) : State :=
  let m : BitVec 5 := 1#5 <<< b.val
  if s.slv.event &&& m = 0 then
    let s := { s with slv := { s.slv with event := s.slv.event ||| m } }
    if s.slv.eventEn &&& m = 0 then s else s.raiseVector 8
  else s

/-- Record a fault report: the mirror's last_fault changes and vector 34 is raised (R399, R432). -/
def State.report (s : State) (c : Code) : State :=
  ({ s with flt := { s.flt with lastFault := c, faultReports := s.flt.faultReports + 1 } }).raiseVector 34

/-- Take a free value's index. -/
def State.nextFree (s : State) : State := { s with fresh := s.fresh + 1 }

/-- `n` bytes of no defined content, each a free value. -/
def freeBytes (i n : Nat) : List Byte := (List.range n).map (fun j => Config.freeByte (i + j))

/-- Put a packet on the weft. -/
def State.send (s : State) (p : Packet) : State := { s with flight := s.flight ++ [{ p with sentAt := s.now }] }

/-- Every die-to-die edge on the route between two endpoints is up; a packet that must cross one that is down waits (R219, R482). -/
def State.routeUp (s : State) (a b : Endpoint) : Bool :=
  (route a b).all (fun n => match n with | .edge e => (s.edges[e]).up | _ => true)

/-- The oldest packet in flight that satisfies a test and can reach its destination, with the state that it has left (R224). -/
def State.takePacket (s : State) (p : Packet → Bool) : Option (Packet × State) :=
  if s.pwr.thermtripLow then none
  else match takeFirst (fun x => p x && s.routeUp x.src x.dst) s.flight with
    | some (x, rest) => some (x, { s with flight := rest })
    | none => none

/-- The longest sliver latency of a die, in sc (R242). -/
def State.sliverSeen (s : State) (p : Packet) : State :=
  if p.vc = 1 then
    s.modDie p.dst.die (fun x => { x with
      sliverMax := if x.sliverMax.toNat < (s.now - p.sentAt) / 10 then satAdd 16 0 ((s.now - p.sentAt) / 10) else x.sliverMax })
  else s

/-- Take the next packet between two endpoints on a channel: the oldest one arrives first, so it must be of the kind (R224). -/
def State.arrive (s : State) (k : PacketKind) (src dst : Endpoint) (vc : BitVec 2) : Option (Packet × State) :=
  match s.takePacket (fun p => p.kind != .mcast && p.src == src && p.dst == dst && p.vc == vc) with
  | none => none
  | some (p, t) => if p.kind == k then some (p, t.sliverSeen p) else none

/-- After a thermal trip no clock of the compute dies runs, and nothing of them happens (R523). -/
def State.clocked (s : State) (r : Out) : Out := if s.pwr.thermtripLow then .next s else r

/-- The answer to a request: a response or acknowledgement back to its source, on the response channel (R221, R222). -/
def Packet.answer (p : Packet) (k : PacketKind) (status : Code) (data : List Byte) (poison : Bool) : Packet :=
  { kind := k, src := p.dst, dst := p.src, vc := 2, owner := p.owner, tag := p.tag, addr := p.addr, bytes := p.bytes,
    data := data, status := status, poison := poison }

/-- The payload of an ABORT flit (R311). -/
def abortPayload (tick : BitVec 48) (origin : BitVec 16) (cause : Code) (hops : Nat) : List Byte :=
  leBytes 6 tick.toNat ++ leBytes 2 origin.toNat ++ leBytes 2 cause.toNat ++ leBytes 2 hops ++ List.replicate 228 0

/-- Queue an ABORT on every link that is up, but for `except` (R311). -/
def State.sendAbort (s : State) (except : Option Link) (p : List Byte) : State :=
  { s with links := vall s.links (fun i l =>
      if l.phase == .up && some i != except then { l with aborts := l.aborts ++ [p] } else l) }

/-- Record a cause of the step in progress: the first one (R43), and the first that forbids a re-run or that is poison (R113, R261). -/
def Step.note (st : Step) (origin : BitVec 16) (c : Cause) : Step :=
  let st := if st.cause = 0 then
      { st with cause := c.code, origin := origin, unit := c.unit, aux0 := c.aux0, aux1 := c.aux1, addr := c.addr,
                resume := c.resume }
    else st
  { st with
    final := if st.final.isNone && forbidsRerun c.code then some c else st.final
    poisoned := if st.poisoned.isNone && isPoison c.code then some c else st.poisoned }

/-- Return a ring position filled and unfreed; a channel that popped it pops it again (R212, R283). -/
def Ring.unhold (r : Ring) (p : Nat) : Ring := { r with held := r.held.erase p, nextTake := min r.nextTake p }
/-- Free a ring position (R209, R211). -/
def Ring.free (r : Ring) (p : Nat) : Ring :=
  { r with held := r.held.erase p, filled := r.filled.filter (·.1 ≠ p), done := p :: r.done }
/-- Fill a ring position with a handle and publish it (R211). -/
def Ring.fill (r : Ring) (p : Nat) (h : Word) : Ring := { r with filled := r.filled ++ [(p, h)] }

/-- Position p may be filled: position p - 64 has been freed (R209). -/
def Ring.space (r : Ring) (p : Nat) : Bool := decide (p < 64) || r.done.contains (p - 64)
/-- The handle at a filled position that nobody holds. -/
def Ring.handleAt (r : Ring) (p : Nat) : Option Word := (r.filled.find? (fun x => x.1 == p)).map (·.2)

/-- Change a ring of a skein. -/
def SkeinState.modRing (x : SkeinState) (r : Nat) (f : Ring → Ring) : SkeinState :=
  if h : r < 32 then { x with rings := vmod x.rings ⟨r, h⟩ f } else x
/-- A ring of a skein; past the last one, an unwired ring. -/
def SkeinState.ring (x : SkeinState) (r : Nat) : Ring := if h : r < 32 then x.rings[r] else {}

/-- Return a held position of skein k to its ring (R212). -/
def State.unholdPos (s : State) (k : Skein) (h : HeldPos) : State :=
  s.modSk k (·.modRing h.ring (·.unhold h.pos))

/-- The next list of a channel starts: one that was parked, else the queued one (R273, R287). -/
def Channel.advance (c : Channel) : Channel :=
  match c.parked with
  | r :: rest => { c with run := some r, parked := rest }
  | [] => { c with run := c.queued.map (fun q => { q with serial := c.serial + 1 })
                   serial := if c.queued.isSome then c.serial + 1 else c.serial, queued := none }

/-- A channel that has stopped lets its list go, unposted pushes and all, and its next list starts (R273, R290). -/
def Channel.letGo (c : Channel) : Channel :=
  let mine := fun (p : Nat × Nat × Word) => c.run.any (fun r => p.1 / 4096 == r.serial)
  { c with stopping := false, halting := false, retryAt := none, doneAt := none, pushDue := c.pushDue.filter (fun p => !mine p) }.advance

/-- The first unit of a run that has issued no read: where a stopping list stops (R290). -/
def DmaRun.boundary (r : DmaRun) : Nat := if r.piece = 0 && r.elem = 0 then r.unit else r.unit + 1

/-- A stopping list has stopped: it stands at its unit boundary or has failed, and its requests have finished (R290). -/
def Channel.stopped (c : Channel) : Bool :=
  c.reads.isEmpty && c.writes.isEmpty && c.run.all (fun r => r.fail.isSome || decide (c.stopAt ≤ r.wUnit))

/-- Stop the lists of a channel that satisfy a test: one that waits drops, the running one stops at its next unit boundary and posts no push
(R290). -/
def Channel.stopIf (c : Channel) (mine : DmaRun → Bool) : Channel :=
  let c := { c with queued := c.queued.filter (fun r => !mine r), parked := c.parked.filter (fun r => !mine r)
                    past := c.past.map (fun (r : DmaRun) => { r with gone := r.gone || mine r }) }
  match c.run with
  | none => c
  | some r =>
    if c.stopping || !mine r then c
    else
      let c := { c with stopping := true, stopAt := r.boundary, retryAt := none
                        pushDue := c.pushDue.filter (fun p => p.1 / 4096 != r.serial) }
      if c.stopped then c.letGo else c

/-- Stop the lists of a skein's channels that satisfy a test, returning the pop positions of those that go at once (R283, R290). -/
def SkeinState.stopLists (x : SkeinState) (mine : DmaRun → Bool) : SkeinState :=
  let back := x.channels.toList.filterMap (fun c =>
    let r := c.run.filter mine
    if { c with stopAt := (r.map DmaRun.boundary).getD 0 }.stopped && !c.stopping then r.bind (·.held) else none)
  let x := back.foldl (fun x h => x.modRing h.ring (·.unhold h.pos)) x
  { x with channels := x.channels.map (·.stopIf mine) }

/-- Stop every channel of a skein (R290). -/
def SkeinState.stopChannels (x : SkeinState) : SkeinState := x.stopLists (fun _ => true)

/-- A channel has a list to finish: running, queued, parked or retrying (R285). -/
def Channel.busy (c : Channel) : Bool := c.run.isSome || c.queued.isSome || !c.parked.isEmpty || c.halting

/-- The vector engine on abandon pre-emption: issue stops, outstanding writes retire, the loop state clears (R187). -/
def Vec.abandon (v : Vec) : Vec :=
  { v with running := false, inHandler := false, stopped := false, loops := [], frozen := 0, holdAt := none,
           pending := 0, buffer := [], window := 0, waits := false, loopLoad := none }

/-- Latch a pre-emption request: with no pass in the grid it is taken in the next cycle (R78). -/
def SpindleState.reqPreempt (x : SpindleState) (k : Preempt) (now : Time) : SpindleState :=
  { x with preemptPending := some k, stopReqAt := now, takeAt := now + Time.sc 1 }

/-- Drop passes of the queue, of the grid and of those armed; the ring positions that they hold return to their rings (R78, R157,
R212). -/
def State.dropPasses (s : State) (i : Spindle) (p : Pass → Bool) : State :=
  let x := s.spindles[i]
  let back := ((x.passes ++ x.armed).filter p).filterMap (·.held)
  let s := s.modSp i (fun x => { x with passes := x.passes.filter (fun q => !p q), armed := x.armed.filter (fun q => !p q) })
  back.foldl (fun s h => s.unholdPos (skeinOf i) h) s

/-- Request abandon pre-emption of a spindle: passes that have not started and armed passes drop, and the engine stops (R78, R187). -/
def State.abandon (s : State) (i : Spindle) : State :=
  if (s.spindles[i]).preemptPending == some .abandon then s
  else (s.dropPasses i (fun p => p.startedAt.isNone)).modSp i (fun x => { x.reqPreempt .abandon s.now with vec := x.vec.abandon })

/-- Every spindle that runs in the step, in index order (R540). -/
def State.runningSpindles (s : State) : List Spindle := (List.finRange 128).filter (fun i => (s.spindles[i]).seq.runs)

/-- Stop the step's work: every spindle that runs is abandoned, one at STEPEND too, and every channel stops (R78, R290). -/
def State.stopStep (s : State) : State :=
  let s := s.runningSpindles.foldl State.abandon s
  { s with skeins := s.skeins.map SkeinState.stopChannels }

/-- A step is open to causes: it has begun and its drain has not ended (R43). -/
def State.stepOpen (s : State) : Bool :=
  match s.step.phase with
  | .window | .drain => true
  | _ => false

/-- Raise an ABORT for a cause found now (R43): at or before H_d it counts against the step in progress, which stops;
after H_d it counts against the step to come, which the ABORT names. -/
def State.abort (s : State) (c : Cause) : State :=
  if s.stepOpen then
    let st := s.step.note s.rank c
    let seen := (s.step.tick, s.rank)
    if s.step.seen.contains seen then { s with step := { st with faulted := true } }
    else
      let s := { s with step := { st with faulted := true, seen := seen :: st.seen } }
      (s.sendAbort none (abortPayload s.step.tick s.rank c.code 0)).stopStep
  else if s.step.nextCause.any (fun c => c.1 == s.tick.count) then s
  else
    let s := { s with step := { s.step with nextCause := some (s.tick.count, c.code, s.rank) } }
    s.sendAbort none (abortPayload s.tick.count s.rank c.code 0)

/-- Raise an ABORT with a code and a unit. -/
def State.abortCode (s : State) (code : Code) (unit : Nat) : State :=
  s.abort { code := code, unit := BitVec.ofNat 16 unit }

/-- Mark the step overrun and raise its ABORT (R42, R43). -/
def State.overrun (s : State) (c : Cause) : State :=
  let s := s.abort c
  { s with step := { s.step with overrun := true } }

end Sys2Proof.Machine
end

