-- ==== Sys2Proof/Machine/Address.lean ====
section
/-!
DEFINITION. The device address map: where an address decodes to, the interleave of memory, creel windows (R221, R233,
R249, R250, R526 to R531).
-/
namespace Sys2Proof.Machine

/-- What a device address names. -/
inductive Target where
  | memory (c : Ctl) (pc : Nat) (r : Fin 4) (loc : Nat)
  | spindle (i : Spindle) (off : Nat)
  | fabric (d : Die) (e : Fin 16) (off : Nat)
  | nowhere
  deriving DecidableEq, Repr

/-- The memories behind the offsets of a spindle window (R528). -/
inductive Place where
  | scratch (o : Nat) | epilogue (o : Nat) | staging | accum (o : Nat) | nowhere
  deriving DecidableEq, Repr

/-- Where an offset in a spindle window leads (R528). -/
def placeOf (o : Nat) : Place :=
  if o < 0x600000 then .scratch o
  else if o < 0x63A000 then .epilogue (o - 0x600000)
  else if o < 0x640000 then .staging
  else if 0x800000 ≤ o ∧ o < 0xA00000 then .accum (o - 0x800000)
  else .nowhere

/-- The members of a region in ascending order (R249). -/
def MapRegion.memberList (r : MapRegion) : List (Fin 12) := (List.finRange 12).filter (fun i => r.members.getLsbD i.val)

/-- The rank indices of a region in ascending order. -/
def MapRegion.rankList (r : MapRegion) : List (Fin 4) := (List.finRange 4).filter (fun i => r.ranks.getLsbD i.val)

/-- A controller of a tier. -/
def ctlOf (t : Tier) (n : Fin 12) : Ctl := ⟨t, n⟩

/-- Bytes of a rank that one interleave target holds (R250). -/
def State.rankBytes (s : State) (t : Tier) (n : Fin 12) : Nat :=
  match t with
  | .hbm => 2 ^ 28
  | .ddr => (s.ddr[n]).rankGib.toNat * 2 ^ 30

/-- Interleave targets of a region: pseudo-channels of HBM stacks, or DDR5 channels (R250). -/
def MapRegion.targets (r : MapRegion) : Nat :=
  match r.tier with
  | .hbm => 64 * r.memberList.length
  | .ddr => r.memberList.length

/-- The target, pseudo-channel, rank and local offset of an address inside a region (R250). -/
def State.memTarget (s : State) (r : MapRegion) (a : Nat) : Target :=
  let off := a - r.base
  let g := 2 ^ (8 + r.g)
  let n := r.targets
  let chunk := off / g
  let t := chunk % n
  let loc := chunk / n * g + off % g
  let ms := r.memberList
  let (mi, pc) := match r.tier with
    | .hbm => (t % ms.length, t / ms.length)
    | .ddr => (t, 0)
  match ms[mi]? with
  | none => .nowhere
  | some m =>
    let rb := s.rankBytes r.tier m
    match r.rankList[loc / rb]? with
    | none => .nowhere
    | some rk => .memory ⟨r.tier, m⟩ pc rk (loc % rb)

/-- The region of the map in effect that covers an address (R249). -/
def State.regionAt (s : State) (a : Nat) : Option MapRegion :=
  s.dist.map.find? (fun r => decide (r.base ≤ a ∧ a < r.base + r.size))

/-- The fabric endpoint whose inbound window covers an address in the aperture (R337, R529). -/
def State.fabricAt (s : State) (a : Nat) : Option (Die × Fin 16) :=
  ((List.finRange 4).flatMap (fun d => (List.finRange 16).map (fun e => (d, e)))).find? (fun p =>
    let ep := (s.fabric[p.1]).eps[p.2]
    decide (ep.inBase.toNat ≤ a / 65536 ∧ a / 65536 ≤ ep.inLimit.toNat))

/-- Decode a device address to its endpoint (R221, R526 to R531). -/
def State.decodeAddr (s : State) (a : Nat) : Target :=
  if a < 0xC000000000 ∨ (0x100000000000 ≤ a ∧ a < 0x180000000000) then
    match s.regionAt a with
    | some r => s.memTarget r a
    | none => .nowhere
  else if 0x200000000000 ≤ a ∧ a < 0x200080000000 then
    let o := a % 0x1000000
    if h : (a - 0x200000000000) / 0x1000000 < 128 then
      match placeOf o with
      | .nowhere => .nowhere
      | _ => .spindle ⟨(a - 0x200000000000) / 0x1000000, h⟩ o
    else .nowhere
  else if 0x280000000000 ≤ a ∧ a < 0x284000000000 then
    match s.fabricAt a with
    | some (d, e) => .fabric d e (a - ((s.fabric[d]).eps[e]).inBase.toNat * 65536)
    | none => .nowhere
  else .nowhere

/-- The endpoint of a target. -/
def Target.endpoint : Target → Option Endpoint
  | .memory c _ _ _ => some (ctlEndpoint c)
  | .spindle i _ => some (spindleEndpoint i)
  | .fabric d e _ => some (fabEndpoint d e)
  | .nowhere => none

/-- Base device address of a spindle's window (R528). -/
def spindleBase (i : Spindle) : Nat := 0x200000000000 + i.val * 0x1000000

/-- The device address of a byte of a rank that one target holds: the inverse of R250. -/
def State.rankAddr (s : State) (c : Ctl) (r : Fin 4) (pc loc : Nat) : Option Nat :=
  (s.dist.map.filter (fun g => g.tier == c.tier)).findSome? (fun g =>
    match g.memberList.findIdx? (· == c.n), g.rankList.findIdx? (· == r) with
    | some mi, some u =>
      let l := u * s.rankBytes c.tier c.n + loc
      let grain := 2 ^ (8 + g.g)
      let t := match c.tier with | .hbm => pc * g.memberList.length + mi | .ddr => mi
      some (g.base + ((l / grain) * g.targets + t) * grain + l % grain)
    | _, _ => none)

/-- The class of the creel window of die d that covers an address; 0 where none does (R234). -/
def State.creelClass (s : State) (d : Die) (a : Nat) : Nat :=
  match (s.dies[d]).wins.toList.find? (fun w =>
      decide (w.base.toNat ≤ a / 65536 ∧ a / 65536 ≤ w.limit.toNat) && w.cls != 0) with
  | some w => w.cls.toNat
  | none => 0

/-- Home slice of a line (R233). -/
def homeSlice (n : Nat) : Fin 8 :=
  ⟨((n % 8) ^^^ (n / 8 % 8) ^^^ (n / 64 % 8)) % 8, by omega⟩

/-- Set of a line within its slice (R233). -/
def creelSet (n : Nat) : Nat := bits n 19 9

/-- The spindle at a local endpoint number of a die (R221). -/
def spindleAt (e : Endpoint) : Option Spindle :=
  if h : e.loc.toNat < 32 then some ⟨32 * e.die.val + e.loc.toNat, by omega⟩ else none

/-- The skein DMA block at an endpoint. -/
def skeinAt (e : Endpoint) : Option Skein :=
  if h : 32 ≤ e.loc.toNat ∧ e.loc.toNat < 36 then some ⟨4 * e.die.val + (e.loc.toNat - 32), by omega⟩ else none

/-- The memory controller at an endpoint. -/
def ctlAt (e : Endpoint) : Option Ctl :=
  if h : 36 ≤ e.loc.toNat ∧ e.loc.toNat < 39 then some ⟨.hbm, ⟨3 * e.die.val + (e.loc.toNat - 36), by omega⟩⟩
  else if h : 39 ≤ e.loc.toNat ∧ e.loc.toNat < 42 then some ⟨.ddr, ⟨3 * e.die.val + (e.loc.toNat - 39), by omega⟩⟩
  else none

/-- The creel slice at an endpoint. -/
def sliceAt (e : Endpoint) : Option (Fin 8) :=
  if h : 42 ≤ e.loc.toNat ∧ e.loc.toNat < 50 then some ⟨e.loc.toNat - 42, by omega⟩ else none

/-- The fabric endpoint at an endpoint. -/
def fabricAtEp (e : Endpoint) : Option (Fin 16) :=
  if h : 64 ≤ e.loc.toNat ∧ e.loc.toNat < 80 then some ⟨e.loc.toNat - 64, by omega⟩ else none

end Sys2Proof.Machine
end

