-- ==== Sys2Proof/Machine/Operands.lean ====
section
/-!
DEFINITION. The memories of a spindle as its window shows them: scratchpad, epilogue buffer and the selected copy of the
accumulator, with protected bytes (R73, R75, R138, R148, R528).
-/
namespace Sys2Proof.Machine

/-- The selected copy's word at an index row × 128 + column (R73). -/
def SpindleState.accGet (x : SpindleState) (i : Nat) : Word :=
  Cells.get 0 (if x.sel.getLsbD (i / 128) then x.acc1 else x.acc0) i

/-- Write a word of the selected copy (R73). -/
def SpindleState.accPut (x : SpindleState) (i : Nat) (w : Word) : SpindleState :=
  if x.sel.getLsbD (i / 128) then { x with acc1 := Cells.put 0 x.acc1 i w }
  else { x with acc0 := Cells.put 0 x.acc0 i w }

/-- Accumulator rows touched (R68). -/
def PassDesc.rows (d : PassDesc) : Nat := if d.shape = 1 then 2 * d.m else d.m

/-- The rows of a strided range: offset and length of each. -/
def stridedRows (addr stride len n : Nat) : List (Nat × Nat) := (List.range n).map (fun i => (addr + i * stride, len))

/-- The entry has a gate stage (R141). -/
def ChainDesc.gates (c : ChainDesc) : Bool := [14, 15, 22].contains c.entry
/-- The entry gathers row statistics (R141). -/
def ChainDesc.stats (c : ChainDesc) : Bool := [9, 10, 11, 16].contains c.entry
/-- The entry quantises to an MX format (R141). -/
def ChainDesc.quantises (c : ChainDesc) : Bool := [12, 13, 15, 17].contains c.entry
/-- Columns stored per output row. -/
def ChainDesc.cols (c : ChainDesc) : Nat := if c.gates then 64 else 128
/-- Bytes of an output row. -/
def ChainDesc.outBytes (c : ChainDesc) : Nat := c.cols * storeBits c.outFormat / 8
/-- The output rows a chain writes. -/
def ChainDesc.outRows (c : ChainDesc) (n : Nat) : List (Nat × Nat) :=
  if c.dest then [] else stridedRows c.outAddr c.outStride c.outBytes n
/-- The MX scale rows a chain writes. -/
def ChainDesc.mxRows (c : ChainDesc) (n : Nat) : List (Nat × Nat) :=
  if c.quantises then stridedRows c.mxAddr c.mxStride (c.cols / 32) n else []
/-- The row-statistic area a chain writes (R150). -/
def ChainDesc.statOutRange (c : ChainDesc) (n : Nat) : List (Nat × Nat) := if c.stats then [(c.statOut, 32 + 16 * n)] else []
/-- The bytes that a chain writes: output rows, MX scale rows, row-statistic area (R148, R159). -/
def ChainDesc.written (c : ChainDesc) (n : Nat) : List (Nat × Nat) := c.outRows n ++ c.mxRows n ++ c.statOutRange n

/-- The bytes that a pass's chain writes. -/
def Pass.written (p : Pass) : List (Nat × Nat) := (p.chain.map (fun c => c.written p.desc.rows)).getD []

/-- A pass in the queue or armed is to write this byte: another agent reads no defined value there (R148). -/
def SpindleState.unsettled (x : SpindleState) (o : Nat) : Bool :=
  (x.passes ++ x.armed).any (fun p => p.written.any (fun r => decide (r.1 ≤ o) && decide (o < r.1 + r.2)))

/-- One byte at an offset of the window as an agent other than the grid reads it; an offset with no defined content gives the free byte
passed in (R138, R148). -/
def SpindleState.byte (x : SpindleState) (free : Byte) (o : Nat) : Byte :=
  if x.unsettled o then free
  else match placeOf o with
  | .scratch a => Cells.get 0 x.scratch a
  | .epilogue a => Cells.get 0 x.epilogue a
  | .accum a => ((x.accGet (a / 4)) >>> (8 * (a % 4))).setWidth 8
  | .staging => free
  | .nowhere => free

/-- Bytes of a spindle's window; `free` is the index of the first free value used for bytes of no defined content. -/
def SpindleState.readBytes (x : SpindleState) (free o n : Nat) : List Byte :=
  (List.range n).map (fun i => x.byte (Config.freeByte (free + i)) (o + i))

/-- Replace one byte of a word. -/
def setByte (w : Word) (i : Nat) (b : Byte) : Word :=
  (w &&& ~~~(0xFF#32 <<< (8 * i))) ||| (b.setWidth 32 <<< (8 * i))

/-- Write one byte at an offset; the staging bytes hold nothing (R138). -/
def SpindleState.putByte (x : SpindleState) (o : Nat) (b : Byte) : SpindleState :=
  match placeOf o with
  | .scratch a => { x with scratch := Cells.put 0 x.scratch a b }
  | .epilogue a => { x with epilogue := Cells.put 0 x.epilogue a b }
  | .accum a => x.accPut (a / 4) (setByte (x.accGet (a / 4)) (a % 4) b)
  | .staging => x
  | .nowhere => x

/-- Write bytes from an offset. -/
def SpindleState.putBytes (x : SpindleState) (o : Nat) : List Byte → SpindleState
  | [] => x
  | b :: bs => (x.putByte o b).putBytes (o + 1) bs

/-- Bytes of ranges lose their defined content: free values from index `free` on (R159). -/
def SpindleState.loosen (x : SpindleState) (free : Nat) : List (Nat × Nat) → SpindleState
  | [] => x
  | r :: rs => (x.putBytes r.1 (freeBytes free r.2)).loosen (free + r.2) rs

/-- Bytes of ranges of a spindle lose their defined content (R159). -/
def State.loosen (s : State) (i : Spindle) (rs : List (Nat × Nat)) : State :=
  { s.modSp i (·.loosen s.fresh rs) with fresh := s.fresh + (rs.map (·.2)).sum }

/-- What chains of the step wrote, when the step is discarded: no defined content (R159). -/
def State.loosenAll (s : State) : State :=
  (List.finRange 128).foldl (fun s i => if (s.spindles[i]).wrote.isEmpty then s
    else (s.loosen i (s.spindles[i]).wrote).modSp i (fun x => { x with wrote := [] })) s

/-- The 32-byte units of the scratchpad that a range touches, as offsets div 32 (R225). -/
def unitsOf (o n : Nat) : List Nat :=
  if n = 0 then [] else (List.range ((o + n - 1) / 32 - o / 32 + 1)).map (· + o / 32)

/-- Some byte of the range arrived poisoned and reads as uncorrectable (R225). -/
def SpindleState.bad (x : SpindleState) (o n : Nat) : Bool := (unitsOf o n).any (x.badBytes.contains ·)

/-- After a write of the range: its units are bad when the write carried poison, and good where it covered them. -/
def SpindleState.noteBad (x : SpindleState) (o n : Nat) (poison : Bool) : SpindleState :=
  if poison then { x with badBytes := (unitsOf o n).foldl (fun l u => poisonLine u l) x.badBytes }
  else { x with badBytes := x.badBytes.filter (fun u => !(decide (o ≤ 32 * u) && decide (32 * u + 32 ≤ o + n))) }

/-- A unit of the compute side is held in a rung, failed or unpowered (R478, R479). -/
def State.spDown (s : State) (i : Spindle) : Bool :=
  (s.spindles[i]).power != .on || s.flt.failed.getLsbD i.val || (s.skeins[skeinOf i]).inReset || s.pwr.thermtripLow

/-- The thermal level in force on a die: 15 under the emergency throttle (R85, R492, R522). -/
def State.dieLevel (s : State) (d : Die) : BitVec 4 := if s.flt.emergActive then 15 else (s.pwr.therm[d]).level

/-- How a spindle that is down answers a request: off, or in a rung or failed (R479, R489). -/
def State.spStatus (s : State) (i : Spindle) : Code := if (s.spindles[i]).power == .off then 0x0811 else 0x0804

end Sys2Proof.Machine
end

