-- ==== Sys2Proof/Machine/Pattern.lean ====
section
/-!
DEFINITION. Reading a pattern image: header, sections, staple lists, ring wiring, DMA lists, slot tables, wake windows
and region tables (R32, R33, R193, R194, R210, R256, R277, R291, R314, R423).
-/
namespace Sys2Proof.Machine

/-- A section-table entry (R33). -/
structure Section where
  index : Nat
  kind : Nat
  scope : Nat
  len : Nat
  off : Nat
  deriving DecidableEq, Repr

/-- A signed 32-bit field. -/
def sfield32 (bs : List Byte) (o : Nat) : Int := (BitVec.ofNat 32 (field bs o 4)).toInt

/-- pattern_id (R32). -/
def Image.id (im : Image) : BitVec 64 := BitVec.ofNat 64 (field im 0x08 8)
/-- The pattern seed (R32). -/
def Image.seed (im : Image) : BitVec 64 := BitVec.ofNat 64 (field im 0x10 8)
/-- min_tick_ns (R32). -/
def Image.minTick (im : Image) : Nat := field im 0x20 4
/-- commit_hold_ns (R32). -/
def Image.commitHold (im : Image) : Nat := field im 0x24 4
/-- hop_latency_ns (R32). -/
def Image.hopLatency (im : Image) : Nat := field im 0x28 4
/-- Declared energy of a die per tick, in µJ (R32). -/
def Image.energy (im : Image) (d : Die) : Nat := field im (0x38 + 4 * d.val) 4
/-- flags (R32). -/
def Image.flags (im : Image) : Nat := field im 0x4A 2
/-- numeric_mask (R32). -/
def Image.numericMask (im : Image) : Nat := field im 0x4C 4

/-- The section table (R33). -/
def Image.sections (im : Image) : List Section :=
  (List.range (field im 0x48 2)).map (fun i =>
    let o := 0x100 + 16 * i
    { index := i, kind := field im o 2, scope := field im (o + 2) 2, len := field im (o + 4) 4, off := field im (o + 8) 8 })

/-- The bytes of a section. -/
def Image.body (im : Image) (x : Section) : List Byte := sliceBytes im x.off x.len

/-- The section of a type and scope (R33). -/
def Image.find (im : Image) (kind scope : Nat) : Option (List Byte) :=
  (im.sections.find? (fun x => x.kind == kind && x.scope == scope)).map im.body

/-- A skein is active when the pattern has a staple-list section for it (R540). -/
def Image.skeinActive (im : Image) (k : Skein) : Bool := (im.find 2 k.val).isSome

/-- A spindle runs (R540). -/
def Image.spindleRuns (im : Image) (i : Spindle) : Bool := im.skeinActive (skeinOf i) || (im.find 1 i.val).isSome

/-- The words of a sequencer program section (R34). -/
def wordsOf (bs : List Byte) : List Word64 :=
  (List.range (bs.length / 8)).map (fun i => BitVec.ofNat 64 (field bs (8 * i) 8))

/-- The program of a spindle in an image. -/
def Image.prog (im : Image) (i : Nat) : List Word64 := ((im.find 1 i).map wordsOf).getD []

/-- A region-table entry (R423). -/
structure RegionEntry where
  num : Nat
  cls : Nat
  base : Nat
  bytes : Nat
  deriving DecidableEq, Repr

/-- The entries of a region table: type 0x0008 output, 0x0009 input (R423). -/
def Image.regions (im : Image) (kind : Nat) : List RegionEntry :=
  match im.find kind 0 with
  | none => []
  | some b => (List.range (field b 0 2)).map (fun i =>
      let o := 16 + 32 * i
      { num := field b o 1, cls := field b (o + 1) 1, base := field b (o + 8) 8, bytes := field b (o + 16) 8 })

/-- A staple entry of a staple-list section (R194). -/
def stapleEntry (b : List Byte) (i : Nat) : Staple :=
  let o := 0xC0 + 16 * i
  { id := BitVec.ofNat 16 (field b o 2), entry := field b (o + 2) 2, budget := field b (o + 4) 4,
    owner := ⟨field b (o + 8) 1 % 8, by omega⟩, pinned := bit (field b (o + 9) 1) 0 }

/-- The phases of a staple-list section: window and entries in order (R193). -/
def boardPhases (b : List Byte) : List (Nat × List Staple) :=
  (List.range (field b 4 2)).map (fun p =>
    let first := field b (0x40 + 8 * p) 2
    let count := field b (0x42 + 8 * p) 2
    (field b (0x44 + 8 * p) 4, (List.range count).map (fun i => { stapleEntry b (first + i) with phase := p })))

/-- A ring-wiring entry (R210). -/
def wiringEntry (b : List Byte) (i : Nat) : Nat × RingWiring :=
  let o := 32 * i
  let place := field b (o + 1) 1
  (field b o 1,
   { laneLocal := bit place 0, home := ⟨place / 2 % 8, by omega⟩, producer := field b (o + 2) 1,
     consumer := field b (o + 3) 1, src := ⟨field b (o + 4) 1 % 16, by omega⟩, preload := field b (o + 5) 1,
     bufferCount := field b (o + 6) 2, bufferBase := field b (o + 8) 8, bufferStride := field b (o + 16) 4,
     preloadUnits := field b (o + 20) 4 })

/-- The wiring of a skein's rings (R210). -/
def Image.wiring (im : Image) (k : Skein) : List (Nat × RingWiring) :=
  match im.find 3 k.val with
  | none => []
  | some b => (List.range (b.length / 32)).map (wiringEntry b)

/-- A descriptor of a DMA list section (R277). -/
def dmaDesc (b : List Byte) : DmaDesc :=
  let f := field b 1 1
  { kind := field b 0 1, barrier := bit f 0, pool := bit f 1, push := bit f 2, pop := bit f 3, mcLast := bit f 4,
    idx64 := bit f 5, srcSpace := field b 2 1 % 4, dstSpace := field b 3 1 % 4, srcRegion := field b 4 1,
    dstRegion := field b 5 1, idxSpace := field b 6 1 % 4, idxRegion := field b 7 1, srcAddr := field b 8 8,
    dstAddr := field b 0x10 8, idxAddr := field b 0x18 8, len0 := field b 0x20 4, count1 := field b 0x24 2,
    count2 := field b 0x26 2, srcStride1 := sfield32 b 0x28, dstStride1 := sfield32 b 0x2C,
    srcStride2 := sfield32 b 0x30, dstStride2 := sfield32 b 0x34, idxCount := field b 0x38 4,
    ring := field b 0x3C 1 % 32, group := field b 0x3D 1, aux := field b 0x3E 2 }

/-- Where the descriptor array of a DMA list section begins (R291). -/
def dmaArray (b : List Byte) : Nat := (0x40 + 8 * field b 4 2 + 63) / 64 * 64

/-- The lists of a DMA list section: first descriptor and count (R291). -/
def dmaLists (b : List Byte) : List (Nat × Nat) :=
  (List.range (field b 4 2)).map (fun n => (field b (0x40 + 8 * n) 2, field b (0x42 + 8 * n) 2))

/-- The descriptors of a DMA list section. -/
def dmaDescs (b : List Byte) : List DmaDesc :=
  (List.range (field b 6 2)).map (fun i => dmaDesc (sliceBytes b (dmaArray b + 64 * i) 64))

/-- The multicast groups of a DMA list section: number and mask (R291). -/
def dmaGroups (b : List Byte) : List (Nat × BitVec 128) :=
  let g := dmaArray b + 64 * field b 6 2
  (List.range (field b 8 2)).map (fun i => (field b (g + 32 * i) 1, BitVec.ofNat 128 (field b (g + 32 * i + 16) 16)))

/-- Every multicast group of the pattern. -/
def Image.groups (im : Image) : List (Nat × BitVec 128) :=
  (List.finRange 16).flatMap (fun k => match im.find 4 k.val with | none => [] | some b => dmaGroups b)

/-- A stream entry of a warp slot table (R314). -/
def streamEntry (b : List Byte) (i : Nat) : StreamEntry :=
  let o := 32 + 32 * i
  { stream := field b o 2, token := field b (o + 2) 1 == 1, ring := field b (o + 3) 1 % 32, firstSlot := field b (o + 4) 4,
    count := field b (o + 8) 4, staging := field b (o + 12) 2, expert := field b (o + 14) 2, quota := field b (o + 16) 4,
    rowBytes := field b (o + 20) 4, deferRegion := field b (o + 24) 1, deferOffset := field b (o + 28) 4 }

/-- The header of a warp slot table (R314). -/
def slotTable (b : List Byte) : SlotTable :=
  { peerRank := field b 8 2, peerLink := field b 10 1, rate := field b 11 1, slots := field b 12 4 }

/-- The transmit streams of a link in a pattern, at the start of a step; the initial credit is the receive entry's
staging at the far end, which the table gives as the entry's staging (R317). -/
def txStreams (b : List Byte) : List StreamTx :=
  (List.range (field b 4 2)).map (fun i => { e := streamEntry b i, credits := (streamEntry b i).staging })

/-- The receive streams of a link at the start of a step. -/
def rxStreams (b : List Byte) : List StreamRx :=
  (List.range (field b 6 2)).map (fun i => { e := streamEntry b (field b 4 2 + i) })

/-- A wake-window section (R256). -/
structure Wake where
  always : Bool
  demand : Nat
  windows : List (Nat × Nat)
  deriving DecidableEq, Repr

/-- Parse a wake-window section (R256). -/
def wakeOf (b : List Byte) : Wake :=
  { always := bit (field b 2 2) 0, demand := field b 8 8,
    windows := (List.range (field b 0 2)).map (fun w => (field b (0x10 + 8 * w) 4, field b (0x14 + 8 * w) 4)) }

/-- The running job (R425). -/
def State.runningJob (s : State) : Option Job := s.dist.jobs.find? (fun j => j.state == .running)

/-- The half of output region r that is current: its base and size (R40, R423). -/
def State.half (s : State) (r : Nat) (written : Bool) : Option (Nat × Nat) :=
  match s.dist.active with
  | none => none
  | some im =>
    match (im.regions 8).find? (fun g => g.num == r) with
    | none => none
    | some g =>
      let cur := match s.runningJob with
        | some j => j.commit.currentHalf.getLsbD r
        | none => false
      let b := if written then !cur else cur
      some (if b then g.base + g.bytes else g.base, g.bytes)

/-- Build a ring at the start of a step: preload handles in place (R195, R209). -/
def ringOf (w : Option RingWiring) (producers consumers : List RingShare) : Ring :=
  match w with
  | none => {}
  | some x =>
    { wiring := some x
      filled := (List.range x.preload).map (fun j => (j, BitVec.ofNat 32 (j + 2 ^ 12 * x.preloadUnits)))
      producers := producers, consumers := consumers, nextPost := x.preload }

end Sys2Proof.Machine
end

