-- ==== Sys2Proof/Machine/Pacer.lean ====
section
/-!
DEFINITION. The energy pacer of each die (R47, R89).
-/
namespace Sys2Proof.Machine

/-- The pattern's declared energy of a die for one step, in nJ (R47). -/
def State.declaredNj (s : State) (d : Die) : Nat :=
  match s.dist.active with
  | some im => im.energy d * 1000
  | none => 0

/-- Charge a bucket: a charge above its content empties it and leaves a debt (R47). -/
def Pacer.charge (p : Pacer) (nj : Nat) : Pacer :=
  if nj ≤ p.bucketNj then { p with bucketNj := p.bucketNj - nj }
  else { p with bucketNj := 0, debtNj := p.debtNj + (nj - p.bucketNj) }

/-- Refill a bucket with `nj`: never above the cap, never past the step's grant, debt first (R47). -/
def Pacer.refill (p : Pacer) (declared nj : Nat) : Pacer :=
  let give := min nj (declared - p.grantedNj)
  let paid := min give p.debtNj
  let room := min (give - paid) (declared / 16 - p.bucketNj)
  { p with grantedNj := p.grantedNj + paid + room, debtNj := p.debtNj - paid, bucketNj := p.bucketNj + room }

/-- Set a bucket at the start of a step (R47). -/
def Pacer.start (p : Pacer) (declared : Nat) : Pacer :=
  { p with bucketNj := declared / 16, grantedNj := declared / 16, debtNj := 0, fraction := 0, stallSc := 0 }

/-- The step's stall count becomes the one that TCK_PACE_STALL shows (R56). -/
def Pacer.stepDone (p : Pacer) : Pacer := { p with stallLast := p.stallSc }

/-- Charge a die's pacer. -/
def State.charge (s : State) (d : Die) (nj : Nat) : State :=
  { s with tick := { s.tick with pacer := vmod s.tick.pacer d (·.charge nj) } }

/-- H_s of R42 in ns: 2 µs plus D_tick × L_hop. -/
def State.spreadNs (s : State) : Nat := 2000 + s.dTick * s.lHop
/-- The least H_c of R42 in ns. -/
def State.holdLeast (s : State) : Nat := s.spreadNs + 2000
/-- H_d of R42 in ns. -/
def State.drainNs (s : State) : Nat := s.tick.holdNs.toNat - s.spreadNs
/-- G of R30 in ns. -/
def State.guardNs (s : State) : Nat := s.tick.holdNs.toNat + 1000

/-- Refill for one spindle cycle, E / (T - G) per unit of time, keeping the remainder (R47). -/
def State.refillDie (s : State) (d : Die) : State :=
  let e := s.declaredNj d
  let span := 17 * (s.tick.periodNs.toNat - s.guardNs)
  if span = 0 then s else
  { s with tick := { s.tick with pacer := vmod s.tick.pacer d (fun p =>
      let acc := p.fraction + 10 * e
      { p.refill e (acc / span) with fraction := acc % span }) } }

end Sys2Proof.Machine
end

