-- ==== Sys2Proof/Machine/DmaOps.lean ====
section
/-!
DEFINITION. The operations of a DMA channel: where a descriptor points, its units, landing data, pooling, completion,
halts and resumes (R272 to R290).
-/
namespace Sys2Proof.Machine

/-- A device channel. -/
def State.chan (s : State) (c : Chan) : Channel := (s.skeins[chanSkein c]).channels[chanIdx c]
/-- The run stands before the first request of a descriptor, the boundary at which a disable takes effect (R490). -/
def DmaRun.atBoundary (r : DmaRun) : Bool :=
  r.unit == 0 && r.elem == 0 && r.piece == 0 && r.wUnit == 0 && r.wPiece == 0 && r.idxAsked == 0

/-- Change a device channel. -/
def State.modChan (s : State) (c : Chan) (f : Channel → Channel) : State :=
  s.modSk (chanSkein c) (fun x => { x with channels := vmod x.channels (chanIdx c) f })

/-- Space 1: an offset range inside one of the valid ranges of R275. -/
def laneRangeOk (o n : Nat) : Bool :=
  decide (o + n ≤ 0x600000) || (decide (0x600000 ≤ o) && decide (o + n ≤ 0x63A000))
    || (decide (0x800000 ≤ o) && decide (o + n ≤ 0xA00000))

/-- Resolve an address of a descriptor to a device address (R275); none fails the check of R276. -/
def State.resolve (s : State) (i : Spindle) (space region : Nat) (a : Int) (n : Nat) : Option Nat :=
  if a < 0 ∨ (2 : Int) ^ 64 < a + n then none
  else
    let a := a.toNat
    match space with
    | 0 => some a
    | 1 => if laneRangeOk a n then some (spindleBase i + a) else none
    | sp => match s.half region (sp == 3) with
      | some (b, size) => if a + n ≤ size then some (b + a) else none
      | none => none

/-- A range inside [base, base + size). -/
def within (a n base size : Nat) : Bool := decide (base ≤ a) && decide (a + n ≤ base + size)

/-- A range inside the spindle windows. -/
def inWindows (a n : Nat) : Bool := within a n 0x200000000000 0x80000000

/-- A range inside the fabric aperture. -/
def inAperture (a n : Nat) : Bool := within a n 0x280000000000 0x4000000000

/-- The grant check (R276). -/
def State.granted (s : State) (write : Bool) (space a n : Nat) : Bool :=
  let im : Image := s.dist.active.getD []
  inWindows a n ||
  (im.regions 9).any (fun r => within a n r.base r.bytes && (!write || inAperture a n)) ||
  (if write then space == 3
   else (im.regions 8).any (fun r => within a n r.base r.bytes || within a n (r.base + r.bytes) r.bytes))

/-- The key that requests of the descriptor under way carry. -/
def DmaRun.key (r : DmaRun) : Nat := 4096 * r.serial + r.desc

/-- The source that the descriptor under way has popped. -/
def DmaRun.popped (r : DmaRun) : Option PopSource := (r.pops.find? (fun p => p.1 == r.desc)).map (·.2)

/-- The descriptor a run is on; a pop descriptor has its source replaced (R283). -/
def SkeinState.runDesc (x : SkeinState) (r : DmaRun) : Option DmaDesc :=
  match x.lists[r.list]? with
  | none => none
  | some (first, count) =>
    if r.desc < count then
      (x.descs[first + r.desc]?).map (fun d => match r.popped with
        | some p => { d with srcSpace := p.space, srcAddr := p.addr, len0 := p.len }
        | none => d)
    else none

/-- Small-element gather (R279). -/
def DmaDesc.small (d : DmaDesc) : Bool := d.kind == 2 && !d.pool && decide (d.len0 < 32)
/-- Elements read for one unit: those of a 32-byte group, of a bag, or one. -/
def DmaDesc.elems (d : DmaDesc) : Nat :=
  if d.small then 32 / d.len0 else if d.kind == 2 && d.pool then d.count1 else 1
/-- Units of a descriptor: runs, elements, groups or bags; a source of length 0 has none (R278, R283). -/
def DmaDesc.units (d : DmaDesc) : Nat :=
  if d.len0 = 0 then 0
  else if d.kind == 2 || d.kind == 3 then d.idxCount / max 1 d.elems else d.count1 * d.count2
/-- Pieces of 4 KiB that an element or run is read in (R278, R279). -/
def DmaDesc.pieces (d : DmaDesc) : Nat := max 1 (ceilDiv d.len0 4096)
/-- Bytes of piece p of an element or run. -/
def DmaDesc.pieceLen (d : DmaDesc) (p : Nat) : Nat := min 4096 (d.len0 - 4096 * p)
/-- Unsigned pitch of kinds 2 and 3 (R277). -/
def pitch (x : Int) : Int := x % 2 ^ 32
/-- Bytes of one index (R279). -/
def DmaDesc.idxBytes (d : DmaDesc) : Nat := if d.idx64 then 8 else 4
/-- The padding index (R279). -/
def DmaDesc.padding (d : DmaDesc) : Nat := if d.idx64 then 2 ^ 64 - 1 else 2 ^ 32 - 1

/-- The landed index piece that holds index j. -/
def DmaRun.idxPiece (r : DmaRun) (d : DmaDesc) (j : Nat) : Option IdxPiece :=
  r.idxPieces.find? (fun p => p.n == j * d.idxBytes / 256)
/-- Index j of the table, once its piece has landed (R279). -/
def DmaRun.index (r : DmaRun) (d : DmaDesc) (j : Nat) : Option Nat :=
  (r.idxPiece d j).map (fun p => field p.bytes (j * d.idxBytes % 256) d.idxBytes)

/-- The unit number that a resume record reports (R286, R289). -/
def DmaDesc.unitNo (d : DmaDesc) (u : Nat) : Nat := if d.small then u * d.elems else u

/-- Source address of a read: unit, element, piece, with the element's index (R278 to R281). -/
def DmaDesc.readAddr (d : DmaDesc) (x u p : Nat) : Int :=
  match d.kind with
  | 2 => d.srcAddr + x * pitch d.srcStride1 + 4096 * p
  | 3 => d.srcAddr + u * pitch d.srcStride1 + 4096 * p
  | _ => d.srcAddr + (u % d.count1 : Nat) * d.srcStride1 + (u / d.count1 : Nat) * d.srcStride2 + 4096 * p

/-- Destination address of a write: unit and piece, with a scatter's index (R278 to R282). -/
def DmaDesc.writeAddr (d : DmaDesc) (x u p : Nat) : Int :=
  match d.kind with
  | 2 => if d.small then d.dstAddr + 32 * u else d.dstAddr + u * pitch d.dstStride1 + 4096 * p
  | 3 => d.dstAddr + x * pitch d.dstStride1 + 4096 * p
  | 4 => d.dstAddr + u * d.len0 + 4096 * p
  | _ => d.dstAddr + (u % d.count1 : Nat) * d.dstStride1 + (u / d.count1 : Nat) * d.dstStride2 + 4096 * p

/-- Words of a byte list. -/
def words32 (bs : List Byte) : List Word :=
  (List.range (bs.length / 4)).map (fun i => BitVec.ofNat 32 (field bs (4 * i) 4))
/-- Bytes of a word list. -/
def bytes32 (ws : List Word) : List Byte := ws.flatMap (fun w => leBytes 4 w.toNat)

/-- The sum of the rows of a bag in index order: the first row is copied, the others added (R280). -/
def poolRows (flight : Bool) (a : List Word) : List (List Word) → List Word
  | [] => a
  | r :: rs => poolRows true (List.zipWith (fp32Add flight) a r) rs

/-- The result of a bag; no row gives +0 (R280). -/
def poolSum (len : Nat) : List (List Word) → List Word
  | [] => List.replicate (len / 4) 0
  | r :: rs => poolRows false r rs

/-- The landed data of a read position. -/
def DmaRun.data (r : DmaRun) (u e p : Nat) : Option (List Byte) :=
  (r.landed.find? (fun x => x.1.desc == r.key && x.1.unit == u && x.1.elem == e && x.1.piece == p)).map (·.2)

/-- The whole element landed: every piece in order. -/
def DmaRun.element (r : DmaRun) (d : DmaDesc) (u e : Nat) : Option (List Byte) :=
  (List.range d.pieces).foldl (fun acc p => match acc, r.data u e p with
    | some a, some b => some (a ++ b)
    | _, _ => none) (some [])

/-- The element at index position j is padding. -/
def DmaRun.isPad (r : DmaRun) (d : DmaDesc) (j : Nat) : Bool := r.index d j == some d.padding

/-- The bytes that write (unit, piece) sends, once they have all landed (R278 to R281). -/
def DmaRun.writeData (r : DmaRun) (d : DmaDesc) (u p : Nat) : Option (List Byte) :=
  if d.kind == 2 && d.pool then
    let rows := (List.range d.count1).map (fun e =>
      if r.isPad d (u * d.count1 + e) then some none
      else (r.element d u e).map some)
    if rows.any (·.isNone) then none
    else
      let xs := (rows.filterMap id).filterMap id
      some (((bytes32 (poolSum d.len0 (xs.map words32))).drop (4096 * p)).take (d.pieceLen p))
  else if d.small then
    (List.range d.elems).foldl (fun acc e =>
      match acc with
      | none => none
      | some a =>
        if r.isPad d (u * d.elems + e) then some (a ++ List.replicate d.len0 0)
        else (r.data u e 0).map (a ++ ·)) (some [])
  else if d.kind == 2 && r.isPad d u then some (List.replicate (d.pieceLen p) 0)
  else r.data u 0 p

/-- Bytes of the list written before a unit and piece of a descriptor; a scatter's padding elements write nothing (R281, R289). -/
def SkeinState.bytesBefore (x : SkeinState) (r : DmaRun) (desc u p : Nat) : Nat :=
  let unitBytes := fun (d : DmaDesc) => if d.small then 32 else d.len0
  let skipped := fun (i to_ : Nat) => (r.skips.filter (fun q => q.1 == i && decide (q.2 < to_))).length
  let whole := (List.range desc).foldl (fun n i =>
    match x.runDesc { r with desc := i } with
    | some d => n + unitBytes d * (d.units - skipped i d.units)
    | none => n) 0
  match x.runDesc { r with desc := desc } with
  | some d => whole + unitBytes d * (u - skipped desc u) + (if d.small then 0 else 4096 * p)
  | none => whole

/-- Retryable statuses (R286). -/
def retryable (c : Code) : Bool := c == 0x0404 || c == 0x0405 || c == 0x0982

/-- The 32 bytes of a resume record (R289). -/
def ResumeRec.bytes (r : ResumeRec) : List Byte :=
  if r.valid then
    leBytes 2 r.list ++ leBytes 2 r.desc ++ leBytes 4 r.unit ++ leBytes 4 r.piece ++ leBytes 2 r.code.toNat
      ++ leBytes 1 (min 255 r.attempts) ++ leBytes 1 (packFields [b1 r.valid, b1 r.retryable, b1 r.write])
      ++ leBytes 8 r.addr.toNat ++ leBytes 8 r.bytesDone
  else List.replicate 32 0

/-- The earlier of two failed accesses (R286). -/
def DmaFail.earlier (a b : DmaFail) : Bool :=
  decide (a.desc < b.desc) || (a.desc == b.desc && (decide (a.unit < b.unit) || (a.unit == b.unit && decide (a.piece < b.piece))))

/-- Note a failed access; the channel issues nothing further (R286). -/
def DmaRun.noteFail (r : DmaRun) (f : DmaFail) : DmaRun :=
  match r.fail with
  | none => { r with fail := some f }
  | some g => if f.earlier g then { r with fail := some f } else r

/-- Change every list that a channel holds but the queued one. -/
def Channel.mapRuns (ch : Channel) (f : DmaRun → DmaRun) : Channel :=
  { ch with run := ch.run.map f, past := ch.past.map f, parked := ch.parked.map f }

/-- The list whose failed access halts a channel: the earliest (R286). -/
def Channel.failing (ch : Channel) : Option DmaRun := (ch.past ++ ch.run.toList ++ ch.parked).find? (·.fail.isSome)

/-- A final halt: the channel drops its lists and the step aborts with the resume record (R288, R431). -/
def State.finalHalt (s : State) (c : Chan) (code : Code) : State :=
  let s := s.modChan c (fun ch => { ch with
    halted := true, queued := none, retryAt := none, halting := false, stopping := false, code := code, haltSeen := true, run := none
    past := [], parked := [], doneAt := none, pushDue := [], res := { ch.res with code := code, retryable := false } })
  let r := (s.chan c).res
  s.abort { code := code, unit := BitVec.ofNat 16 c.val, resume := r.bytes, addr := r.addr }

/-- A retryable halt of a list that has stopped: it goes (R290). -/
def Channel.dropFailed (ch : Channel) (r : DmaRun) : Channel :=
  if ch.run.any (fun x => x.serial == r.serial) then ch.letGo
  else { ch with halting := false, past := ch.past.filter (fun x => x.serial != r.serial) }

/-- When every outstanding request of a halting channel has finished: save the resume record of the list that failed, then wait, or stop
where the halt is final, its attempts are past the limit, or the list has been stopped (R286 to R290). A held pop position stays with a
list that resumes. -/
def State.settleHalt (s : State) (c : Chan) (r : DmaRun) (f : DmaFail) : State :=
  let ch := s.chan c
  let x := s.skeins[chanSkein c]
  if !(ch.reads.isEmpty && ch.writes.isEmpty) || ch.retryAt.isSome then s
  else
    let d := x.runDesc { r with desc := f.desc }
    let unit := match d with | some d => d.unitNo f.unit | none => f.unit
    let piece := if d.any (fun d => d.kind == 2 && (d.pool || d.small)) then 0 else f.piece
    let same := ch.res.valid && ch.res.list == r.list && ch.res.desc == f.desc && ch.res.unit == unit
      && ch.res.piece == piece
    let newRes : ResumeRec :=
      { list := r.list, desc := f.desc, unit := unit, piece := piece, code := f.code
        attempts := if same then ch.res.attempts + 1 else 1
        valid := true, retryable := retryable f.code, write := f.write
        addr := BitVec.ofNat 64 f.addr, bytesDone := x.bytesBefore r f.desc f.unit piece }
    let s := s.modChan c (fun ch => { ch with res := newRes, haltSeen := true, code := f.code, halting := true })
    let spent := decide (x.retryLimit.toNat < newRes.attempts)
    let gone := r.gone || (ch.stopping && ch.run.any (fun y => y.serial == r.serial))
    if retryable f.code && !spent && !gone then
      s.modChan c (fun ch => { ch with retryAt := some (s.now + Time.sc x.retryDelay.toNat) })
    else
      let s := match r.held with
        | some h => s.unholdPos (chanSkein c) h
        | none => s
      if !retryable f.code then s.finalHalt c f.code
      else if spent then s.finalHalt c 0x0485
      else s.modChan c (·.dropFailed r)

/-- Post the handles of descriptors whose writes are all acknowledged, while their rings have space: on one ring in the order of the
descriptors (R209, R283). -/
def State.postDma (s : State) (c : Chan) : State :=
  let k := chanSkein c
  (s.chan c).pushDue.foldl (fun s p =>
    let ch := s.chan c
    let ring := (s.skeins[k]).ring p.2.1
    let earlier := (ch.pushDue.takeWhile (fun q => q.1 != p.1)).any (fun q => q.2.1 == p.2.1)
    if earlier || ch.writes.any (fun w => w.desc == p.1) || !ring.space ring.nextPost then s
    else
      let s := s.modSk k (·.modRing p.2.1 (fun g => { g.fill g.nextPost p.2.2 with nextPost := g.nextPost + 1 }))
      s.modChan c (fun ch => { ch with pushDue := ch.pushDue.filter (fun q => q.1 != p.1) }.mapRuns
        (fun r => if p.1 / 4096 == r.serial then { r with pushed := p.1 % 4096 :: r.pushed } else r))) s

/-- The descriptor under way is complete (R284). -/
def Channel.descDone (ch : Channel) (r : DmaRun) (d : DmaDesc) : Bool :=
  !(d.pop && r.popped.isNone) && decide (d.units ≤ r.wUnit)
    && (!d.barrier || !ch.writes.any (fun w => w.desc == r.key))

/-- Move past complete descriptors; after the last, the list is complete at this time (R284, R285). -/
def State.settleDesc (s : State) (c : Chan) : Nat → State
  | 0 => s
  | fuel + 1 =>
    let ch := s.chan c
    let k := chanSkein c
    let x := s.skeins[k]
    match ch.run with
    | none => s
    | some r =>
      if ch.doneAt.isSome || ch.halting || ch.stopping || ch.failing.isSome then s
      else match x.runDesc r with
        | none => s
        | some d =>
          if !ch.descDone r d then s
          else
            let own := if r.heldDesc == r.desc then r.held else none
            let s := match own with
              | some h => s.modSk k (·.modRing h.ring (·.free h.pos))
              | none => s
            let push := if d.push && !r.pushed.contains r.desc then
                [(r.key, d.ring, BitVec.ofNat 32 (d.aux % 4096 + 4096 * ceilDiv r.descBytes 256))]
              else []
            let r' := { r with desc := r.desc + 1, unit := 0, elem := 0, piece := 0, wUnit := 0, wPiece := 0,
                               descBytes := 0, idxPieces := [], idxAsked := 0, landed := []
                               held := if own.isSome then none else r.held }
            let last := (x.runDesc r').isNone
            let s := s.modChan c (fun ch => { ch with
              pushDue := ch.pushDue ++ push
              run := some r'
              doneAt := if last then some s.now else none })
            (s.postDma c).settleDesc c fuel

/-- Bring a channel's bookkeeping up to date after an answer: halts, stops, posts, completions. -/
def State.settleChan (s : State) (c : Chan) : State :=
  let s := s.modChan c (fun ch => { ch with
    past := ch.past.filter (fun r => r.fail.isSome || ch.writes.any (fun w => w.desc / 4096 == r.serial)) })
  let ch := s.chan c
  match ch.failing with
  | some r =>
    match r.fail with
    | some f => s.settleHalt c r f
    | none => s
  | none =>
    if ch.stopping then
      if ch.stopped then
        let s := match ch.run.bind (·.held) with
          | some h => s.unholdPos (chanSkein c) h
          | none => s
        s.modChan c Channel.letGo
      else s.postDma c
    else (s.postDma c).settleDesc c 4097

/-- A read of a channel is answered (R279, R286). -/
def State.chanRead (s : State) (c : Chan) (tag : Nat) (status : Code) (data : List Byte)
    (poison : Bool) : State :=
  let ch := s.chan c
  match ch.reads.find? (fun q => q.tag == tag) with
  | none => s
  | some q =>
    let s := s.modChan c (fun ch => { ch with
      reads := ch.reads.filter (fun x => x.tag != tag)
      run := ch.run.map (fun r =>
        if q.use == .index then
          { r with idxPieces := r.idxPieces ++ [{ n := q.piece, status := status, addr := q.addr, bytes := data }] }
        else
          if status = 0 then { r with landed := r.landed ++ [({ q with poison := poison }, (data.drop q.skip).take q.want)] }
          else r.noteFail { desc := q.desc % 4096, unit := q.unit, piece := q.piece, code := status, write := false, addr := q.addr }) })
    s.settleChan c

/-- A write of a channel is acknowledged; one that failed halts the channel at its list, a complete one too (R284, R286). -/
def State.chanAck (s : State) (c : Chan) (tag : Nat) (status : Code) : State :=
  let ch := s.chan c
  match ch.writes.find? (fun q => q.tag == tag) with
  | none => s
  | some q =>
    let s := s.modChan c (fun ch =>
      let ch := { ch with writes := ch.writes.filter (fun x => x.tag != tag) }
      if status = 0 then ch
      else ch.mapRuns (fun r =>
        if r.serial == q.desc / 4096 then
          r.noteFail { desc := q.desc % 4096, unit := q.unit, piece := q.piece, code := status, write := true, addr := q.addr }
        else r))
    s.settleChan c

/-- Send a channel's request, or have the source's router answer it with 0x0981 (R221, R527). A read in a creel window
goes to the home slice on the requester's die (R234). -/
def State.chanSend (s : State) (c : Chan) (q : DmaReq) (write : Option (List Byte)) (poison : Bool) : State :=
  let k := chanSkein c
  let src := dmaEndpoint k
  let d := dieOfSkein k
  let t := s.decodeAddr q.addr
  let s := s.modChan c (fun ch => { ch with
    nextTag := ch.nextTag + 1
    reads := if write.isNone then ch.reads ++ [q] else ch.reads
    writes := if write.isSome then ch.writes ++ [q] else ch.writes })
  let n := match write with | some b => b.length | none => q.bytes
  let vc : BitVec 2 := if n ≤ 256 then 1 else 0
  match t.endpoint with
  | none => if write.isSome then s.chanAck c q.tag 0x0981 else s.chanRead c q.tag 0x0981 [] false
  | some dst =>
    let slice := write.isNone && (s.dies[d]).creelEn && (s.dies[d]).emptying.isNone && s.creelClass d q.addr != 0
    s.send { kind := if write.isSome then .write else .readReq, src := src,
             dst := if slice then sliceEndpoint d (homeSlice (q.addr / 256)) else dst,
             vc := vc, owner := .chan c, tag := q.tag, addr := q.addr, bytes := n,
             data := write.getD [], poison := poison }

end Sys2Proof.Machine
end

