-- ==== Sys2Proof/Machine/MemOps.lean ====
section
/-!
DEFINITION. The operations of the memory controllers: rank states, retirement, error latches, poison, creel invalidates
(R236, R247, R260 to R268).
-/
namespace Sys2Proof.Machine

/-- The tier state of sparing and migration. -/
def State.tier (s : State) (t : Tier) : TierState := match t with | .hbm => s.dist.hbm | .ddr => s.dist.ddr
/-- Change the tier state. -/
def State.modTier (s : State) (t : Tier) (f : TierState → TierState) : State :=
  match t with
  | .hbm => { s with dist := { s.dist with hbm := f s.dist.hbm } }
  | .ddr => { s with dist := { s.dist with ddr := f s.dist.ddr } }

/-- State code of a rank (R247). -/
def State.rankState (s : State) (t : Tier) (x : RankId) : Nat := ((s.ctl ⟨t, x.n⟩).rank[x.r]).toNat
/-- Set the state code of a rank. -/
def State.setRank (s : State) (t : Tier) (x : RankId) (v : BitVec 4) : State :=
  s.modCtl ⟨t, x.n⟩ (fun c => { c with rank := vmod c.rank x.r (fun _ => v) })

/-- The replacement that a remap byte names (R270). -/
def remapTarget (v : Nat) : Option RankId :=
  if h : bits v 3 0 < 12 then some ⟨⟨bits v 3 0, h⟩, ⟨bits v 5 4 % 4, by omega⟩⟩ else none

/-- The rank that a retired rank forwards to (R266, R270). -/
def State.remapOf (s : State) (t : Tier) (x : RankId) : Option RankId :=
  let v := bits ((s.ctl ⟨t, x.n⟩).remap).toNat (8 * x.r.val + 7) (8 * x.r.val)
  if v / 128 = 1 then remapTarget v else none

/-- Follow the replacements of a rank; no chain is longer than the ranks of a tier. -/
def State.follow (s : State) (t : Tier) : Nat → RankId → RankId
  | 0, x => x
  | n + 1, x => match s.remapOf t x with
    | some y => s.follow t n y
    | none => x

/-- The rank that serves the accesses of a rank: itself, or the replacement at the end of its forwarding (R266). -/
def State.server (s : State) (t : Tier) (x : RankId) : RankId := s.follow t 48 x

/-- Every rank of a tier in ascending order: member, then rank. -/
def allRanks : List RankId := (List.finRange 12).flatMap (fun n => (List.finRange 4).map (fun r => ⟨n, r⟩))

/-- The device address of a place in a rank: that of the rank whose accesses it serves; a spare has none (R248, R266). -/
def State.physAddr (s : State) (t : Tier) (x : RankId) (pc loc : Nat) : Option Nat :=
  allRanks.findSome? (fun y => if s.server t y == x then s.rankAddr ⟨t, y.n⟩ y.r pc loc else none)

/-- Record a controller's first memory code. -/
def CtlState.note (c : CtlState) (code : Code) : CtlState := { c with code := if c.code = 0 then code else c.code }

/-- The first field of ERR_INFO: the pseudo-channel, or the DDR5 subchannel, a free value of the address (R270, R271). -/
def errPcOf (t : Tier) (pc addr : Nat) : BitVec 6 :=
  match t with
  | .hbm => BitVec.ofNat 6 pc
  | .ddr => if Config.ddrSubchannel addr then 1 else 0

/-- Latch the first uncorrectable error (R270): kind 0 read, 1 command, 2 scrub, 3 migration. -/
def CtlState.latch (c : CtlState) (t : Tier) (addr : Nat) (pc : Nat) (r : Fin 4) (kind : Nat) : CtlState :=
  if c.errValid then c
  else { c with errValid := true, errAddr := BitVec.ofNat 48 addr, errPc := errPcOf t pc addr, errRank := BitVec.ofNat 2 r.val,
                errKind := BitVec.ofNat 2 kind }

/-- A spare that is free: state 1 and not reserved (R263). -/
def State.freeSpare (s : State) (t : Tier) (x : RankId) : Bool :=
  s.rankState t x == 1 && !((s.tier t).waiting.any (fun w => w.2 == some x))

/-- A spare can replace a rank: a DDR5 spare only one of its own size (R248). -/
def State.canReplace (s : State) (t : Tier) (spare rank : RankId) : Bool :=
  match t with
  | .hbm => true
  | .ddr => (s.ddr[spare.n]).rankGib == (s.ddr[rank.n]).rankGib

/-- The lowest-numbered free spare that can replace a rank (R263). -/
def State.pickSpare (s : State) (t : Tier) (rank : RankId) : Option RankId :=
  allRanks.find? (fun x => s.freeSpare t x && s.canReplace t x rank)

/-- A rank that must retire and has no spare becomes locked (R267). -/
def State.lockRank (s : State) (t : Tier) (x : RankId) : State :=
  ((s.setRank t x 4).modCtl ⟨t, x.n⟩ (·.note 0x0406)).report 0x0406

/-- Retire a rank in service: reserve its spare, or lock it (R263, R267). -/
def State.retire (s : State) (t : Tier) (x : RankId) : State :=
  if s.rankState t x ≠ 0 ∨ (s.tier t).waiting.any (fun w => w.1 == x) then s
  else
    let s := (s.modCtl ⟨t, x.n⟩ (·.note 0x0403)).report 0x0403
    match s.pickSpare t x with
    | some y => s.modTier t (fun ts => { ts with waiting := ts.waiting ++ [(x, some y)] })
    | none => (s.modTier t (fun ts => { ts with waiting := ts.waiting ++ [(x, none)] })).lockRank t x

/-- Give spares that have become free to the earliest locked ranks they can replace (R267). -/
def State.serveLocked (s : State) (t : Tier) : State :=
  (s.tier t).waiting.foldl (fun s w =>
    if w.2.isSome then s
    else match s.pickSpare t w.1 with
      | none => s
      | some y => s.modTier t (fun ts => { ts with waiting := ts.waiting.map (fun v => if v.1 == w.1 then (v.1, some y) else v) })) s

/-- Count and latch an uncorrectable error at a controller: kind 0 read, 1 command, 2 scrub, 3 migration (R259, R270). -/
def State.countUncorr (s : State) (c : Ctl) (r : Fin 4) (pc addr kind : Nat) : State :=
  s.modCtl c (fun x => ({ x with uncorr := satAdd 32 x.uncorr 1, uncorrSeen := true }.note 0x0401).latch c.tier addr pc r kind)

/-- Count a corrected error at a controller (R259). -/
def State.countCorrected (s : State) (c : Ctl) : State := s.modCtl c (fun x => { x with corr := satAdd 32 x.corr 1 })

/-- An uncorrectable error in a rank's data: counted, latched, and the rank retires (R259, R263). -/
def State.uncorrectable (s : State) (t : Tier) (x : RankId) (pc addr kind : Nat) : State :=
  (s.countUncorr ⟨t, x.n⟩ x.r pc addr kind).retire t x

/-- Poison a line of memory (R260). -/
def State.poisonAt (s : State) (line : Nat) : State := { s with poison := poisonLine line s.poison }

/-- The clock of a channel's power state: a pseudo-channel's own, or the DDR5 channel's. -/
def srIndex (t : Tier) (pc : Nat) : Fin 64 := match t with | .hbm => ⟨pc % 64, by omega⟩ | .ddr => 0

/-- The exit latency of self-refresh (R255). -/
def exitTime (t : Tier) : Time := match t with | .hbm => Time.sc 680 | .ddr => Time.sc 2040

/-- An access reaches a pseudo-channel: a channel in self-refresh wakes, and the access counts as late if it waits for an exit (R258). -/
def State.wake (s : State) (c : Ctl) (pc : Nat) : State :=
  let i := srIndex c.tier pc
  s.modCtl c (fun x =>
    let asleep := x.inSr.getLsbD i.val
    { x with
      inSr := x.inSr &&& ~~~(1#64 <<< i.val)
      srLate := if asleep || decide (s.now < x.wakeAt[i]) then satAdd 32 x.srLate 1 else x.srLate
      wakeAt := if asleep then vmod x.wakeAt i (fun _ => s.now + exitTime c.tier) else x.wakeAt
      lastCmd := vmod x.lastCmd i (fun _ => s.now) })

/-- A command of a channel succeeds: what is retried there starts anew at its next error (R263). -/
def State.cmdDone (s : State) (c : Ctl) (pc : Nat) : State :=
  s.modCtl c (fun x => { x with retry := x.retry.filter (fun t => t.pc != pc) })

/-- A running migration involves this controller (R270, R491). -/
def State.migrating (s : State) (c : Ctl) : Bool := (s.tier c.tier).mig.any (fun m => m.src.n == c.n || m.tgt.n == c.n)

/-- The status that a disabled memory channel answers with; a disable takes effect when a migration of its controller has ended (R489 to
R491). -/
def State.fnStatus (s : State) (c : Ctl) (pc : Nat) : Code :=
  match ((s.ctl c).pcFn[srIndex c.tier pc]).st with
  | .on => 0
  | .draining => if s.migrating c then 0 else 0x0810
  | .off => 0x0811

/-- The status that keeps an access to a rank from its channel: the disabled channel of the rank, or of the rank that serves it. -/
def State.placeStatus (s : State) (c : Ctl) (pc : Nat) (r : Fin 4) : Code :=
  if s.fnStatus c pc ≠ 0 then s.fnStatus c pc else s.fnStatus ⟨c.tier, (s.server c.tier ⟨c.n, r⟩).n⟩ pc

/-- The address that a report of poison names: ERR_ADDR of the controller that serves the poisoned access, once it has latched one (R261,
R270). -/
def State.poisonAddr (s : State) (a : BitVec 64) : BitVec 64 :=
  match s.decodeAddr a.toNat with
  | .memory c _ r _ =>
    let x := s.ctl ⟨c.tier, (s.server c.tier ⟨c.n, r⟩).n⟩
    if x.errValid then x.errAddr.setWidth 64 else a
  | _ => a

/-- Lines of a rank in each pseudo-channel, or in its DDR5 channel (R247). -/
def State.rankLines (s : State) (t : Tier) (n : Fin 12) : Nat := s.rankBytes t n / 256

/-- Since when a line is held by the copy of a migration (R265). -/
def State.heldLine (s : State) (line : Nat) : Option Time :=
  match s.decodeAddr (256 * line) with
  | .memory c pc r loc =>
    match (s.tier c.tier).mig with
    | none => none
    | some m =>
      let i := srIndex c.tier pc
      if s.server c.tier ⟨c.n, r⟩ == m.src && m.line[i] == loc / 256 then m.since[i] else none
  | _ => none

/-- Since when an access waits on a line that is being copied (R265). -/
def State.waitsCopy (s : State) (q : MemReq) : Option Time :=
  ((linesOf q.pkt.addr q.pkt.bytes).findSome? s.heldLine).map (max · q.arrived)

/-- Two accesses touch a common line. -/
def MemReq.meets (a b : MemReq) : Bool :=
  (linesOf a.pkt.addr a.pkt.bytes).any ((linesOf b.pkt.addr b.pkt.bytes).contains ·)

/-- A write of the list touches a line of this access, which stays behind it (R254). -/
def behindWrite (ahead : List MemReq) (q : MemReq) : Bool := ahead.any (fun w => w.pkt.kind == .write && w.meets q)

/-- Perform a write: poison where the packet carries it, clear poison where it covers a line, and answer MEM_POISON for
a partial write to a poisoned line, one that carries poison too (R260). -/
def State.performWrite (s : State) (a : Nat) (data : List Byte) (poison : Bool) : State × Code :=
  let n := data.length
  let lines := linesOf a n
  let whole := fun l => decide (a ≤ 256 * l) && decide (256 * l + 256 ≤ a + n)
  let partialHit := lines.any (fun l => !whole l && s.poison.contains l)
  let s := s.memWrite a data
  let pl := if poison then lines.foldl (fun p l => poisonLine l p) s.poison
            else s.poison.filter (fun l => !(lines.contains l && whole l))
  ({ s with poison := pl }, if partialHit then 0x0402 else 0)

/-- Acknowledge a write, after the creel invalidates it owes (R236, R254). -/
def State.ackWrite (s : State) (c : Ctl) (p : Packet) (status : Code) : State :=
  let ack := p.answer .writeAck status [] false
  let lines := (linesOf p.addr p.bytes).filter (fun l => s.creelClass (ctlDie c) (256 * l) != 0)
  if lines.isEmpty then s.send ack
  else
    let n := lines.length
    let id := (s.ctl c).owed.foldl (fun m o => max m (o.id + 1)) 0
    let s := s.modCtl c (fun x => { x with owed := x.owed ++ [{ ack := ack, id := id, left := 4 * n }] })
    lines.foldl (fun s l => (List.finRange 4).foldl (fun s d =>
      s.send { kind := .inval, src := ctlEndpoint c, dst := sliceEndpoint d (homeSlice l), vc := 1, owner := .slice,
               tag := id, addr := 256 * l }) s) s

end Sys2Proof.Machine
end

