-- ==== Sys2Proof/Machine/Arbiter.lean ====
section
/-!
DEFINITION. The common arbiter: ARBITER_GRANT and ARB_COMMIT (R229 to R232), with the maintenance slot of R253.
-/
namespace Sys2Proof.Machine

/-- The requesters an instance lists (R229). -/
def arbMask : ArbId → BitVec 32
  | .board _ => 0xFF
  | .creel _ => 0x3FFFF
  | .mem _ => 0x7FFFF
  | .sliver _ => 0x1F

/-- The arbiter of an instance. -/
def State.arbiter (s : State) : ArbId → Arbiter
  | .board k => (s.skeins[k]).arb
  | .creel d => (s.dies[d]).creelArb
  | .mem c => (s.ctl c).arb
  | .sliver d => (s.dies[d]).sliverArb

/-- Change the arbiter of an instance. -/
def State.modArbiter (s : State) (a : ArbId) (f : Arbiter → Arbiter) : State :=
  match a with
  | .board k => s.modSk k (fun x => { x with arb := f x.arb })
  | .creel d => s.modDie d (fun x => { x with creelArb := f x.creelArb })
  | .mem c => s.modCtl c (fun x => { x with arb := f x.arb })
  | .sliver d => s.modDie d (fun x => { x with sliverArb := f x.sliverArb })

/-- Base priority of a requester, in effect (R232). -/
def Arbiter.base (a : Arbiter) (i : Fin 32) : Nat :=
  let w := (a.prio[i.val / 8]'(by omega)).eff
  (w >>> (4 * (i.val % 8))).toNat % 16

/-- Of a list, the first element with the largest measure. -/
def argMax {α : Type} (f : α → Nat) : List α → Option α
  | [] => none
  | x :: xs => match argMax f xs with
    | none => some x
    | some y => if f y > f x then some y else some x

/-- Requester numbers in round-robin order after the last winner. -/
def Arbiter.order (a : Arbiter) : List (Fin 32) :=
  (List.finRange 32).map (fun i => ⟨(a.last.toNat + 1 + i.val) % 32, by omega⟩)

/-- The wait count of a requester that is not granted: a cycle more while it requests, none once its request is withdrawn (R230). -/
def waitAfter (req : BitVec 32) (i : Fin 32) (w : Nat) : Nat := if req.getLsbD i.val then w + 1 else 0

/-- One grant cycle: the winner, if any, and the arbiter after it (R230). A cycle without a request grants nothing, and the request that
a requester raises next is a new one. -/
def Arbiter.grant (a : Arbiter) (req : BitVec 32) : Option (Fin 32) × Arbiter :=
  if req = 0 then (none, { a with waiting := vall a.waiting (fun _ _ => 0) })
  else
    let g := a.g + 1
    let rs := (List.finRange 32).filter (fun i => req.getLsbD i.val)
    let eligible := fun (i : Fin 32) => req.getLsbD i.val && a.backoff[i] == 0
    let fair := g % a.fairN.eff.toNat == 0
    let winner :=
      if fair then argMax (fun i => a.waiting[i]) rs
      else argMax (fun i => min 15 (a.base i + a.loss[i])) (a.order.filter eligible)
    let lost := fun (i : Fin 32) => eligible i && some i != winner
    let loss := vall a.loss (fun i l => if some i == winner then 0 else if lost i then l + 1 else l)
    let backoff := vall a.backoff (fun i b =>
      if some i == winner then 0
      else if lost i && a.backoffEn.eff == 1 && decide (4 ≤ loss[i]) then 2 ^ min (loss[i] - 4) 6
      else b - 1)
    (winner, { a with
      g := g, loss := loss, backoff := backoff, waiting := vall a.waiting (fun i w => if some i == winner then 0 else waitAfter req i w)
      last := match winner with | some i => BitVec.ofNat 5 i.val | none => a.last
      fairGrants := if fair && winner.isSome then satAdd 32 a.fairGrants 1 else a.fairGrants })

/-- A commit of a shadowed field (R14). -/
def Rws.commit {w : Nat} (r : Rws w) : Rws w := { eff := r.shadow.getD r.eff, shadow := none }

/-- ARB_COMMIT: the shadowed fields take effect together; g restarts if any did (R231, R232). -/
def Arbiter.commit (a : Arbiter) : Arbiter :=
  let any := a.prio.toList.any (·.shadow.isSome) || a.fairN.shadow.isSome || a.backoffEn.shadow.isSome
  if any then
    let f := a.fairN.commit
    { a with
      prio := a.prio.map Rws.commit
      fairN := { f with eff := BitVec.ofNat 7 (min 64 (max 2 f.eff.toNat)) }
      backoffEn := a.backoffEn.commit
      g := 0 }
  else a

/-- A job's step runs on the device or is in its commit hold (R264). -/
def State.stepRuns (s : State) : Bool := s.step.begun && s.step.phase != .idle

/-- ARBITER_GRANT (R230): one grant cycle of an instance. At a memory controller every 25th command slot of the pseudo-channel or
channel, and every slot at the source and target of a migration while no step runs, is offered first to requester 18, which gets no other;
the others go on waiting (R253, R264). -/
def execArbiterGrant (a : ArbId) (pc : Fin 64) (requests : BitVec 32) (s : State) : Out := s.clocked <|
  let req := requests &&& arbMask a
  match a with
  | .mem c =>
    let slot : Fin 64 := match c.tier with | .hbm => pc | .ddr => 0
    let n := (s.ctl c).slotNo[slot] + 1
    let s := s.modCtl c (fun x => { x with slotNo := vmod x.slotNo slot (fun _ => n) })
    let maint := n % 25 == 0 || (!s.stepRuns && s.migrating c)
    if maint && req.getLsbD 18 then
      .next (s.modArbiter a (fun x => { x with waiting := vall x.waiting (waitAfter (req &&& 0x3FFFF)) }))
    else .next (s.modArbiter a (fun x => (x.grant (req &&& 0x3FFFF)).2))
  | _ => .next (s.modArbiter a (fun x => (x.grant req).2))

/-- ARB_COMMIT (R231). -/
def execArbCommit (a : ArbId) (s : State) : Out := .next (s.modArbiter a Arbiter.commit)

end Sys2Proof.Machine
end

