-- ==== Sys2Proof/Machine/Crc.lean ====
section
/-!
DEFINITION. Cyclic redundancy checks, most significant bit first, initial value and final XOR all ones (R304).
-/
namespace Sys2Proof.Machine

/-- Shift one bit into a CRC. -/
def crcBit {w : Nat} (poly : BitVec w) (c : BitVec w) (b : Bool) : BitVec w :=
  if (c.msb != b) then (c <<< 1) ^^^ poly else c <<< 1

/-- Shift one byte into a CRC, most significant bit first. -/
def crcByte {w : Nat} (poly : BitVec w) (c : BitVec w) (b : Byte) : BitVec w :=
  (List.range 8).foldl (fun c i => crcBit poly c (b.getLsbD (7 - i))) c

/-- The CRC of a byte list. -/
def crc {w : Nat} (poly : BitVec w) (bs : List Byte) : BitVec w :=
  ~~~(bs.foldl (crcByte poly) (BitVec.allOnes w))

/-- The ECMA-182 CRC of a warp flit (R304). -/
def crc64 (bs : List Byte) : BitVec 64 := crc 0x42F0E1EBA9EA3693#64 bs

end Sys2Proof.Machine
end

