-- ==== Sys2Proof/Machine/CreelOps.lean ====
section
/-!
DEFINITION. The slices of the creel, and the reads and writes of device memory by the device's own agents, which go through it (R233 to
R237, R403).
-/
namespace Sys2Proof.Machine

/-- Change a slice. -/
def State.modSlice (s : State) (d : Die) (x : Fin 8) (f : CreelSlice → CreelSlice) : State :=
  s.modDie d (fun y => { y with slices := vmod y.slices x f })

/-- The way that the pseudo-LRU tree of a set names (R233): 16 ways are the leaves of a binary tree of 15 bits, each of which points
toward the half to replace (DESIGN CHOICE, log 131). -/
def plruVictim (b : BitVec 15) : Fin 16 :=
  ⟨((List.range 4).foldl (fun n _ => 2 * n + (if b.getLsbD (n - 1) then 1 else 0)) 1) % 16, by omega⟩

/-- A use of a way turns every bit on its path away from it. -/
def plruUse (b : BitVec 15) (w : Fin 16) : BitVec 15 :=
  (List.range 4).foldl (fun b k =>
    let n := (16 + w.val) / 2 ^ (4 - k)
    let right := (16 + w.val) / 2 ^ (3 - k) % 2 == 1
    if right then b &&& ~~~(1#15 <<< (n - 1)) else b ||| (1#15 <<< (n - 1))) b

/-- Use a line (R233). -/
def CreelSlice.touch (x : CreelSlice) (l : CreelLine) : CreelSlice :=
  { x with plru := Cells.put 0 x.plru (creelSet l.n) (plruUse (Cells.get 0 x.plru (creelSet l.n)) l.way) }

/-- Allocate a line: in a way of its set that holds none, else in the way that the tree names, whose line leaves (R233). -/
def CreelSlice.allocate (x : CreelSlice) (n : Nat) (data : List Byte) : CreelSlice :=
  let same := x.lines.filter (fun (y : CreelLine) => creelSet y.n == creelSet n)
  let way := ((List.finRange 16).find? (fun w => !(same.any (fun y => y.way == w)))).getD (plruVictim (Cells.get 0 x.plru (creelSet n)))
  let l : CreelLine := { n := n, way := way, data := data }
  ({ x with lines := x.lines.filter (fun (y : CreelLine) => !(creelSet y.n == creelSet n && y.way == way)) ++ [l] }).touch l

/-- Drop a line; a fetch of it under way delivers and does not allocate (R236, R237). -/
def CreelSlice.drop (x : CreelSlice) (n : Nat) : CreelSlice :=
  { x with lines := x.lines.filter (fun l => l.n != n)
           fetches := x.fetches.map (fun f => if f.n == n then { f with stale := true } else f) }

/-- The creel of a die serves a read at this address (R234, R236). -/
def State.creelServes (s : State) (d : Die) (a : Nat) : Bool :=
  (s.dies[d]).creelEn && (s.dies[d]).emptying.isNone && s.creelClass d a != 0

/-- A write's invalidate reaches the home slice of a line on one die, and counts the line it drops (R236). -/
def State.invalidateLine (s : State) (d : Die) (n : Nat) : State :=
  let x := homeSlice n
  let had := ((s.dies[d]).slices[x]).lines.any (fun l => l.n == n)
  let s := s.modSlice d x (·.drop n)
  if had then s.modDie d (fun y => { y with inval := satAdd 32 y.inval 1 }) else s

/-- The creel of a die, asked for a line (R234): a hit, or a miss that memory serves. -/
def State.creelHit (s : State) (d : Die) (n : Nat) : Option CreelLine :=
  if s.creelServes d (256 * n) then ((s.dies[d]).slices[homeSlice n]).lines.find? (fun l => l.n == n) else none

/-- A hit counts and is a use of its line (R233, R243). -/
def State.noteHit (s : State) (d : Die) (l : CreelLine) : State :=
  (s.modSlice d (homeSlice l.n) (·.touch l)).modDie d (fun y => { y with hits := satAdd 32 y.hits 1 })

/-- A miss whose line memory delivers at once: merged into a fetch of it that is under way, or counted as a fetch and allocated by class,
unless it comes poisoned (R234 to R236). -/
def State.noteMiss (s : State) (d : Die) (n : Nat) (good : Bool) : State :=
  let x := homeSlice n
  if !s.creelServes d (256 * n) then s
  else if ((s.dies[d]).slices[x]).fetches.any (fun f => f.n == n && !f.stale) then
    s.modDie d (fun y => { y with merged := satAdd 32 y.merged 1 })
  else
    let s := s.modDie d (fun y => { y with misses := satAdd 32 y.misses 1 })
    if good && s.creelClass d (256 * n) == 1 then s.modSlice d x (·.allocate n (s.memRead (256 * n) 256)) else s

/-- The parts of a range that lie in one 256-byte line each: address and length. -/
def lineParts (a n : Nat) : List (Nat × Nat) :=
  (linesOf a n).map (fun l => (max a (256 * l), min (a + n) (256 * l + 256) - max a (256 * l)))

/-- Read bytes within a line by a die's own agent: from the creel or from memory, with whether they come poisoned (R234, R260). -/
def State.readPart (s : State) (d : Die) (a n : Nat) : State × List Byte × Bool :=
  match s.creelHit d (a / 256) with
  | some l => (s.noteHit d l, sliceBytes l.data (a % 256) n, false)
  | none =>
    let bad := s.poisoned a n
    (s.noteMiss d (a / 256) !bad, s.memRead a n, bad)

/-- A range meets a creel window of a die. -/
def State.meetsWindow (s : State) (d : Die) (a n : Nat) : Bool :=
  (s.dies[d]).wins.any (fun w => w.cls != 0 && decide (w.base.toNat * 65536 < a + n) && decide (a < (w.limit.toNat + 1) * 65536))

/-- Read device memory by a die's own agent (R234). -/
def State.readRange (s : State) (d : Die) (a n : Nat) : State × List Byte × Bool :=
  if s.meetsWindow d a n then
    (lineParts a n).foldl (fun (acc : State × List Byte × Bool) p =>
      let (s, bs, bad) := acc.1.readPart d p.1 p.2
      (s, acc.2.1 ++ bs, acc.2.2 || bad)) (s, [], false)
  else (s, s.memRead a n, s.poisoned a n)

/-- The creel of every die drops a line, as the acknowledgement of a write that owed invalidates says it has (R236). -/
def State.dropCreelLine (s : State) (n : Nat) : State :=
  (List.finRange 4).foldl (fun s d => if s.creelClass d (256 * n) = 0 then s else s.invalidateLine d n) s

/-- The answer that keeps an access by the device itself from a line: a disabled channel, or a line held by its copy for more than 1,024 sc
(R265, R489). A shorter hold only delays the access. -/
def State.memStops (s : State) (c : Ctl) (pc : Nat) (r : Fin 4) (line : Nat) : Code :=
  if s.placeStatus c pc r ≠ 0 then s.placeStatus c pc r
  else if (s.heldLine line).any (fun t => decide (t + Time.sc 1024 < s.now)) then 0x0405
  else 0

/-- The device writes bytes within a line of its memory: the state and the answer (R236, R260, R265, R267). -/
def State.writePart (s : State) (a : Nat) (bs : List Byte) : State × Code :=
  match s.decodeAddr a with
  | .memory c pc r _ =>
    let stop := s.memStops c pc r (a / 256)
    if stop ≠ 0 then (s, stop)
    else
      let x := s.server c.tier ⟨c.n, r⟩
      let s := s.wake ⟨c.tier, x.n⟩ pc
      if s.rankState c.tier x = 4 then (s, 0x0404)
      else
        let (s, code) := s.performWrite a bs false
        (s.dropCreelLine (a / 256), code)
  | _ => (s, 0x0981)

/-- Write the parts of a range in ascending order: the state and the first answer other than 0. -/
def State.writeParts (s : State) : List (Nat × Nat) → List Byte → State × Code
  | [], _ => (s, 0)
  | (a, n) :: ps, bs =>
    let (s, c) := s.writePart a (sliceBytes bs 0 n)
    let (s, c') := s.writeParts ps (bs.drop n)
    (s, if c = 0 then c' else c)

/-- The device writes a range of its memory (R236). -/
def State.deviceWrite (s : State) (a : Nat) (bs : List Byte) : State × Code := s.writeParts (lineParts a bs.length) bs

end Sys2Proof.Machine
end

