-- ==== Sys2Proof/Machine/LinkOps.lean ====
section
/-!
DEFINITION. The operations of a warp link: use, going down, flits, acknowledgement and replay, receive staging
(R298 to R318).
-/
namespace Sys2Proof.Machine

/-- A link of the tick tree: the upstream link of a follower, or one that sends TICK on (R302, R310). -/
def State.tickTree (s : State) (l : Link) : Bool :=
  (s.links[l]).tickDown || (s.tick.enable && s.tick.src == 0 && s.tick.upLink.toNat == l.val)

/-- A link is in use when the pattern in effect names it or it is a tick-tree link (R302). -/
def State.linkInUse (s : State) (l : Link) : Bool :=
  s.tickTree l || s.dist.active.any (fun im : Image => bit im.flags 1 && (im.find 5 l.val).isSome)

/-- Record a link's first code. -/
def LinkState.note (x : LinkState) (c : Code) : LinkState := { x with code := if x.code = 0 then c else x.code }

/-- Take a link down: its link layer empties (R302, R323). -/
def LinkState.goDown (x : LinkState) (now : Time) : LinkState :=
  { x with phase := .down, downSeen := x.downSeen || x.phase == .up, downAt := some now, farEnd := false
           resend := [], replay := [], txSeq := 0, rxNext := 0, askedAt := none, replayDue := none, tickDue := none
           aborts := [], slivers := [], displaced := [], wire := none, slotsSinceIdle := 0 }

/-- A link goes down; a link in use records 0x0501 and raises an ABORT (R302, R322). -/
def State.linkDown (s : State) (l : Link) : State :=
  if (s.links[l]).phase == .down then s
  else
    let used := s.linkInUse l && (s.links[l]).phase == .up
    let s := s.modLink l (·.goDown s.now)
    if used then (s.modLink l (·.note 0x0501)).abortCode 0x0501 l.val else s

/-- A link carries no flits of its own while a test loop runs on it, here or for the peer; a loop runs only on a link that is not in use
(R303). -/
def State.looped (s : State) (l : Link) : Bool :=
  let x := s.links[l]
  ((x.testRun && x.testMode != 0) || x.farEnd) && !s.linkInUse l

/-- Bring-up from rate 0 with the identity exchange; a link refused for its peer stays down (R298). -/
def LinkState.bringUp (x : LinkState) (peer : PeerIdent) : LinkState :=
  let x := { x with phase := .training, rate := 0, tries := 0, target := if x.maxRate.ule peer.maxRate then x.maxRate else peer.maxRate
                    peerSaid := some peer, downAt := none, fn := { x.fn with st := .on } }
  if x.peerCheck && (x.peerRank != peer.rank || x.peerLink != peer.link) then
    ({ x with phase := .down, mismatch := true }).note 0x0504
  else x

/-- Add a code to the training report (R246, R324). -/
def State.trainingNote (s : State) (c : Code) : State := { s with dist := { s.dist with training := s.dist.training ++ [c] } }

/-- A link starts bring-up; the training report names one whose peer it refuses (R298, R324). -/
def State.bringUp (s : State) (l : Link) (peer : PeerIdent) : State :=
  let s := s.modLink l (·.bringUp peer)
  if (s.links[l]).phase == .down then s.trainingNote 0x0504 else s

/-- The CRC that a flit's bytes 0 to 247 give (R304). -/
def flitCrc (f : Flit) : BitVec 64 :=
  let b0 := packFields [(4, f.kind.toNat), b1 f.last, b1 f.poison, b1 f.ackValid]
  crc64 (leBytes 1 b0 ++ leBytes 3 (f.seq.toNat + 4096 * f.ack.toNat) ++ leBytes 2 f.stream.toNat ++
    leBytes 1 f.len.toNat ++ [0] ++ sliceBytes f.payload 0 240)

/-- A flit that passes its CRC and whose type is defined (R305, R307). -/
def flitGood (f : Flit) : Bool := f.crc == flitCrc f && decide (f.kind.toNat < 7)

/-- Types that take a seq (R305). -/
def sequenced (kind : BitVec 4) : Bool := kind == 1 || kind == 2 || kind == 3 || kind == 5

/-- The peer has delivered every flit up to seq `a`: they leave the replay buffer (R306). -/
def LinkState.acked (x : LinkState) (a : BitVec 12) : LinkState :=
  match x.replay.findIdx? (fun f => f.seq == a) with
  | none => x
  | some i => { x with replay := x.replay.drop (i + 1) }

/-- Free the ring positions whose last flit the peer has acknowledged (R316). -/
def State.freeAcked (s : State) (l : Link) : State :=
  let k := linkSkein l
  let live := (s.links[l]).replay.map (·.seq)
  let gone := fun (h : Nat × Option (BitVec 12)) => h.2.any (fun q => !live.contains q)
  (s.links[l]).tx.foldl (fun s t =>
    let s := (t.held.filter gone).foldl (fun s h => s.modSk k (·.modRing t.e.ring (·.free h.1))) s
    s.modLink l (fun x => { x with tx := x.tx.map (fun u =>
      if u.e.stream == t.e.stream then { u with held := u.held.filter (fun h => !gone h) } else u) })) s

/-- Take in a flit's acknowledgement. -/
def State.takeAck (s : State) (l : Link) (f : Flit) : State :=
  if f.ackValid then (s.modLink l (·.acked f.ack)).freeAcked l else s

/-- Count a REPLAY, sent or received; the third from a step's start to the end of its commit hold records 0x0502 and raises an ABORT
(R308). -/
def State.countReplay (s : State) (l : Link) : State :=
  let inStep := s.step.begun && s.step.phase != .idle
  let s := s.modLink l (fun x => { x with
    replaysStep := if inStep then satAdd 8 x.replaysStep 1 else x.replaysStep, replaysTotal := satAdd 24 x.replaysTotal 1 })
  if inStep && (s.links[l]).replaysStep = 3 then
    (s.modLink l (fun x => { x.note 0x0502 with budget := true })).abortCode 0x0502 l.val
  else s

/-- What becomes of a received flit of a type that takes a seq (R306, R307): none where it is discarded. -/
def State.receiveSeq (s : State) (l : Link) (f : Flit) : Option State :=
  if !flitGood f then none
  else if f.seq == (s.links[l]).rxNext then
    some ((s.takeAck l f).modLink l (fun x => { x with rxNext := x.rxNext + 1, askedAt := none }))
  else none

/-- The time that a replay asked for may take: the measured round trip and four slots at the link's rate (R300, R307; DESIGN CHOICE,
log 136). -/
def LinkState.replayTime (x : LinkState) : Time :=
  let slot : Nat := match x.rate.toNat with | 0 => 697 | 1 => 349 | 2 => 175 | _ => 88
  ceilDiv (17 * x.rtt.toNat) 16 + 4 * slot

/-- Ask the peer to resend from the first missing seq, unless an earlier request is still on its way (R307). -/
def LinkState.ask (x : LinkState) (reason : BitVec 8) (now : Time) : LinkState :=
  if x.askedAt.any (fun t => decide (now < t + x.replayTime)) then x else { x with replayDue := some reason, askedAt := some now }

/-- A discarded sequenced flit: a CRC failure or a gap asks for a replay of the first missing seq; a flit that comes after a replay has
failed to arrive exposes the gap again (R307). -/
def State.discardFlit (s : State) (l : Link) (f : Flit) : State :=
  if !flitGood f then s.modLink l (fun x => { x.ask 0 s.now with crcErr := satAdd 16 x.crcErr 1 })
  else
    let s := s.takeAck l f
    if ((f.seq - (s.links[l]).rxNext).toNat < 2048) then s.modLink l (·.ask 1 s.now) else s

/-- Device address of a handle's buffer on a ring (R208, R210). -/
def RingWiring.buffer (w : RingWiring) (k : Skein) (index : Nat) : Nat :=
  (if w.laneLocal then spindleBase (spindleOf k w.home) else 0) + w.bufferBase + index * w.bufferStride

/-- Change a receive stream. -/
def LinkState.modRx (x : LinkState) (stream : Nat) (f : StreamRx → StreamRx) : LinkState :=
  { x with rx := x.rx.map (fun r => if r.e.stream == stream then f r else r) }
/-- Change a transmit stream. -/
def LinkState.modTx (x : LinkState) (stream : Nat) (f : StreamTx → StreamTx) : LinkState :=
  { x with tx := x.tx.map (fun r => if r.e.stream == stream then f r else r) }

/-- Post the handles of a receive stream whose bytes memory has acknowledged, in order (R317). -/
def State.postRx (s : State) (l : Link) (stream : Nat) : Nat → State
  | 0 => s
  | fuel + 1 =>
    match (s.links[l]).rx.find? (fun r => r.e.stream == stream) with
    | none => s
    | some r =>
      match r.ready with
      | [] => s
      | (p, bytes) :: rest =>
        if r.owed.any (fun o => o.2 == p) then s
        else
          let count := (((s.skeins[linkSkein l]).ring r.e.ring).wiring.map (·.bufferCount)).getD 1
          let h : Word := BitVec.ofNat 32 (p % max 1 count + 4096 * ceilDiv bytes 256)
          let s := s.modSk (linkSkein l) (·.modRing r.e.ring (fun g => { g.fill p h with nextPost := p + 1 }))
          (s.modLink l (·.modRx stream (fun r => { r with ready := rest }))).postRx l stream fuel

/-- What a receive stream writes when it takes a flit: whole 32-byte units, the bytes left from the flits before it first; the end of a
handle fills its last unit (R221, R317; the fill is free, log 137). -/
def StreamRx.unit (r : StreamRx) (free : Nat) (data : List Byte) (last : Bool) : List Byte × List Byte :=
  let all := r.carry ++ data
  let n := all.length % 32
  if n = 0 then (all, [])
  else if last then (all ++ freeBytes free (32 - n), [])
  else (all.take (all.length - n), all.drop (all.length - n))

/-- A receive stream takes a flit out of staging: what it writes goes to the bytes from `r.bytes` of position `pos` (R317). -/
def StreamRx.take (r : StreamRx) (rest : List (List Byte × Bool × Bool)) (pos : Nat) (out carry : List Byte) (last bad : Bool) : StreamRx :=
  let total := r.bytes + out.length
  { r with
    staged := rest
    nextTag := r.nextTag + 1
    owed := if out.isEmpty then r.owed else r.owed ++ [(r.nextTag, pos)]
    creditsDue := if out.isEmpty then r.creditsDue + 1 else r.creditsDue
    carry := carry
    carryBad := !carry.isEmpty && bad
    bytes := if last then 0 else total
    pos := if last then r.pos + 1 else r.pos
    lasts := if last then r.lasts + 1 else r.lasts
    ready := if last then r.ready ++ [(pos, total)] else r.ready }

/-- Write a receive stream's staged flits to memory while its next ring position has space (R317). -/
def State.drainRx (s : State) (l : Link) (stream : Nat) : Nat → State
  | 0 => s
  | fuel + 1 =>
    match (s.links[l]).rx.find? (fun r => r.e.stream == stream) with
    | none => s
    | some r =>
      match r.staged with
      | [] => s
      | (data, last, poison) :: rest =>
        let k := linkSkein l
        let ring := (s.skeins[k]).ring r.e.ring
        match ring.wiring with
        | none => s
        | some w =>
          let pos := r.pos + w.preload
          if !ring.space pos then s
          else
            let a := w.buffer k (pos % max 1 w.bufferCount) + r.bytes
            let (out, carry) := r.unit s.fresh data last
            let bad := poison || r.carryBad
            let s := (s.modLink l (·.modRx stream (fun r => r.take rest pos out carry last bad))).nextFree
            let s :=
              if out.isEmpty then s
              else match (s.decodeAddr a).endpoint with
                | none => (s.modLink l (·.modRx stream (fun x => { x with owed := x.owed.filter (fun o => o.1 != r.nextTag) }))).abortCode 0x0981 l.val
                | some dst => s.send { kind := .write, src := dmaEndpoint k, dst := dst, vc := 1, owner := .link l stream,
                                       tag := r.nextTag, addr := a, bytes := out.length, data := out, poison := bad }
            (s.postRx l stream 64).drainRx l stream fuel

/-- A write of a receive stream is acknowledged: a flit leaves staging, which returns a credit (R317). -/
def State.streamAck (s : State) (l : Link) (stream tag : Nat) (status : Code) (a : Nat) : State :=
  let s := s.modLink l (·.modRx stream (fun r => { r with
    owed := r.owed.filter (fun o => o.1 != tag), creditsDue := r.creditsDue + 1 }))
  let s := if status = 0 then s else s.abort { code := status, unit := BitVec.ofNat 16 l.val, addr := BitVec.ofNat 64 a }
  (s.postRx l stream 64).drainRx l stream 2048

/-- Read bytes by device address for a link's DMA block, from memory through its die's creel or from a spindle's window; with whether they
are uncorrectable (R225, R234, R260). -/
def State.readDevice (s : State) (l : Link) (a n : Nat) : State × List Byte × Bool :=
  match s.decodeAddr a with
  | .spindle i o => (s, (s.spindles[i]).readBytes s.fresh o n, (s.spindles[i]).bad o n)
  | _ => s.readRange (linkDie l) a n

/-- Queue a TICK on every link that sends it on (R310). -/
def State.sendTick (s : State) (p : TickPayload) : State :=
  { s with links := s.links.map (fun l => if l.phase == .up && l.tickDown then { l with tickDue := some p } else l) }

end Sys2Proof.Machine
end

