-- ==== Sys2Proof/Machine/GridOps.lean ====
section
/-!
DEFINITION. Pass descriptors and fused-chain descriptors: fields, checks, timing and the bytes they protect (R60, R68 to R72,
R75, R87 to R89, R141, R142, R146 to R148).
-/
namespace Sys2Proof.Machine

/-- Width class of a format class (R89). -/
def widthClass : Nat → Nat
  | 0 => 0 | 1 => 0 | 2 => 1 | 3 => 1 | 5 => 1 | _ => 2

/-- Weights per cell (R60). -/
def PassDesc.perCell (d : PassDesc) : Nat := match widthClass d.cls with | 0 => 1 | 1 => 2 | _ => 4

/-- An MX class (R60). -/
def PassDesc.isMx (d : PassDesc) : Bool := d.cls == 3 || d.cls == 4
/-- An integer class. -/
def PassDesc.isInt (d : PassDesc) : Bool := d.cls == 5 || d.cls == 6

/-- Bytes of a streamed A row (R68, R72). -/
def PassDesc.rowBytes (d : PassDesc) : Nat :=
  match d.shape with
  | 0 => 256
  | 3 => if widthClass d.cls = 0 then 256 else 128
  | _ => 512

/-- Elements of a streamed A row. -/
def PassDesc.rowElems (d : PassDesc) : Nat :=
  match widthClass d.cls with | 0 => d.rowBytes / 2 | 1 => d.rowBytes | _ => d.rowBytes * 2

/-- Latency in sc (R69). -/
def PassDesc.latency (d : PassDesc) : Nat :=
  match d.shape with | 0 => d.m + 266 | 1 => d.m + 138 | 2 => d.m + 202 | _ => d.m + 14

/-- Start interval in sc (R69). -/
def PassDesc.interval (d : PassDesc) : Nat :=
  match d.shape with | 0 => d.m + 254 | 1 => d.m + 126 | 2 => d.m + 190 | _ => d.m + 14

/-- Bytes of weight scales (R60, R93). -/
def PassDesc.wScaleBytes (d : PassDesc) : Nat := match d.cls with | 3 => 1024 | 4 => 2048 | _ => 0

/-- Bytes of one row's A scales (R93). -/
def PassDesc.aScaleBytes (d : PassDesc) : Nat := if d.isMx then d.rowElems / 32 else 0

/-- The fields of the 64 bytes of a pass descriptor (R87). -/
def parsePass (b : List Byte) : PassDesc :=
  let f := field b 1 1
  let mode := field b 2 1
  let cls := f % 16
  { shape := field b 0 1, cls := cls, aVar := bit f 4, bVar := bit f 5, accumulate := bit mode 0, reuse := bit mode 1
    m := field b 4 2 + 1, accRow := field b 6 2, aAddr := field b 8 4, aStride := field b 0xC 4, wAddr := field b 0x10 4
    wStride := field b 0x14 4, scaleAddr := field b 0x18 4, fusedAddr := field b 0x1C 4
    tag := BitVec.ofNat 32 (field b 0x20 4)
    clean := decide (field b 0 1 < 4) && decide (cls < 7) && decide (f / 64 = 0) && decide (mode / 4 = 0) &&
      decide (field b 3 1 = 0) && allZero (sliceBytes b 0x24 28) &&
      (decide (f / 16 % 4 = 0) || cls == 2 || cls == 3 || cls == 5 || cls == 6) }

/-- The scratchpad bytes at an offset. -/
def SpindleState.scr (x : SpindleState) (o n : Nat) : List Byte := Cells.read 0 x.scratch o n

/-- The A rows of a pass. -/
def PassDesc.aRows (d : PassDesc) : List (Nat × Nat) := stridedRows d.aAddr d.aStride d.rowBytes d.m

/-- The weight block, or in the Hadamard shape the B rows. -/
def PassDesc.wRows (d : PassDesc) : List (Nat × Nat) :=
  if d.shape = 3 then stridedRows d.wAddr d.wStride d.rowBytes d.m else [(d.wAddr, 0x8000)]

/-- The scale area. -/
def PassDesc.scaleRange (d : PassDesc) : List (Nat × Nat) :=
  if d.isMx then [(d.scaleAddr, d.wScaleBytes + d.m * d.aScaleBytes)] else []

/-- The scales that a pass reads: one that reuses weights reads its A scales alone (R66). -/
def PassDesc.readScales (d : PassDesc) : List (Nat × Nat) :=
  if d.isMx && d.reuse then [(d.scaleAddr + d.wScaleBytes, d.m * d.aScaleBytes)] else d.scaleRange

/-- The bank groups that ranges touch (R58). -/
def groupsOf (l : List (Nat × Nat)) : List Nat :=
  (List.range 3).filter (fun g => l.any (fun r => decide (r.1 < (g + 1) * 0x200000) && decide (g * 0x200000 < r.1 + r.2)))

/-- Every range ends inside the scratchpad. -/
def inScratch (l : List (Nat × Nat)) : Bool := l.all (fun r => decide (r.1 + r.2 ≤ 0x600000))

/-- Two lists of ranges share a byte. -/
def overlap (a b : List (Nat × Nat)) : Bool :=
  a.any (fun r => b.any (fun q => decide (0 < r.2) && decide (0 < q.2) && decide (r.1 < q.1 + q.2) && decide (q.1 < r.1 + r.2)))

/-- A pass descriptor that breaks none of the conditions of R88, given the pass issued before it in the step, the class that
loaded the weights it would reuse, and whether the spindle is an ingest spindle. `trigA` and `trigW` say that a handle will
supply that operand's address. -/
def PassDesc.ok (d : PassDesc) (at_ : Nat) (prev : Option PassDesc) (load : Option Nat) (ingest trigA trigW : Bool) : Bool :=
  let had := d.shape == 3
  d.clean && decide (at_ + 64 ≤ 0x600000) &&
  (!had || d.cls == 0 || d.cls == 1 || d.cls == 2 || d.cls == 5) &&
  decide (d.m ≤ 4096) && (d.shape != 1 || decide (d.m ≤ 2048)) && decide (d.accRow + d.rows ≤ 4096) &&
  decide (d.aAddr % 256 = 0) && decide (d.wAddr % 256 = 0) &&
  decide (d.aStride % 256 = 0) && decide (d.rowBytes ≤ d.aStride) &&
  (if had then decide (d.wStride % 256 = 0) else d.wStride == 0) &&
  (trigA || inScratch d.aRows) && (trigW || inScratch d.wRows) && inScratch d.scaleRange &&
  (ingest || trigA || trigW || !((groupsOf d.aRows).any ((groupsOf d.wRows).contains ·))) &&
  (ingest || !d.isMx || (groupsOf d.scaleRange).all (· == 2)) &&
  (!d.reuse || prev.any (fun p => p.shape == d.shape && widthClass p.cls == widthClass d.cls)) &&
  (!(d.reuse && d.isMx) || load == some d.cls)

/-- The pacer charge of a pass in nJ (R89). -/
def PassDesc.charge (d : PassDesc) (coef : Nat → Nat) : Nat := ceilDiv (coef (4 * d.shape + widthClass d.cls) * d.m) 1024

/-- The fields of the 128 bytes of a fused-chain descriptor (R146). -/
def parseChain (b : List Byte) : ChainDesc :=
  let fl := field b 4 1
  let w := fun o => field b o 4
  { entry := field b 0 1, act := field b 1 1 % 8, outFormat := field b 2 1, rounding := field b 3 1 % 8
    dest := bit fl 0, hasCol := bit fl 1, hasRow := bit fl 2, statFirst := bit fl 3, statLast := bit fl 4
    trigger := bit fl 5, trigW := bit fl 6, trigRing := field b 5 1 % 32, resFormat := field b 6 1
    outAddr := w 0x08, outStride := w 0x0C, mxAddr := w 0x10, mxStride := w 0x14, resAddr := w 0x18, resStride := w 0x1C
    statIn := w 0x20, statOut := w 0x24, eps := BitVec.ofNat 32 (w 0x28), rowpAddr := w 0x2C, tileIndex := field b 0x30 2
    colOff := w 0x34, biasOff := w 0x38, rowOff := w 0x3C, gammaOff := w 0x40, betaOff := w 0x44, colBase := w 0x48
    rowBase := w 0x4C, kBase := w 0x50, tensorId := BitVec.ofNat 32 (w 0x54), elemBase := field b 0x58 8
    elemPitch := field b 0x60 8, recordAddr := BitVec.ofNat 64 (field b 0x68 8)
    clean := decide (field b 0 1 < 24) && decide (field b 1 1 < 6) && decide (field b 2 1 < 13) &&
      decide (field b 3 1 < 8) && decide (field b 3 1 % 4 ≠ 3) && decide (fl < 128) && decide (field b 5 1 < 32) &&
      decide (field b 6 1 < 3) && decide (field b 7 1 = 0) && decide (field b 0x32 2 = 0) && allZero (sliceBytes b 0x70 16) }

/-- The entry has a scale stage (R141). -/
def ChainDesc.scales (c : ChainDesc) : Bool := [2, 4, 7, 10, 11, 13, 17].contains c.entry
/-- The entry has a bias stage (R141). -/
def ChainDesc.biases (c : ChainDesc) : Bool := [1, 2, 3, 4, 6, 7, 8, 9, 10, 12, 13, 16, 17, 20].contains c.entry
/-- The entry has an activation stage (R141). -/
def ChainDesc.acts (c : ChainDesc) : Bool := [3, 4, 5, 8, 12, 13].contains c.entry
/-- The entry has a residual stage (R141). -/
def ChainDesc.residual (c : ChainDesc) : Bool := decide (6 ≤ c.entry) && decide (c.entry ≤ 10)
/-- The entry has a prologue (R141). -/
def ChainDesc.prologue (c : ChainDesc) : Bool := decide (18 ≤ c.entry)
/-- The prologue applies a layer norm. -/
def ChainDesc.layerNorm (c : ChainDesc) : Bool := c.entry == 19 || c.entry == 20
/-- The prologue applies an RMS norm. -/
def ChainDesc.rmsNorm (c : ChainDesc) : Bool := c.entry == 21 || c.entry == 22
/-- The prologue reads row parameters (R145). -/
def ChainDesc.rowParams (c : ChainDesc) : Bool := decide (19 ≤ c.entry)

/-- Bytes of a residual element (R146). -/
def ChainDesc.resBytes (c : ChainDesc) : Nat := if c.resFormat = 0 then 4 else 2

/-- The residual rows a chain reads. -/
def ChainDesc.resRows (c : ChainDesc) (n : Nat) : List (Nat × Nat) :=
  if c.residual then stridedRows c.resAddr c.resStride (128 * c.resBytes) n else []
/-- The running row-statistic area a chain reads (R150). -/
def ChainDesc.statInRange (c : ChainDesc) (n : Nat) : List (Nat × Nat) :=
  if c.stats && !c.statFirst then [(c.statIn, 32 + 16 * n)] else []
/-- The final row-statistic area a prologue reads (R150, R153). -/
def ChainDesc.rowpRange (c : ChainDesc) (n : Nat) : List (Nat × Nat) :=
  if c.rowParams then [(c.rowpAddr, 32 + 16 * (c.rowBase + n))] else []
/-- The vectors a chain reads, as ranges of the epilogue buffer (R143, R145). -/
def ChainDesc.vectors (c : ChainDesc) (n : Nat) : List (Nat × Nat) :=
  (if c.scales && c.hasCol then [(c.colOff + 4 * c.colBase, 512)] else []) ++
  (if c.scales && c.hasRow then [(c.rowOff + 4 * c.rowBase, 4 * n)] else []) ++
  (if c.biases then [(c.biasOff + 4 * c.colBase, 512)] else []) ++
  (if c.layerNorm || c.rmsNorm then [(c.gammaOff + 4 * c.kBase, 512)] else []) ++
  (if c.layerNorm then [(c.betaOff + 4 * c.kBase, 512)] else [])

/-- A fused-chain descriptor that breaks none of the conditions of R140, R142, R147 and R151 for its pass. -/
def ChainDesc.ok (c : ChainDesc) (d : PassDesc) : Bool :=
  let n := d.rows
  c.clean && decide (d.fusedAddr % 8 = 0) && decide (d.fusedAddr + 128 ≤ 0x600000) &&
  (!c.prologue || decide (d.cls < 2)) &&
  (!(c.stats || c.prologue) || d.shape == 0 || d.shape == 2) &&
  (!c.gates || d.shape == 2) &&
  (!c.residual || !d.isMx) &&
  (if c.quantises then decide (10 ≤ c.outFormat) && !c.dest else decide (c.outFormat < 10)) &&
  (!c.gates || !c.dest) &&
  (!c.dest || c.outFormat == 0 || (c.outFormat == 5 && c.entry == 0 && d.isInt)) &&
  decide (c.outAddr % 64 = 0) && decide (c.resAddr % 64 = 0) && decide (c.statIn % 64 = 0) && decide (c.statOut % 64 = 0) &&
  decide (c.outStride % 64 = 0) && (c.dest || decide (c.outBytes ≤ c.outStride)) && decide (c.resStride % 64 = 0) &&
  (!c.quantises || decide (4 ≤ c.mxStride)) &&
  [c.colOff, c.biasOff, c.rowOff, c.gammaOff, c.betaOff].all (fun o => decide (o % 4 = 0)) &&
  inScratch (c.outRows n) && inScratch (c.mxRows n) && inScratch (c.resRows n) && inScratch (c.statInRange n) &&
  inScratch (c.statOutRange n) && inScratch (c.rowpRange d.m) &&
  (c.vectors n).all (fun r => decide (r.1 + r.2 ≤ 0x3A000)) &&
  !overlap (c.outRows n ++ c.mxRows n) (c.resRows n ++ c.statInRange n ++ c.rowpRange d.m) &&
  !overlap (c.statOutRange n) (c.statInRange n) &&
  (!c.stats || !c.statFirst || c.tileIndex == 0)

/-- Window offsets that an armed or issued pass protects on account of its chain (R148). -/
def Pass.chainRanges (p : Pass) : List (Nat × Nat) :=
  match p.chain with
  | none => []
  | some c =>
    let n := p.desc.rows
    (p.desc.fusedAddr, 128) :: c.written n ++ c.resRows n ++ c.statInRange n ++ c.rowpRange p.desc.m ++ (c.vectors n).map (fun r => (0x600000 + r.1, r.2))

/-- Window offsets that an issued pass protects (R75, R148). -/
def Pass.ranges (p : Pass) : List (Nat × Nat) :=
  let d := p.desc
  (p.descAddr, 64) :: (0x800000 + 512 * d.accRow, 512 * d.rows) :: d.aRows ++
    (if d.shape = 3 then d.wRows else [(p.blockAddr, 0x8000)]) ++ d.readScales ++ p.chainRanges

/-- The passes that protect a byte of the ranges: issued ones all their bytes, armed ones those of their chains (R75, R148). -/
def SpindleState.protectors (x : SpindleState) (rs : List (Nat × Nat)) : List Pass :=
  x.passes.filter (fun p => overlap p.ranges rs) ++ x.armed.filter (fun p => overlap p.chainRanges rs)

/-- A write of the range by another agent meets a protected byte (R75, R148). -/
def SpindleState.protects (x : SpindleState) (o n : Nat) : Bool := !(x.protectors [(o, n)]).isEmpty

end Sys2Proof.Machine
end

