-- ==== Sys2Proof/Machine/Transcend.lean ====
section
/-!
DEFINITION. The exact values of the fixed functions, in fixed point far below the last place of FP32, and the bound of two units in the last
place that their results keep (R144, R152, R170).
-/
namespace Sys2Proof.Machine

/-- Fraction bits of the fixed-point numbers. -/
def fixBits : Nat := 640
/-- One. -/
def fixOne : Int := 2 ^ fixBits
/-- A product. -/
def fixMul (a b : Int) : Int := a * b / fixOne
/-- A quotient. -/
def fixDiv (a b : Int) : Int := a * fixOne / b
/-- A finite number with no bit below the fraction, as every FP32 number is. -/
def fixOf (neg : Bool) (m : Nat) (e : Int) : Int := (if neg then -1 else 1) * ((m * 2 ^ (e + fixBits).toNat : Nat) : Int)
/-- A fixed-point number as a value. -/
def fixVal (y : Int) : Val := .fin (decide (y < 0)) y.natAbs (-(fixBits : Int))

/-- The series of e^r, from its n-th term inwards. -/
def expSeries (r : Int) : Nat → Int → Int
  | 0, acc => acc
  | n + 1, acc => expSeries r n (fixOne + fixMul r acc / ((n : Int) + 1))

/-- Square n times. -/
def fixSquares : Nat → Int → Int
  | 0, y => y
  | n + 1, y => fixSquares n (fixMul y y)

/-- e^x for |x| ≤ 128. -/
def fixExp (x : Int) : Int := fixSquares 8 (expSeries (x / 256) 100 fixOne)

/-- z + z³/3 + z⁵/5 + …, or with alternating signs where `s` is -1: n more terms, with the power and the divisor of the next. -/
def oddSeries (zz s : Int) : Nat → Int → Int → Int → Int
  | 0, _, _, acc => acc
  | n + 1, p, k, acc => oddSeries zz s n (s * fixMul p zz) (k + 2) (acc + p / k)

/-- ln of m × 2^e, m ≠ 0: e ln 2 and 2 artanh ((t - 1)/(t + 1)) for t between 1 and 2. -/
def fixLn (m : Nat) (e : Int) : Int :=
  let artanh := fun (z : Int) => oddSeries (fixMul z z) 1 220 z 1 0
  let t : Int := ((m * 2 ^ (fixBits - m.log2) : Nat) : Int)
  2 * artanh (fixDiv (t - fixOne) (t + fixOne)) + (e + (m.log2 : Int)) * (2 * artanh (fixOne / 3))

/-- arctan (1/k). -/
def arctanInv (k : Int) : Int := oddSeries (fixOne / (k * k)) (-1) 150 (fixOne / k) 1 0

/-- π. -/
def fixPi : Int := 4 * (4 * arctanInv 5 - arctanInv 239)

/-- The square root of a natural number, rounded down. -/
def isqrt (n : Nat) : Nat := isqrtFrom n (n.log2 / 2 + 1) 0

/-- 1 - t/3 + t²/(2!·5) - …: n more terms, with the present power over its factorial. -/
def normalSeries (t : Int) : Nat → Int → Int → Int → Int
  | 0, _, _, acc => acc
  | n + 1, p, k, acc => normalSeries t n (-(fixMul p t / (k + 1))) (k + 1) (acc + p / (2 * k + 1))

/-- ½ (1 + erf (x / √2)) for |x| ≤ 16. -/
def fixNormal (x : Int) : Int :=
  let root : Int := (isqrt ((2 * fixPi).toNat * 2 ^ fixBits) : Nat)
  fixOne / 2 + fixDiv (fixMul x (normalSeries (fixMul x x / 2) 900 fixOne 0 0)) root

/-- The exact result of an activation of a finite number, codes 1 to 5 of R144. Far out, where the function is nearer to its limit than a
result can show, it is the limit. -/
def exactAct (code : Nat) (x : Int) : Int :=
  let beyond := fun (k : Int) => decide (k * fixOne ≤ x.natAbs)
  let e := fun (y : Int) => fixExp y
  match code with
  | 1 => if beyond 16 then max x 0 else fixMul x (fixNormal x)
  | 2 => if beyond 128 then max x 0 else fixMul x (fixDiv (e x) (fixOne + e x))
  | 3 => if beyond 64 then (if x < 0 then -fixOne else fixOne) else fixDiv (e (2 * x) - fixOne) (e (2 * x) + fixOne)
  | 4 => if beyond 128 then (if x < 0 then 0 else fixOne) else fixDiv (e x) (fixOne + e x)
  | _ => if beyond 128 then (if x < 0 then 0 else fixOne * 2 ^ 160) else e x

/-- The unit in the last place of FP32 at a fixed-point number. -/
def fixUlp (y : Int) : Int := 2 ^ (max ((y.natAbs.log2 : Int) - 23) ((fixBits : Int) - 149)).toNat

/-- A result lies within 2 units in the last place of the exact value; the series leave the exact value open by far less than the 2^64th of
a unit allowed here. -/
def within2 (y : Int) (r : Val) : Bool :=
  match r with
  | .fin n m e => decide (2 ^ 64 * ((fixOf n m e - y).natAbs : Int) ≤ (2 ^ 65 + 1) * fixUlp y)
  | _ => false

/-- The result of a fixed function with the exact value y: the free value where it keeps the bound, else the nearest FP32 number. -/
def boundedResult (y : Int) (free : Word) : Val :=
  let r := fp32.decode false free.toNat
  if within2 y r then r else (fp32.rnd (fixVal y)).1

end Sys2Proof.Machine
end

