-- ==== Sys2Proof/Machine/NumOps.lean ====
section
/-!
DEFINITION. Activations and the other fixed functions, numeric reports, statistics records (R108 to R118, R144, R152, R170).
-/
namespace Sys2Proof.Machine

/-- A value in flight from the FP32 bits of a free function. -/
def ofWord (w : Word) : Val := fp32.decode false w.toNat

/-- The FP32 bits of a value in flight. -/
def wordOf (v : Val) : Word := BitVec.ofNat 32 (fp32.encode v).1

/-- An activation of R144 with whether a finite input gave an infinity: in the ordinary range a free value within 2 units in the last place of
the exact one. -/
def activate (code : Nat) (v : Val) : Val × Bool :=
  match v with
  | .nan g => (.nan g, false)
  | .inf true =>
    (match code with | 0 => .zero | 1 => .fin true 0 0 | 2 => .fin true 0 0 | 3 => .fin true 1 0 | 4 => .zero | _ => .zero, false)
  | .inf false =>
    (match code with | 0 => .inf false | 1 => .inf false | 2 => .inf false | 3 => .one | 4 => .one | _ => .inf false, false)
  | .fin n m e =>
    if code = 0 then (if n then .zero else .fin n m e, false)
    else if n && m == 0 then
      (match code with | 1 => .fin true 0 0 | 2 => .fin true 0 0 | 3 => .fin true 0 0 | 4 => .fin false 1 (-1) | _ => .one, false)
    else
      let y := exactAct code (fixOf n m e)
      let (top, ex) := fp32.mag fp32.top
      if fixOf false top ex < y then (.inf false, true)
      else (boundedResult y (Config.activation code (wordOf (.fin n m e))), false)

/-- exp in FP32: activation 5 (R149). -/
def expVal (v : Val) : Val := (activate 5 v).1

/-- The reciprocal square root, within 2 units in the last place (R152, R170). -/
def rsqrtVal (v : Val) : Val :=
  match v with
  | .nan g => .nan g
  | .inf true => .nan true
  | .inf false => .zero
  | .fin n m e =>
    if m = 0 then .inf n
    else if n then .nan true
    else boundedResult (isqrt (2 ^ (3 * fixBits - (e + fixBits).toNat) / m) : Nat) (Config.rsqrt (wordOf (.fin n m e)))

/-- The natural logarithm, within 2 units in the last place (R152, R170). -/
def lnVal (v : Val) : Val :=
  match v with
  | .nan g => .nan g
  | .inf true => .nan true
  | .inf false => ofWord (Config.ln (wordOf (.inf false)))
  | .fin n m e =>
    if m = 0 && !n then .inf true
    else if n && m != 0 then .nan true
    else if m = 0 then ofWord (Config.ln (wordOf (.fin n m e)))
    else boundedResult (fixLn m e) (Config.ln (wordOf (.fin n m e)))

/-- A flag of R108 when a condition holds. -/
def flagIf (b : Bool) (i : Nat) : BitVec 7 := if b then 1#7 <<< i else 0

/-- Add two reports of one completion: its first place is the lowest row, then the lowest column (R114); of two codes the first holds. -/
def NumRep.add (a b : NumRep) : NumRep :=
  { flags := a.flags ||| b.flags, invalid := a.invalid + b.invalid, nanIn := a.nanIn + b.nanIn, ovf := a.ovf + b.ovf
    sat := a.sat + b.sat, storeOvf := a.storeOvf + b.storeOvf, storeUnf := a.storeUnf + b.storeUnf
    first := match a.first, b.first with
      | some p, some q => some (if q.1 < p.1 || (q.1 == p.1 && decide (q.2 < p.2)) then q else p)
      | some p, none => some p
      | none, q => q
    code := if a.code = 0 then b.code else a.code }

/-- The report of several operations that make one output element: a counter takes the element once (R119). -/
def NumRep.once (r : NumRep) : NumRep :=
  { r with invalid := min r.invalid 1, nanIn := min r.nanIn 1, ovf := min r.ovf 1, sat := min r.sat 1 }

/-- The fault code of a report under a mask: the lowest masked exception (R111, R112), before a store's own fault (log 125). -/
def NumRep.fault (r : NumRep) (mask : BitVec 7) : Code :=
  match (List.range 7).find? (fun i => (r.flags &&& mask).getLsbD i) with
  | some i => BitVec.ofNat 16 (0x0301 + i)
  | none => r.code

/-- Take a report into the NUM_ block at a completion (R109, R110, R114). -/
def Num.take (n : Num) (r : NumRep) (tag : Word) : Num :=
  let n := { n with
    flags := n.flags ||| r.flags
    invalidCount := satAdd 32 n.invalidCount r.invalid
    nanInCount := satAdd 32 n.nanInCount r.nanIn
    ovfCount := satAdd 32 n.ovfCount r.ovf
    satCount := satAdd 32 n.satCount r.sat
    storeOvf := satAdd 16 n.storeOvf r.storeOvf
    storeUnf := satAdd 16 n.storeUnf r.storeUnf }
  match r.first with
  | some (row, col) =>
    if n.firstValid then n
    else { n with firstValid := true, firstTag := tag, firstRow := BitVec.ofNat 12 row, firstCol := BitVec.ofNat 7 col }
  | none => n

/-- NUM_FIRST_POS (R119). -/
def Num.firstPos (n : Num) : Word :=
  BitVec.ofNat 32 (packFields [(12, n.firstRow.toNat), (7, n.firstCol.toNat), (12, 0), b1 n.firstValid])

/-- A numeric fault: latched, the spindle starts no further pass or routine, and the step aborts without a re-run (R111,
R113). A second one of the step leaves fault_code as it is (log 124). -/
def State.numFault (s : State) (i : Spindle) (c : Code) : State :=
  if c = 0 then s
  else
    let s := s.modSp i (fun x => { x with
      barred := true
      vec := { x.vec with barred := true }
      num := if x.num.fault then x.num else { x.num with fault := true, faultCode := c.setWidth 8 } })
    let n := (s.spindles[i]).num
    s.abort { code := c, unit := BitVec.ofNat 16 i.val, aux0 := n.firstTag, aux1 := n.firstPos }

/-- Add one to a counter of a record (R117): the new count, and whether it stopped. -/
def recCount (n : Nat) : Nat × Bool := if n < 2 ^ 32 - 1 then (n + 1, false) else (n, true)

/-- What one stored element contributes to its record (R115). -/
structure Contribution where
  index : Nat
  value : Val
  ovf : Bool
  unf : Bool
  deriving DecidableEq, Repr

/-- The class of a value (R115): zero, subnormal, infinite, generated, propagated, or a bin; 5 + bin for a bin. -/
def recClass (f : Fmt) (isInt : Bool) (v : Val) : Nat :=
  match v with
  | .nan g => if g then 3 else 4
  | .inf _ => 2
  | .fin _ m e =>
    if m = 0 then 0
    else
      let l := log2Of m e
      if isInt then 5 + (l + 64).toNat
      else if l < f.lsb + f.mbits then 1
      else 5 + ((clampTo (-64) 63 l).1 + 64).toNat

/-- Contribute one element to a record (R115, R117). -/
def StatRec.contribute (r : StatRec) (f : Fmt) (x : Contribution) : StatRec :=
  let r := { r with elements := r.elements + 1 }
  let r := match recClass f r.isInt x.value with
    | 0 => let (n, s) := recCount r.zero; { r with zero := n, saturated := r.saturated || s }
    | 1 => let (n, s) := recCount r.subnormal; { r with subnormal := n, saturated := r.saturated || s }
    | 2 => let (n, s) := recCount r.inf; { r with inf := n, saturated := r.saturated || s }
    | 3 =>
      let (n, s) := recCount r.nanGen
      { r with nanGen := n, saturated := r.saturated || s, firstInvalid := min r.firstInvalid x.index }
    | 4 => let (n, s) := recCount r.nanProp; { r with nanProp := n, saturated := r.saturated || s }
    | b + 5 =>
      let (n, s) := recCount (Cells.get 0 r.bins b)
      { r with bins := Cells.put 0 r.bins b n, saturated := r.saturated || s }
  let r := if x.ovf then let (n, s) := recCount r.overflow; { r with overflow := n, saturated := r.saturated || s } else r
  if x.unf then let (n, s) := recCount r.underflow; { r with underflow := n, saturated := r.saturated || s } else r

/-- Add two counters of a record (R117). -/
def recAdd (a b : Nat) : Nat × Bool := if a + b < 2 ^ 32 then (a + b, false) else (2 ^ 32 - 1, true)

/-- Merge two records of one address (R117). -/
def StatRec.merge (a b : StatRec) : StatRec :=
  let bins := b.bins.foldl (fun (acc : Cells Nat × Bool) p =>
    let (n, s) := recAdd (Cells.get 0 acc.1 p.1) p.2
    (Cells.put 0 acc.1 p.1 n, acc.2 || s)) (a.bins, false)
  let z := recAdd a.zero b.zero
  let sn := recAdd a.subnormal b.subnormal
  let i := recAdd a.inf b.inf
  let g := recAdd a.nanGen b.nanGen
  let p := recAdd a.nanProp b.nanProp
  let o := recAdd a.overflow b.overflow
  let u := recAdd a.underflow b.underflow
  { a with
    elements := a.elements + b.elements, firstInvalid := min a.firstInvalid b.firstInvalid
    zero := z.1, subnormal := sn.1, inf := i.1, nanGen := g.1, nanProp := p.1, overflow := o.1, underflow := u.1
    bins := bins.1
    saturated := a.saturated || b.saturated || bins.2 || z.2 || sn.2 || i.2 || g.2 || p.2 || o.2 || u.2 }

/-- Two contributions to one address agree (R117). -/
def StatRec.agrees (a b : StatRec) : Bool := a.tensorId == b.tensorId && a.format == b.format && a.isInt == b.isInt

/-- Contribute elements to a spindle's slot of a record, opening it where it is new: 0x0311 past 16 slots, 0x0314 where the
contributions disagree (R116, R117). -/
def Num.contribute (n : Num) (r : StatRec) (f : Fmt) (xs : List Contribution) : Num × Code :=
  if r.addr = BitVec.allOnes 64 ∨ xs.isEmpty then (n, 0)
  else match n.slots.find? (fun q => q.addr == r.addr) with
    | some q =>
      if q.agrees r then
        ({ n with slots := n.slots.map (fun y => if y.addr == r.addr then xs.foldl (·.contribute f) y else y) }, 0)
      else (n, 0x0314)
    | none =>
      if n.slots.length < 16 then ({ n with slots := n.slots ++ [xs.foldl (·.contribute f) r] }, 0) else (n, 0x0311)

/-- Merge a spindle's slots into the device's statistics table: 0x0312 past 256 records, 0x0314 where they disagree (R116,
R117); of several codes the first met in the order of the slots (log 126). -/
def State.mergeStats (s : State) (i : Spindle) : State :=
  let slots := (s.spindles[i]).num.slots
  let s := s.modSp i (fun x => { x with num := { x.num with slots := [] } })
  let (table, code) := slots.foldl (fun (acc : List StatRec × Code) r =>
    match acc.1.find? (fun q => q.addr == r.addr) with
    | some q =>
      if q.agrees r then (acc.1.map (fun y => if y.addr == r.addr then y.merge r else y), acc.2)
      else (acc.1, if acc.2 = 0 then 0x0314 else acc.2)
    | none =>
      if acc.1.length < 256 then (acc.1 ++ [r], acc.2) else (acc.1, if acc.2 = 0 then 0x0312 else acc.2)) (s.stats, 0)
  ({ s with stats := table }).numFault i code

/-- The 640 bytes of a statistics record (R118). -/
def StatRec.bytes (r : StatRec) (step : Nat) : List Byte :=
  [0x59, 0x4B, 0x53, 0x54] ++ leBytes 4 r.tensorId.toNat ++ leBytes 1 r.format ++
  leBytes 1 (packFields [b1 r.saturated, b1 r.isInt]) ++ leBytes 6 0 ++ leBytes 8 r.elements ++ leBytes 8 step ++
  leBytes 8 r.firstInvalid ++ leBytes 4 r.zero ++ leBytes 4 r.subnormal ++ leBytes 4 r.inf ++ leBytes 4 r.nanGen ++
  leBytes 4 r.nanProp ++ leBytes 4 r.overflow ++ leBytes 4 r.underflow ++ leBytes 60 0 ++
  (List.range 128).flatMap (fun b => leBytes 4 (Cells.get 0 r.bins b))

/-- The pattern seed in effect (R106). -/
def State.seed (s : State) : Nat := ((s.dist.active.getD [] : Image) |> fun im => field im 0x10 8)

end Sys2Proof.Machine
end

