-- ==== Sys2Proof/Machine/GridMath.lean ====
section
/-!
DEFINITION. What a pass computes: operand elements, the cells of a column, the prologue, the epilogue stages, the row
statistic and the stores of a chain (R61 to R63, R70 to R72, R93 to R107, R140 to R160).
-/
namespace Sys2Proof.Machine

/-- The raw code of element `j` of a vector of elements that begins at byte 0 of `f` (R61, R92). -/
def rawElem (width : Nat) (f : Nat → Byte) (j : Nat) : Nat :=
  match width with
  | 0 => (f (2 * j)).toNat + 256 * (f (2 * j + 1)).toNat
  | 1 => (f j).toNat
  | _ => (f (j / 2)).toNat / 16 ^ (j % 2) % 16

/-- The operand value of a raw code (R91, R92). -/
def operandVal (cls : Nat) (var : Bool) (raw : Nat) : Val :=
  match cls with
  | 0 => bf16.decode false raw
  | 1 => fp16.decode false raw
  | 2 | 3 => (if var then e5m2 else e4m3).decode false raw
  | 4 => e2m1.decode false raw
  | 5 => .ofInt (if var then (raw : Int) else (BitVec.ofNat 8 raw).toInt)
  | _ => .ofInt (if var then (raw : Int) else (BitVec.ofNat 4 raw).toInt)

/-- A scratchpad byte. -/
def SpindleState.sb (x : SpindleState) (o : Nat) : Byte := Cells.get 0 x.scratch o

/-- Apply an MX scale to an element (R93, R95): a scale of 0xFF makes it an input NaN. -/
def mxScale (v : Val) (b : Byte) : Val :=
  match e8m0 b with
  | none => .nan false
  | some k => v.scale k

/-- Sub-grids of a shape. -/
def PassDesc.grids (d : PassDesc) : Nat := match d.shape with | 1 => 4 | 2 => 2 | _ => 1
/-- Columns of a sub-grid (R68). -/
def PassDesc.gridCols (d : PassDesc) : Nat := match d.shape with | 1 => 64 | 2 => 64 | _ => 128
/-- Grid rows of a sub-grid (R68). -/
def PassDesc.gridRows (d : PassDesc) : Nat := if d.shape = 1 then 64 else 128

/-- Element j of streamed row m, before any prologue (R61, R70, R71, R93). -/
def SpindleState.aElem (x : SpindleState) (d : PassDesc) (m j : Nat) : Val :=
  let base := d.aAddr + m * d.aStride
  let v := operandVal d.cls d.aVar (rawElem (widthClass d.cls) (fun o => x.sb (base + o)) j)
  if d.isMx then mxScale v (x.sb (d.scaleAddr + d.wScaleBytes + m * d.aScaleBytes + j / 32)) else v

/-- Weight k of column n of sub-grid g (R61, R70, R71, R93). -/
def WeightSet.elem (w : WeightSet) (d : PassDesc) (g k n : Nat) : Val :=
  let c := d.perCell
  let base := 32768 / d.grids * g + k / c * (2 * d.gridCols) + 2 * n
  let v := operandVal d.cls d.bVar (rawElem (widthClass d.cls) (fun o => (w.block[base + o]?).getD 0) (k % c))
  if d.isMx then mxScale v ((w.scales[d.wScaleBytes / d.grids * g + k / 32 * d.gridCols + n]?).getD 0) else v

/-- The running state of one output element through the grid: value, overflow, integer saturation. -/
structure CellSum where
  v : Val
  ovf : Bool := false
  sat : Bool := false
  deriving DecidableEq, Repr

/-- A value that rounds to zero leaves a cell as +0: no overwrite-mode result is -0, and a cell does not see the mode (R95; log 127). -/
def cellZero (exact v : Val) : Val := if v.isZero && !exact.isZero then .zero else v

/-- One cell: its exact products and the incoming sum, rounded or clamped once (R62, R95 to R100). -/
def cellStep (isInt : Bool) (s : CellSum) (products : List Val) : CellSum :=
  let t := Val.sum (s.v :: products)
  if isInt then
    let (y, o) := clamp32 t.int
    { s with v := .ofInt y, sat := s.sat || o }
  else
    let (y, o) := fp32.rnd t
    { s with v := cellZero t y, ovf := s.ovf || o }

/-- Sub-grid, streamed row and column of output (row i, column c) (R70 to R72). -/
def PassDesc.place (d : PassDesc) (i c : Nat) : Nat × Nat × Nat :=
  match d.shape with
  | 1 => (c / 64 + 2 * (i / d.m), i % d.m, c % 64)
  | 2 => (c / 64, i, c % 64)
  | _ => (0, i, c)

/-- The element of a streamed row that is element k of sub-grid g's K range (R61, R70, R71). -/
def PassDesc.rowElem (d : PassDesc) (g k : Nat) : Nat := g * (d.gridRows * d.perCell) + k

/-- The sum of output (row i, column c), from its seed down the grid rows (R62, R63, R72); `a` gives the elements of a
streamed row. -/
def SpindleState.outputSum (x : SpindleState) (d : PassDesc) (w : WeightSet) (a : Nat → Nat → Val) (seed : Val) (i c : Nat) : CellSum :=
  let (g, m, n) := d.place i c
  if d.shape = 3 then
    let base := d.wAddr + m * d.wStride
    let b := operandVal d.cls d.bVar (rawElem (widthClass d.cls) (fun o => x.sb (base + o)) c)
    cellStep d.isInt { v := seed } [(a m c).mul b]
  else
    (List.range d.gridRows).foldl (fun s r =>
      cellStep d.isInt s ((List.range d.perCell).map (fun q =>
        let k := r * d.perCell + q
        (a m (d.rowElem g k)).mul (w.elem d g k n)))) { v := seed }

/-- The seed of output (row i, column c) (R63, R99). -/
def SpindleState.seedOf (x : SpindleState) (d : PassDesc) (i c : Nat) : Val :=
  if d.accumulate then
    let w := (x.accGet ((d.accRow + i) * 128 + c)).toNat
    if d.isInt then .ofInt (int32 w) else fp32.decode true w
  else .zero

/-- What a stage reports of one element (R158). -/
structure ElemRep where
  invalid : Bool := false
  nanIn : Bool := false
  /-- it was newly made a propagated NaN (R119) -/
  nanNew : Bool := false
  ovf : Bool := false
  sat : Bool := false
  infIn : Bool := false
  deriving DecidableEq, Repr

/-- Add two element reports. -/
def ElemRep.or (a b : ElemRep) : ElemRep :=
  { invalid := a.invalid || b.invalid, nanIn := a.nanIn || b.nanIn, nanNew := a.nanNew || b.nanNew
    ovf := a.ovf || b.ovf, sat := a.sat || b.sat, infIn := a.infIn || b.infIn }

/-- Round a stage's exact result, noting a newly generated NaN and an overflow (R97, R98, R158). -/
def stageOut (before exact : Val) : Val × ElemRep :=
  let (v, o) := fp32.rnd exact
  (v, { invalid := v.isGen && !before.isGen, nanNew := v.isNan && !v.isGen && !before.isNan, ovf := o })

/-- A stage that reads a chain vector or residual element (R158). -/
def stageWith (before operand exact : Val) : Val × ElemRep :=
  let (v, r) := stageOut before exact
  (v, { r with nanIn := operand.isNan, infIn := operand.isInf })

/-- An FP32 word of the epilogue buffer, as an operand element (R98). -/
def SpindleState.bufVal (x : SpindleState) (o : Nat) : Val := fp32.decode false (leNat (Cells.read 0 x.epilogue o 4))

/-- An FP32 word of the scratchpad, as an operand element. -/
def SpindleState.scrVal (x : SpindleState) (o : Nat) : Val := fp32.decode false (leNat (x.scr o 4))

/-- The prologue of a chain on element j of row m, in FP32 (R145). -/
def SpindleState.prologueY (x : SpindleState) (d : PassDesc) (c : ChainDesc) (m j : Nat) (v : Val) : Val × ElemRep :=
  let e := if d.shape = 2 then j % 128 else j
  let par := fun k => x.scrVal (c.rowpAddr + 32 + 16 * (c.rowBase + m) + 4 * k)
  let gamma := x.bufVal (c.gammaOff + 4 * (c.kBase + e))
  let beta := x.bufVal (c.betaOff + 4 * (c.kBase + e))
  if c.entry = 18 then
    let (y, o) := activate c.act v
    (y, { ovf := o })
  else if c.layerNorm then
    let (y, r) := stageWith v (par 0) (v.sub (par 0))
    let (z, q) := stageWith y (par 1) (y.mul (par 1))
    let (u, p) := stageWith z gamma (Val.sum [z.mul gamma, beta])
    (u, ((r.or q).or p).or { nanIn := beta.isNan, infIn := beta.isInf })
  else if c.rmsNorm then
    let (y, r) := stageWith v (par 2) (v.mul (par 2))
    let (z, q) := stageWith y gamma (y.mul gamma)
    (z, r.or q)
  else
    let (y, r) := stageWith v (par 3) (v.sub (par 3))
    let (z, o) := activate 5 y
    (z, r.or { ovf := o })

/-- Element j of streamed row m as the grid sees it, after the prologue's conversion to the operand format (R145). -/
def SpindleState.aSeen (x : SpindleState) (d : PassDesc) (ch : Option ChainDesc) (m j : Nat) : Val × ElemRep :=
  let v := x.aElem d m j
  match ch with
  | none => (v, {})
  | some c =>
    if !c.prologue then (v, {})
    else
      let (y, r) := x.prologueY d c m j v
      let f := if d.cls = 0 then bf16 else fp16
      let (code, o) := f.encode y
      (f.decode false code, r.or { ovf := o })

/-- Dequantise, scale, bias and activation or gate: the stages before the residual, for one column value (R143). -/
def SpindleState.early (x : SpindleState) (d : PassDesc) (c : ChainDesc) (i col : Nat) (v : Val) : Val × ElemRep :=
  let (v, r0) := if d.isInt then stageOut v v else (v, {})
  let (v, r1) :=
    if c.scales && (c.hasCol || c.hasRow) then
      let cs := x.bufVal (c.colOff + 4 * (c.colBase + col))
      let rs := x.bufVal (c.rowOff + 4 * (c.rowBase + i))
      let (f, o) := if c.hasCol && c.hasRow then fp32.rnd (cs.mul rs) else (if c.hasCol then cs else rs, false)
      let (y, r) := stageWith v f (v.mul f)
      (y, { r with ovf := r.ovf || o, nanIn := (c.hasCol && cs.isNan) || (c.hasRow && rs.isNan),
                   infIn := (c.hasCol && cs.isInf) || (c.hasRow && rs.isInf) })
    else (v, {})
  let (v, r2) :=
    if c.biases then
      let b := x.bufVal (c.biasOff + 4 * (c.colBase + col))
      stageWith v b (v.add b)
    else (v, {})
  let (v, r3) :=
    if c.acts then
      let (y, o) := activate c.act v
      (y, { ovf := o })
    else (v, {})
  (v, ((ElemRep.or r0 r1).or r2).or r3)

/-- The stage-4 value of output column `col` of row i, from the raw sums of the row (R143). -/
def SpindleState.stage4 (x : SpindleState) (d : PassDesc) (c : ChainDesc) (i col : Nat) (raw : Nat → Val) : Val × ElemRep :=
  if c.entry = 0 && c.outFormat = 5 then (raw col, {})
  else if c.gates then
    let (a, r0) := x.early d c i col (raw col)
    let (b, r1) := x.early d c i (col + 64) (raw (col + 64))
    let (y, o) := activate c.act a
    let e := y.mul b
    let (v, q) := fp32.rnd e
    (v, (r0.or r1).or { invalid := v.isGen && !y.isGen && !b.isGen, ovf := o || q })
  else
    let (v, r0) := x.early d c i col (raw col)
    if c.residual then
      let n := c.resBytes
      let bits := leNat (x.scr (c.resAddr + i * c.resStride + n * col) n)
      let res := (match c.resFormat with | 0 => fp32 | 1 => bf16 | _ => fp16).decode false bits
      let (y, r1) := stageWith v res (v.add res)
      (y, r0.or r1)
    else (v, r0)

/-- The running fields of a row statistic: sum, sq, mx, l (R149). -/
abbrev Fold := Val × Val × Val × Val

/-- Round to FP32, keeping the value in flight. -/
def rne (v : Val) : Val := (fp32.rnd v).1

/-- The start of a fold (R149). -/
def foldStart : Fold := (.zero, .zero, .inf true, .zero)

/-- Fold one stage-4 value into a row statistic (R149): a NaN makes all four fields NaN. -/
def foldStep (f : Fold) (y : Val) : Fold :=
  let (sum, sq, mx, l) := f
  if y.isNan then
    let g := fun (v : Val) => Val.nan (y.isGen || v.isGen)
    (g sum, g sq, g mx, g l)
  else
    let sum' := rne (sum.add y)
    let sq' := rne (sq.add (y.mul y))
    if Val.cmp y mx = some .gt then
      (sum', sq', y, rne ((rne (l.mul (expVal (rne (mx.sub y))))).add .one))
    else (sum', sq', mx, rne (l.add (expVal (rne (y.sub mx)))))

/-- Finalise a row statistic over n columns with ε (R152): μ, r_ln, r_rms, lse. -/
def foldFinal (f : Fold) (n : Nat) (eps : Val) : Fold :=
  let (sum, sq, mx, l) := f
  let nf := Val.fin false n 0
  let mu := rne (sum.div nf)
  let msq := rne (sq.div nf)
  let v := rne (msq.sub (rne (mu.mul mu)))
  let v := if v.neg then .zero else v
  (mu, rsqrtVal (rne (v.add eps)), rsqrtVal (rne (msq.add eps)), rne (mx.add (lnVal l)))

/-- The 16 bytes of a row entry (R150). -/
def foldBytes (f : Fold) : List Byte :=
  leBytes 4 (wordOf f.1).toNat ++ leBytes 4 (wordOf f.2.1).toNat ++ leBytes 4 (wordOf f.2.2.1).toNat ++
    leBytes 4 (wordOf f.2.2.2).toNat

/-- The fold that a row entry of a running area holds. -/
def SpindleState.foldAt (x : SpindleState) (area i : Nat) : Fold :=
  let v := fun k => x.scrVal (area + 32 + 16 * i + 4 * k)
  (v 0, v 1, v 2, v 3)

/-- The header of a row-statistic area (R150). -/
def statHeader (final : Bool) (tiles columns rows : Nat) (eps tensor : Word) : List Byte :=
  [0x59, 0x4B, 0x52, 0x53] ++ leBytes 1 (if final then 1 else 0) ++ leBytes 1 0 ++ leBytes 2 tiles ++ leBytes 4 columns ++
    leBytes 4 rows ++ leBytes 4 (if final then eps.toNat else 0) ++ leBytes 4 tensor.toNat ++ leBytes 8 0

/-- What a pass leaves at its completion: accumulator words, window bytes, its report and its record contributions. -/
structure PassOut where
  acc : List (Nat × Word) := []
  writes : List (Nat × List Byte) := []
  rep : NumRep := {}
  record : Option StatRec := none
  contributions : List Contribution := []
  deriving DecidableEq, Repr

/-- The report of one output element that stands at an accumulator place (R108, R114). -/
def ElemRep.report (r : ElemRep) (row col : Nat) : NumRep :=
  { flags := flagIf r.invalid 0 ||| flagIf r.nanIn 1 ||| flagIf r.ovf 2 ||| flagIf r.sat 3 ||| flagIf r.infIn 6
    invalid := if r.invalid then 1 else 0, nanIn := if r.nanNew then 1 else 0, ovf := if r.ovf then 1 else 0
    sat := if r.sat then 1 else 0, first := if r.invalid then some (row, col) else none }

/-- The accumulator word of a value: FP32, or INT32 on an integer value. -/
def accWord (isInt : Bool) (v : Val) : Word := if isInt then BitVec.ofInt 32 v.int else wordOf v

/-- One output row of a chain: stage-5 values, the row's bytes, its reports and contributions. -/
structure RowOut where
  values : List Val
  bytes : List Byte
  scales : List Byte
  /-- what its stores report -/
  rep : NumRep
  /-- what its elements' stages report -/
  elems : List ElemRep
  contributions : List Contribution
  deriving DecidableEq, Repr

/-- Element index of column `col` of row i (R107). -/
def ChainDesc.index (c : ChainDesc) (i col : Nat) : Nat := (c.elemBase + i * c.elemPitch + col) % 2 ^ 64

/-- Store the stage-5 values of a row (R102 to R106, R143). -/
def ChainDesc.storeRow (c : ChainDesc) (seed i : Nat) (vs : List Val) : List Byte × List Byte × NumRep × List Contribution :=
  let idx := vs.zipIdx.map (fun p => (p.1, c.index i p.2))
  let us := idx.map (fun p => philoxWord seed c.tensorId.toNat p.2)
  if c.quantises then
    let blocks := (List.range (c.cols / 32)).map (fun b =>
      mxBlock c.outFormat c.rounding ((us.drop (32 * b)).take 32) ((vs.drop (32 * b)).take 32))
    (packCodes (storeBits c.outFormat) (blocks.flatMap (·.2)), blocks.map (·.1), {},
     idx.map (fun p => { index := p.2, value := p.1, ovf := false, unf := false }))
  else
    let st := (List.zip idx us).map (fun p => (p.1, storeScalar c.outFormat c.rounding p.2 p.1.1))
    let o := (st.filter (fun p => p.2.ovf)).length
    let u := (st.filter (fun p => p.2.unf)).length
    (packCodes (storeBits c.outFormat) (st.map (·.2.code)), [],
     { flags := flagIf (0 < o) 4 ||| flagIf (0 < u) 5, storeOvf := o, storeUnf := u },
     st.map (fun p => { index := p.1.2, value := p.1.1, ovf := p.2.ovf, unf := p.2.unf }))

/-- One accumulator row of a pass and its chain (R140, R143). -/
def SpindleState.chainRow (x : SpindleState) (d : PassDesc) (c : ChainDesc) (seed i : Nat) (raw : Nat → Val) : RowOut :=
  let vr := (List.range c.cols).map (fun col => x.stage4 d c i col raw)
  let vs := vr.map (·.1)
  if c.dest then
    { values := vs, bytes := [], scales := [], rep := {}, elems := vr.map (·.2)
      contributions := vs.zipIdx.map (fun p => { index := c.index i p.2, value := p.1, ovf := false, unf := false }) }
  else
    let (b, s, r, xs) := c.storeRow seed i vs
    { values := vs, bytes := b, scales := s, rep := r, elems := vr.map (·.2), contributions := xs }

/-- An operand element of a pass is infinite (R108 bit 6). -/
def SpindleState.infOperand (x : SpindleState) (d : PassDesc) (w : WeightSet) : Bool :=
  if d.isInt then false
  else
    (List.range d.m).any (fun m => (List.range d.rowElems).any (fun j => (x.aElem d m j).isInf)) ||
    (if d.shape = 3 then
      (List.range d.m).any (fun m => (List.range 128).any (fun j =>
        (operandVal d.cls d.bVar (rawElem (widthClass d.cls) (fun o => x.sb (d.wAddr + m * d.wStride + o)) j)).isInf))
    else (List.range d.grids).any (fun g => (List.range (d.gridRows * d.perCell)).any (fun k =>
      (List.range d.gridCols).any (fun n => (w.elem d g k n).isInf))))

/-- The row statistic of a chain: the folds of its rows, the bytes of stat_out (R149 to R152). -/
def SpindleState.statBytes (x : SpindleState) (c : ChainDesc) (rows : List (List Val)) : List Byte :=
  let before := if c.statFirst then 0 else leNat (x.scr (c.statIn + 8) 4)
  let n := before + 128
  let eps := fp32.decode false c.eps.toNat
  let folds := rows.zipIdx.map (fun p =>
    let f := p.1.foldl foldStep (if c.statFirst then foldStart else x.foldAt c.statIn p.2)
    if c.statLast then foldFinal f n eps else f)
  statHeader c.statLast (c.tileIndex + 1) n rows.length c.eps c.tensorId ++ folds.flatMap foldBytes

/-- What a pass computes (R62 to R74, R95 to R101, R137 to R160): read at its completion, when every row and byte it reads
still stands as at its start (R73 to R75). -/
def SpindleState.runPass (x : SpindleState) (d : PassDesc) (ch : Option ChainDesc) (w : WeightSet) (seed : Nat) : PassOut :=
  let a := fun m j => (x.aSeen d ch m j).1
  let pro : ElemRep := match ch with
    | some c => if c.prologue then
        (List.range d.m).foldl (fun r m => (List.range d.rowElems).foldl (fun r j => r.or (x.aSeen d ch m j).2) r) {}
      else {}
    | none => {}
  let proRep : NumRep := { flags := flagIf pro.invalid 0 ||| flagIf pro.nanIn 1 ||| flagIf pro.ovf 2 ||| flagIf pro.infIn 6 }
  let sums := (List.range d.rows).map (fun i => (List.range 128).map (fun c =>
    let seed := x.seedOf d i c
    let s := x.outputSum d w a seed i c
    let nan := s.v.isNan && !s.v.isGen && !seed.isNan
    (s, ({ invalid := s.v.isGen && !seed.isGen, nanIn := nan, nanNew := nan, ovf := s.ovf, sat := s.sat } : ElemRep))))
  let report := fun (elems : Nat → List ElemRep) => sums.zipIdx.foldl (fun r row => row.1.zipIdx.foldl (fun r e =>
    r.add ((e.1.2.or (((elems row.2)[e.2]?).getD {})).report (d.accRow + row.2) e.2)) r)
      (proRep.add { flags := flagIf (x.infOperand d w) 6 })
  let rawAcc := fun (_ : Unit) => sums.zipIdx.flatMap (fun row => row.1.zipIdx.map (fun e =>
    ((d.accRow + row.2) * 128 + e.2, accWord d.isInt e.1.1.v)))
  match ch with
  | none => { acc := rawAcc (), rep := report (fun _ => []) }
  | some c =>
    let rows := sums.zipIdx.map (fun row => (x.chainRow d c seed row.2 (fun k => ((row.1[k]?).map (fun e => e.1.v)).getD .zero), row.2))
    let rep := rows.foldl (fun r o => r.add o.1.rep) (report (fun i => ((rows[i]?).map (·.1.elems)).getD []))
    let intRec := c.outFormat == 5 && c.entry == 0 && d.isInt
    let acc := if c.dest then
        rows.flatMap (fun o => o.1.values.zipIdx.map (fun e => ((d.accRow + o.2) * 128 + e.2, accWord intRec e.1)))
      else rawAcc ()
    let outs := if c.dest then [] else
      rows.map (fun o => (c.outAddr + o.2 * c.outStride, o.1.bytes)) ++
      (if c.quantises then rows.map (fun o => (c.mxAddr + o.2 * c.mxStride, o.1.scales)) else [])
    let stat := if c.stats then [(c.statOut, x.statBytes c (rows.map (·.1.values)))] else []
    { acc := acc, writes := outs ++ stat, rep := rep
      record := some { addr := c.recordAddr, tensorId := c.tensorId, format := c.outFormat, isInt := intRec }
      contributions := rows.flatMap (·.1.contributions) }

/-- A statistics chain's area at stat_in, or a prologue's final area, stands as R151, R152 and R153 require. -/
def SpindleState.areasOk (x : SpindleState) (d : PassDesc) (c : ChainDesc) : Bool :=
  let st := fun a => field (x.scr a 32) 4 1
  let rows := fun a => field (x.scr a 32) 12 4
  let before := if c.statFirst then 0 else field (x.scr c.statIn 32) 8 4
  (!c.stats ||
    ((c.statFirst || (st c.statIn == 0 && field (x.scr c.statIn 32) 6 2 == c.tileIndex && rows c.statIn == d.m &&
        field (x.scr c.statIn 32) 0x14 4 == c.tensorId.toNat)) &&
      (!c.statLast || decide (before + 128 ≤ 2 ^ 24)))) &&
  (!c.rowParams || (st c.rowpAddr == 1 && decide (c.rowBase + d.m ≤ rows c.rowpAddr)))

end Sys2Proof.Machine
end

