-- ==== Sys2Proof/Machine/GridRun.lean ====
section
/-!
DEFINITION. The operations of a spindle's grid: readiness of weights, starts, completions, faults and pre-emption (R64 to
R86).
-/
namespace Sys2Proof.Machine

/-- A list of the lane is stopping on a channel of its skein (R290). -/
def State.listsStopping (s : State) (i : Spindle) : Bool :=
  (s.skeins[skeinOf i]).channels.any (fun c => c.stopping && c.run.any (fun r => r.lane == laneOf i))

/-- The passes in the grid, in order of their starts. -/
def SpindleState.inGrid (x : SpindleState) : List Pass := x.passes.filter (fun p => p.startedAt.isSome)

/-- Change the first pass of the queue that satisfies a test. -/
def modPass (p : Pass → Bool) (f : Pass → Pass) : List Pass → List Pass
  | [] => []
  | x :: xs => if p x then f x :: xs else x :: modPass p f xs

/-- A pass that loads no weights: it reuses the active ones, or has the Hadamard shape (R66, R72). -/
def Pass.noLoad (p : Pass) : Bool := p.desc.reuse || p.desc.shape == 3

/-- A pass's weights stand in the shadow, or it needs none (R65, R66). -/
def Pass.ready (p : Pass) (now : Time) : Bool :=
  p.noLoad || p.weights.isSome || p.loadAt.any (fun t => decide (t + Time.sc 128 ≤ now))

/-- The weights that a pass's load brings from the scratchpad (R60, R61, R66). -/
def SpindleState.fetchWeights (x : SpindleState) (d : PassDesc) : WeightSet :=
  { shape := d.shape, cls := d.cls, addr := d.wAddr, block := x.scr d.wAddr 0x8000, scales := x.scr d.scaleAddr d.wScaleBytes }

/-- The streamed row at the grid's left edge: that of the pass started last (R64, R90). -/
def SpindleState.edgeRow (x : SpindleState) (now : Time) : BitVec 12 :=
  match x.inGrid.getLast? with
  | some p => BitVec.ofNat 12 (min (p.desc.m - 1) ((p.startedAt.elim 0 (now - ·)) / 10))
  | none => 0

/-- Latch the first fault of the step (R90). -/
def SpindleState.latchFault (x : SpindleState) (cause : BitVec 4) (tag : Word) (row : BitVec 12) : SpindleState :=
  if x.faultSeen then x else { x with cause := cause, faultSeen := true, faultTag := tag, faultRow := row }

/-- A fault that is not restartable: latched, no further pass starts, the step aborts with 0x0840 + cause (R82, R497). -/
def State.hardFault (s : State) (i : Spindle) (cause : BitVec 4) (tag : Word) (row : BitVec 12) : State :=
  let s := s.modSp i (fun x => { x.latchFault cause tag row with barred := true })
  s.abort { code := 0x0840 + cause.setWidth 16, unit := BitVec.ofNat 16 i.val }

/-- The retry limit is exhausted (R81): cause 8 is recorded, over the cause of the restarts before it, whose tag and row stay (log 57). -/
def State.retryFault (s : State) (i : Spindle) (tag : Word) (row : BitVec 12) : State :=
  (s.modSp i (fun x => { x.latchFault 8 tag row with cause := 8 })).hardFault i 8 tag row

/-- Discard passes by a fault that is not restartable: what the chain of one that has started wrote has no defined content (R82, R159). -/
def State.discardPasses (s : State) (i : Spindle) (p : Pass → Bool) : State :=
  let gone := (s.spindles[i]).passes.filter (fun q => p q && q.startedAt.isSome)
  (s.dropPasses i p).loosen i (gone.flatMap (·.written))

/-- A write met protected bytes: the passes they belong to are discarded, cause 7 is latched for the first of them, and no further pass
starts (R75, R82, R90). -/
def State.protectFault (s : State) (i : Spindle) (rs : List (Nat × Nat)) : State :=
  let x := s.spindles[i]
  let hit := x.protectors rs
  let s := s.modSp i (fun x => { x.latchFault 7 ((hit.head?.map (·.desc.tag)).getD 0) (x.edgeRow s.now) with barred := true })
  s.discardPasses i hit.contains

/-- SPN_FAULT cause of a restartable fault (R90). -/
def gridCauseCode : GridCause → BitVec 4
  | .weightParity => 1
  | .sumParity => 2
  | .accWrite => 3

/-- SPN_FAULT cause of a fault that is not restartable (R90). -/
def hardCauseCode : HardCause → BitVec 4
  | .accRead => 4
  | .operandRead => 5
  | .descriptor => 6
  | .protection => 7

/-- Coefficient n of the pacer in effect (R55). -/
def State.paceCoef (s : State) (n : Nat) : Nat := if h : n < 16 then (s.tick.coef[n]).eff.toNat else 0

/-- The thermal level in force on a spindle's die (R85). -/
def State.levelOf (s : State) (i : Spindle) : Nat := (s.dieLevel (dieOf i)).toNat

/-- The time from which the thermal wait of this boundary has elapsed; none during a thermal halt (R85). -/
def State.thermalFrom (s : State) (i : Spindle) : Option Time :=
  let n := s.levelOf i
  match (s.spindles[i]).gridFree with
  | none => if n = 15 then none else some 0
  | some (free, int) => if n = 15 then none else some (free + Time.sc (ceilDiv (int * n) (16 - n)))

/-- The pass at the head of the queue that has not started. -/
def SpindleState.head (x : SpindleState) : Option Pass := x.passes.find? (fun p => p.startedAt.isNone)

/-- The grid is free for a pass (R64, R65, R67). -/
def SpindleState.gridFreeFor (x : SpindleState) (p : Pass) (now : Time) : Bool :=
  let g := x.inGrid
  decide (g.length < 2) && g.all (fun q => q.restartAt.isNone) &&
  x.gridFree.all (fun f => decide (f.1 ≤ now)) && (g.isEmpty || (p.desc.shape != 3 && g.all (fun q => q.desc.shape != 3)))

/-- The head pass may start now (R65). -/
def State.mayStart (s : State) (i : Spindle) (p : Pass) : Bool :=
  let x := s.spindles[i]
  !s.spDown i && !x.barred && x.preemptPending.isNone && !x.preempted && decide (p.issuedAt ≤ s.now) &&
  x.gridFreeFor p s.now && p.ready s.now &&
  (p.charged || ((s.thermalFrom i).any (fun t => decide (t ≤ s.now)) &&
    decide (p.desc.charge s.paceCoef ≤ (s.tick.pacer[dieOf i]).bucketNj)))

/-- Some byte of the ranges arrived poisoned. -/
def SpindleState.anyBad (x : SpindleState) (rs : List (Nat × Nat)) : Bool := rs.any (fun r => x.bad r.1 r.2)

/-- The chain's and the operands' bytes that a pass reads hold some that arrived poisoned (R225). -/
def SpindleState.operandsBad (x : SpindleState) (p : Pass) : Bool :=
  let d := p.desc
  let n := d.rows
  x.anyBad (d.aRows ++ (if d.shape = 3 then d.wRows else if p.noLoad then [] else d.wRows) ++ d.readScales ++
    (match p.chain with
     | none => []
     | some c => c.resRows n ++ c.statInRange n ++ c.rowpRange d.m ++ (c.vectors n).map (fun r => (0x600000 + r.1, r.2))))

/-- The row at the left edge when such a byte was read: that of the first A or B row which holds one; for any other byte a value that the
spec does not state (R90; log 58). -/
def SpindleState.badRow (x : SpindleState) (d : PassDesc) (free : Nat) : BitVec 12 :=
  let b := if d.shape = 3 then d.wRows else []
  match (List.range d.m).find? (fun m => x.anyBad ((d.aRows[m]?).toList ++ (b[m]?).toList)) with
  | some m => BitVec.ofNat 12 m
  | none => (Config.freeWord free).setWidth 12

/-- Write a word into the copy of a row that is not selected (R73). -/
def SpindleState.accPutOther (x : SpindleState) (i : Nat) (w : Word) : SpindleState :=
  if x.sel.getLsbD (i / 128) then { x with acc0 := Cells.put 0 x.acc0 i w } else { x with acc1 := Cells.put 0 x.acc1 i w }

/-- Flip the select bits of a pass's rows (R73). -/
def SpindleState.flip (x : SpindleState) (row n : Nat) : SpindleState :=
  { x with sel := x.sel ^^^ (List.range n).foldl (fun m i => m ||| (1#4096 <<< (row + i))) 0 }

/-- Write a pass's results and flip its rows (R64, R73, R140). -/
def SpindleState.complete (x : SpindleState) (d : PassDesc) (o : PassOut) : SpindleState :=
  let x := o.acc.foldl (fun x w => x.accPutOther w.1 w.2) x
  let x := x.flip d.accRow d.rows
  let x := o.writes.foldl (fun x w => (x.putBytes w.1 w.2).noteBad w.1 w.2.length false) x
  { x with passCount := x.passCount + 1, rowCount := satAdd 32 x.rowCount d.m }

/-- Where the sequencer goes after the word at `pc`: the innermost loop that ends there repeats or ends (R37, R538). -/
def loopNext : List SeqLoop → Nat → List SeqLoop × Nat
  | [], pc => ([], pc + 1)
  | l :: ls, pc =>
    if pc = l.stop then
      if 1 < l.left then ({ l with left := l.left - 1 } :: ls, l.start) else loopNext ls pc
    else (l :: ls, pc + 1)

/-- The word under way is done: the stall ends and the sequencer goes to the next word. -/
def Seq.finish (q : Seq) : Seq :=
  let (ls, pc) := loopNext q.loops q.pc.toNat
  { q with stall := .none, loops := ls, pc := BitVec.ofNat 13 pc }

/-- A jump ends the loops whose body the target lies outside (R538). -/
def Seq.jump (q : Seq) (target : Nat) : Seq :=
  { q with stall := .none, pc := BitVec.ofNat 13 target
           loops := q.loops.dropWhile (fun l => decide (target < l.start) || decide (l.stop < target)) }

/-- A sequencer that waited for this pass goes on (R37). -/
def Seq.passDone (q : Seq) (waits : Bool) : Seq := if waits && q.stall == .passWait then q.finish else q

/-- Discard a pass of the grid by a restartable fault: it starts again at `at_` (R79, R80). -/
def Pass.discard (p : Pass) (at_ : Time) (counts : Bool) : Pass :=
  { p with restartAt := some at_, restarts := if counts then p.restarts + 1 else p.restarts }

/-- A discarded pass goes back to the head of the queue, charged and with its weights (R84). -/
def Pass.backToQueue (p : Pass) (at_ : Time) (counts : Bool) : Pass :=
  { p with startedAt := none, restartAt := none, charged := true, issuedAt := at_
           restarts := if counts then p.restarts + 1 else p.restarts }

/-- Request resume pre-emption of a spindle (R78, R182). -/
def SpindleState.reqResume (x : SpindleState) (now : Time) : SpindleState :=
  if x.preemptPending.isNone && !x.preempted then x.reqPreempt .resume now else x

/-- Mark a lane slow for the rest of the step (R204). -/
def State.markSlow (s : State) (i : Spindle) : State :=
  s.modSk (skeinOf i) (fun k => { k with slow := k.slow ||| (1#8 <<< (laneOf i).val) })

/-- Drop the pushes of a staple that is stopped, and return its popped positions to their rings (R205, R212). -/
def State.dropStaple (s : State) (i : Spindle) : State :=
  let q := (s.spindles[i]).seq
  let s := q.pops.foldl (fun s p => s.modSk p.skein (·.modRing p.ring (·.unhold p.pos))) s
  s.modSp i (fun x => { x with
    num := { x.num with slots := [] }
    seq := { x.seq with pops := [], pushes := [], inStaple := false, taken := none, stapleId := 0xFFFF, budget := 0
                        stall := .none, loops := [] } })

/-- The staple that waits for its lane to stop goes to the tail of the returned queue (R205). -/
def State.returnStaple (s : State) (i : Spindle) : State :=
  match (s.spindles[i]).returning with
  | none => s
  | some t =>
    (s.modSp i (fun x => { x with returning := none })).modSk (skeinOf i) (fun x => { x with
      returned := x.returned ++ [t]
      inProgress := x.inProgress.filter (fun p => p.1 != laneOf i)
      returnedCount := satAdd 16 x.returnedCount 1 })

/-- An engine write retires into its memory (R167, R187). -/
def SpindleState.retire (x : SpindleState) (w : MemWrite) : SpindleState :=
  let x := w.bytes.zipIdx.foldl (fun x b => match b.1 with | some v => x.putByte (w.at_ + b.2) v | none => x) x
  if w.bytes.all (·.isSome) then x.noteBad w.at_ w.bytes.length false else x

/-- A register result arrives (R167). -/
def Vec.arrive (v : Vec) (w : RegWrite) : Vec :=
  { v with v := vmod v.v w.reg (fun b => (b &&& ~~~w.mask) ||| (w.bytes &&& w.mask))
           byLd := if w.byLd then v.byLd ||| (1#32 <<< w.reg.val) else v.byLd &&& ~~~(1#32 <<< w.reg.val) }

/-- A mask result arrives; M0 ignores it (R161, R167). -/
def Vec.maskArrive (v : Vec) (w : MaskWrite) : Vec :=
  if w.reg = 0 then v else { v with mask := vmod v.mask w.reg (fun b => (b &&& ~~~w.set) ||| (w.bits &&& w.set)) }

/-- Every result and write due by advancing cycle `c` arrives (R167). -/
def SpindleState.settle (x : SpindleState) (c : Nat) : SpindleState :=
  let v := x.vec
  let v := (v.regWrites.filter (fun w => decide (w.due ≤ c))).foldl Vec.arrive v
  let v := (v.maskWrites.filter (fun w => decide (w.due ≤ c))).foldl Vec.maskArrive v
  let v := match v.loopLoad with
    | some (d, ls) => if d ≤ c then { v with loops := ls, frozen := if v.inHandler then ls.length else 0, loopsLost := false, loopLoad := none }
                      else v
    | none => v
  let v := { v with regWrites := v.regWrites.filter (fun w => decide (c < w.due))
                    maskWrites := v.maskWrites.filter (fun w => decide (c < w.due))
                    memWrites := v.memWrites.filter (fun w => decide (c < w.due)) }
  (x.vec.memWrites.filter (fun w => decide (w.due ≤ c))).foldl SpindleState.retire { x with vec := v }

/-- The advancing cycle by which everything outstanding has arrived. -/
def Vec.drained (v : Vec) : Nat :=
  ((v.regWrites.map (·.due)) ++ (v.maskWrites.map (·.due)) ++ (v.memWrites.map (·.due)) ++ (v.reports.map (·.due)) ++
    (v.loopLoad.map (·.1)).toList).foldl max 0

/-- Every outstanding result and write of the engine arrives (R167, R187, R188). -/
def SpindleState.retireAll (x : SpindleState) : SpindleState := x.settle x.vec.drained

/-- The engine halts: outstanding writes arrive, the loop state clears (R182, R187, R188). -/
def SpindleState.vecHalt (x : SpindleState) : SpindleState :=
  let x := x.retireAll
  { x with vec := x.vec.abandon }

/-- A report counts, and a masked exception in it is a numeric fault (R109, R111, R171). -/
def State.takeReport (s : State) (i : Spindle) (r : NumRep) : State :=
  let s := s.modSp i (fun x => { x with num := x.num.take r 0 })
  s.numFault i (r.fault (s.spindles[i]).num.mask)

/-- The reports of the instructions that complete by advancing cycle `c` count; after a masked exception the engine drains, so that every
report counts, and halts (R109, R171). -/
def State.takeReports (s : State) (i : Spindle) (c : Nat) : State :=
  let x := s.spindles[i]
  let due := x.vec.reports.filter (fun r => decide (r.due ≤ c))
  if due.isEmpty then s
  else
    let faulted := due.any (fun r => r.rep.fault x.num.mask != 0)
    let (now, later) := if faulted then (x.vec.reports, []) else (due, x.vec.reports.filter (fun r => decide (c < r.due)))
    let s := s.modSp i (fun x => { x with vec := { x.vec with reports := later } })
    let s := now.foldl (fun s r => s.takeReport i r.rep) s
    if faulted then s.modSp i (·.vecHalt) else s

/-- The engine drains: every outstanding result and write arrives and every report counts (R167, R171, R183, R187). -/
def State.drainEngine (s : State) (i : Spindle) : State :=
  (s.takeReports i (s.spindles[i]).vec.drained).modSp i (·.retireAll)

end Sys2Proof.Machine
end

