-- ==== Sys2Proof/Machine/SeqOps.lean ====
section
/-!
DEFINITION. The operations of a sequencer and its skein: fetching a word, faults, taking staples, ring positions, waits
(R37, R38, R46, R191 to R214, R538).
-/
namespace Sys2Proof.Machine

/-- The word at an address of the active bank (R34). -/
def Seq.word (q : Seq) (pc : BitVec 13) : Word64 := Cells.get 0 (if q.activeBank then q.bank1 else q.bank0) pc.toNat

/-- Bits of a word. -/
def wbits (w : Word64) (hi lo : Nat) : Nat := bits w.toNat hi lo

/-- The sequencer may issue a word now: its spindle runs the step, nothing stalls it and nothing stops it. -/
def State.seqReady (s : State) (i : Spindle) (stalled : Stall) : Bool :=
  let x := s.spindles[i]
  let q := x.seq
  q.runs && !q.idle && !s.spDown i && (s.flt.spindleFn[i]).st == .on && s.step.phase == .window && !s.step.faulted && !s.step.aborted &&
  x.preemptPending != some .abandon && !x.preempted && (q.stall == .none || q.stall == stalled) &&
  decide (q.readyAt ≤ s.now)

/-- A sequencer fault: latched, and the step aborts with 0x0860 (R57, R497, R538). -/
def State.seqFault (s : State) (i : Spindle) : State :=
  let s := s.modSp i (fun x => { x with seq := { x.seq with
    seqFault := true
    faultPc := if x.seq.faultSeen then x.seq.faultPc else x.seq.pc
    faultSeen := true } })
  s.abortCode 0x0860 i.val

/-- Issue a word of an opcode: unchanged where the sequencer cannot issue or stands at another word; a sequencer fault at an
undefined opcode (R37), and at any word but SBEGIN or one JMP between a take and its SBEGIN (R200). -/
def State.issue (s : State) (i : Spindle) (op : Nat) (stalled : Stall) (f : Word64 → State → State) : State :=
  if !s.seqReady i stalled then s
  else
    let q := (s.spindles[i]).seq
    let w := q.word q.pc
    let o := wbits w 63 58
    if o = 0 ∨ 0xD < o then s.seqFault i
    else if o ≠ op then s
    else if q.taken.isSome && op != 2 && !(op == 0xB && !q.jumped) then s.seqFault i
    else f w (s.modSp i (fun x => { x with seq := { x.seq with words := x.seq.words + 1 } }))

/-- Finish the word under way. -/
def State.seqNext (s : State) (i : Spindle) : State := s.modSp i (fun x => { x with seq := x.seq.finish })

/-- Stall the sequencer; a ring wait starts now (R214). -/
def State.seqStall (s : State) (i : Spindle) (c : Stall) : State :=
  s.modSp i (fun x => { x with seq :=
    { x.seq with stall := c, waitSince := if x.seq.stall == c then x.seq.waitSince else s.now } })

/-- The current phase of a board. -/
def SkeinState.now (x : SkeinState) : Option BoardPhase := x.phases[x.phase]?

/-- Change the list of a lane in the current phase. -/
def SkeinState.modList (x : SkeinState) (l : Fin 8) (f : List Staple → List Staple) : SkeinState :=
  { x with phases := setAt x.phases x.phase (fun p => { p with lists := vmod p.lists l f }) }

/-- The list of a lane in the current phase. -/
def SkeinState.list (x : SkeinState) (l : Fin 8) : List Staple := match x.now with | some p => p.lists[l] | none => []

/-- Declared cycles left in a lane's list (R196). -/
def SkeinState.remain (x : SkeinState) (l : Fin 8) : Nat := ((x.list l).map (·.budget)).sum

/-- The victim of a steal: the largest remaining sum among the other lanes whose tail is not pinned, lowest lane first. -/
def SkeinState.victim (x : SkeinState) (l : Fin 8) : Option (Fin 8) :=
  let cands := (List.finRange 8).filter (fun v => v != l && (x.list v).getLast?.any (fun t => !t.pinned))
  cands.foldl (fun b v => match b with
    | none => some v
    | some u => if x.remain u < x.remain v then some v else some u) none

/-- How a staple was taken. -/
inductive Take where
  | own (t : Staple) | stolen (t : Staple)
  deriving DecidableEq, Repr

/-- The order in which a NEXT on lane l takes work (R196), with the board after it. -/
def SkeinState.take (x : SkeinState) (l : Fin 8) : Option (Take × SkeinState) :=
  let slow := x.slow.getLsbD l.val
  let excl := x.excludedNow.getLsbD l.val
  let mayTake := fun (t : Staple) => if slow then t.pinned && t.owner == l else !t.pinned || t.owner == l
  match (if excl then none else takeFirst mayTake x.returned) with
  | some (t, rest) => some (.own t, { x with returned := rest })
  | none =>
    match (if slow || excl then none else (x.list l).head?) with
    | some t => some (.own t, x.modList l (·.drop 1))
    | none =>
      match (if slow || excl then none else x.victim l) with
      | some v =>
        match (x.list v).getLast? with
        | some t => some (.stolen t, x.modList v (·.dropLast))
        | none => none
      | none =>
        match (if excl then none else (x.list l).head?) with
        | some t => if t.pinned then some (.own t, x.modList l (·.drop 1)) else none
        | none => none

/-- Every entry of the current phase has been taken and has reached SEND, and the returned queue is empty (R202). -/
def SkeinState.phaseComplete (x : SkeinState) : Bool :=
  x.boardActive && (List.finRange 8).all (fun l => (x.list l).isEmpty) && x.returned.isEmpty && x.inProgress.isEmpty

/-- Note the completion of the current phase: the board advances 4 sc later, or is done after its last phase (R202). -/
def SkeinState.checkPhase (x : SkeinState) (now : Time) : SkeinState :=
  if x.boardActive && !x.done && x.completeAt.isNone && x.phaseComplete then
    if x.phase + 1 < x.phases.length then { x with completeAt := some now } else { x with done := true }
  else x

/-- The n-th position of a ring that belongs to a staple (R209). -/
def nthPos : List RingShare → BitVec 16 → Nat → Option Nat
  | [], _, _ => none
  | r :: rs, t, n =>
    if r.staple == t then (if n < r.count then some (r.first + n) else nthPos rs t (n - r.count)) else nthPos rs t n

/-- Consumer positions of a ring that the staple under way has taken or has armed a pass on (R209, R211). -/
def SpindleState.consumed (x : SpindleState) (ring : Nat) : Nat :=
  (x.seq.pops.filter (fun p => p.ring == ring)).length +
  (x.armed.filter (fun p => p.chain.any (fun c => c.trigRing == ring))).length +
  (x.passes.filter (fun p => p.held.any (fun h => h.ring == ring))).length

/-- The executing staple's next consumer position on a ring of its own skein (R209, R211). -/
def State.nextPop (s : State) (i : Spindle) (ring : Nat) : Option Nat :=
  let x := s.spindles[i]
  let r := (s.skeins[skeinOf i]).ring ring
  if r.wiring.isNone then none
  else nthPos r.consumers x.seq.stapleId (x.consumed ring)

/-- The ring that a PUSH to ring r on skein j reaches (R210). -/
def State.pushRing (s : State) (j : Skein) (r : Nat) : Option Skein :=
  if ((s.skeins[j]).ring r).wiring.any (fun w => w.producer == 0) then some j
  else (List.finRange 16).find? (fun k => ((s.skeins[k]).ring r).wiring.any (fun w => w.producer == 1 && w.src.val == j.val))

/-- A handle fits a ring's buffers (R208). -/
def RingWiring.fits (w : RingWiring) (h : Word) : Bool :=
  decide (h.toNat % 4096 < w.bufferCount) && decide (h.toNat / 4096 * 256 ≤ w.bufferStride)

/-- No list that a lane started on a channel is queued or running (R285). -/
def State.dmaDone (s : State) (i : Spindle) (c : Fin 4) : Bool :=
  let ch := (s.skeins[skeinOf i]).channels[c]
  (ch.parked ++ ch.run.toList ++ ch.queued.toList).all (fun r => r.lane != laneOf i)

/-- No list of the staple under way is queued or running (R201, R285). -/
def State.stapleDmaDone (s : State) (i : Spindle) : Bool :=
  let t := (s.spindles[i]).seq.stapleId
  (List.finRange 4).all (fun c =>
    let ch := (s.skeins[skeinOf i]).channels[c]
    let mine := fun (r : DmaRun) => r.lane == laneOf i && r.staple == t && t != 0xFFFF
    !((ch.parked ++ ch.run.toList ++ ch.queued.toList).any mine))

/-- An event of WAIT has come (R37, R211, R285). -/
def State.eventCome (s : State) (i : Spindle) (e : Nat) : Bool :=
  if e < 32 then
    match s.nextPop i e with
    | some p => (((s.skeins[skeinOf i]).ring e).handleAt p).isSome
    | none => false
  else if h : e < 36 then s.dmaDone i ⟨e - 32, by omega⟩
  else (s.spindles[i]).passes.isEmpty

/-- A position that a staple's push fills has space (R209, R211). -/
def State.pushSpace (s : State) (p : Pushed) : Bool := ((s.skeins[p.skein]).ring p.ring).space p.pos

/-- Stop the lists of a staple: abandon pre-emption stops no list that its lane started outside it (R285, R290). -/
def SkeinState.stopStaple (x : SkeinState) (l : Fin 8) (t : BitVec 16) : SkeinState :=
  x.stopLists (fun r => r.lane == l && r.staple == t)

/-- Stop every list of a lane (R285). -/
def SkeinState.stopLane (x : SkeinState) (l : Fin 8) : SkeinState := x.stopLists (fun r => r.lane == l)

/-- A lane is in a ring wait: in the step window, its staple not being stopped, it stalls in POP, in WAIT on a ring event, or in SEND for
space (R214). -/
def State.ringWaits (s : State) (i : Spindle) : Bool :=
  let q := (s.spindles[i]).seq
  s.step.phase == .window && (s.spindles[i]).preemptPending != some .abandon && !s.spDown i &&
  (match q.stall with
   | .popWait _ _ => true
   | .event e => decide (e < 32)
   | .send => q.pushes.any (fun p => !s.pushSpace p)
   | _ => false)

/-- Lanes of a skein that satisfy a test, as a mask. -/
def laneMask (k : Skein) (p : Spindle → Bool) : BitVec 8 :=
  (List.finRange 8).foldl (fun m l => if p (spindleOf k l) then m ||| (1#8 <<< l.val) else m) 0

/-- SKN_LANE_STATUS (R216). -/
def State.laneStatus (s : State) (k : Skein) : Word :=
  let x := s.skeins[k]
  BitVec.ofNat 32 (packFields [(8, x.slow.toNat), (8, (laneMask k (fun i => (s.spindles[i]).seq.atEnd)).toNat),
    (8, (laneMask k s.ringWaits).toNat), (8, x.excludedNow.toNat)])

/-- Record a skein's first code of the step (R216). -/
def SkeinState.note (x : SkeinState) (c : Code) : SkeinState := { x with code := if x.code = 0 then c else x.code }

/-- Abort for a skein's cause (R215, R431). -/
def State.skeinAbort (s : State) (k : Skein) (c : Code) (aux1 : Word) : State :=
  let s := s.modSk k (·.note c)
  s.abort { code := c, unit := BitVec.ofNat 16 k.val, aux0 := s.laneStatus k, aux1 := aux1 }

/-- The pass descriptor and chain that a PASS word names (R37, R87, R146). -/
def SpindleState.descriptor (x : SpindleState) (w : Word64) : Nat × PassDesc × Option ChainDesc :=
  let o := wbits w 22 3 * 8
  let d := parsePass (x.scr o 64)
  (o, d, if d.fusedAddr = 0xFFFFFFFF then none else some (parseChain (x.scr d.fusedAddr 128)))

/-- A descriptor and its chain pass every check that is made at issue (R88, R147). -/
def SpindleState.descOk (x : SpindleState) (i : Spindle) (o : Nat) (d : PassDesc) (c : Option ChainDesc) : Bool :=
  let trig := c.any (·.trigger)
  let trigW := c.any (·.trigW)
  d.ok o x.lastPass (x.lastLoad.map (·.1)) (isIngest i) (trig && !trigW) (trig && trigW) && c.all (·.ok d)

/-- Note an issued or armed pass for the checks of the next one (R66, R75, R88). -/
def SpindleState.noteIssue (x : SpindleState) (d : PassDesc) : SpindleState :=
  { x with lastPass := some d
           lastLoad := if d.reuse || d.shape == 3 then x.lastLoad else some (d.cls, d.wAddr) }

/-- The pass that a descriptor gives. -/
def SpindleState.newPass (x : SpindleState) (now : Time) (w : Word64) (o : Nat) (d : PassDesc) (c : Option ChainDesc) : Pass :=
  { desc := d, descAddr := o, chain := c, issuedAt := now + Time.sc 4, waits := bit w.toNat 24, staple := x.seq.stapleId
    blockAddr := if d.reuse then (x.lastLoad.map (·.2)).getD d.wAddr else d.wAddr }

end Sys2Proof.Machine
end

