-- ==== Sys2Proof/Machine/VecOps.lean ====
section
/-!
DEFINITION. The vector engine: instruction words, registers as an instruction reads them, memory operands, results on their
way, faults, loops and the issue of an instruction (R161 to R167, R180 to R189).
-/
namespace Sys2Proof.Machine

/-- The fields of a vector instruction word (R164). -/
structure VIns where
  op : Nat
  ty : Nat
  mask : Fin 4
  dst : Nat
  s1 : Nat
  s2 : Nat
  s3 : Nat
  fn : Nat
  deriving DecidableEq, Repr

/-- Take a word apart (R164). -/
def parseVec (w : Word64) : VIns :=
  { op := wbits w 63 58, ty := wbits w 57 55, mask := ⟨wbits w 54 53 % 4, by omega⟩, dst := wbits w 52 46, s1 := wbits w 45 39
    s2 := wbits w 38 32, s3 := wbits w 31 25, fn := wbits w 24 0 }

/-- The types of an opcode (R166): none for an undefined opcode. -/
def vecTypes (op : Nat) : Option (List Nat) :=
  let fi := [0, 1, 2, 3, 4, 5, 6]
  let i := [4, 5, 6]
  if (1 ≤ op ∧ op ≤ 8) ∨ op = 9 ∨ op = 0x18 ∨ op = 0x19 ∨ op = 0x1A ∨ op = 0x20 ∨ op = 0x21 ∨ op = 0x22 then some fi
  else if op = 0xA ∨ op = 0xB then some i
  else if op = 0x10 ∨ op = 0x11 ∨ op = 0x14 ∨ op = 0x15 ∨ op = 0x28 ∨ op = 0x29 then some [0]
  else if op = 0x12 ∨ op = 0x13 ∨ op = 0x2C ∨ op = 0x2D then some [0, 3]
  else if op = 0x23 ∨ op = 0x26 then some [0, 4]
  else if op = 0x25 then some [0, 3, 4, 5, 6]
  else if op = 0x24 ∨ op = 0x2E ∨ (0x30 ≤ op ∧ op ≤ 0x3B) then some [0]
  else none

/-- The function codes that an opcode defines (R166, R174). -/
def VIns.fnOk (n : VIns) : Bool :=
  match n.op with
  | 7 => decide (n.fn % 4 < 3)
  | 8 => decide (n.fn % 8 < 7)
  | 0x10 | 0x11 => decide (n.fn % 8 < 6)
  | 0x18 => decide (n.fn % 4 < 3)
  | 0x22 => decide (n.fn % 8 < 7)
  | 0x25 =>
    let src := bits n.fn 4 2
    if n.ty = 0 ∨ n.ty = 3 then [4, 5, 6].contains src else [0, 3, 4, 5, 6].contains src
  | 0x32 => decide (bits n.fn 24 22 < 4)
  | 0x34 => decide (bits n.fn 24 22 < 3)
  | _ => true

/-- The word is one that the engine executes: a listed type and no reserved bit (R164 to R166). -/
def VIns.ok (n : VIns) : Bool :=
  (vecTypes n.op).any (·.contains n.ty) && n.fnOk && [n.dst, n.s1, n.s2, n.s3].all (fun s => !bit s 5)

/-- Bytes of an element of a type (R161). -/
def tyBytes : Nat → Nat
  | 0 => 4 | 1 => 2 | 2 => 2 | 3 => 8 | 4 => 4 | 5 => 2 | _ => 1

/-- Elements of a type in a register (R161). -/
def tyCount (ty : Nat) : Nat := 256 / tyBytes ty

/-- A type is one of the floating ones. -/
def isF (ty : Nat) : Bool := decide (ty < 4)

/-- A list of codes of `w` bits each as one number, the first lowest. -/
def packN (w : Nat) : List Nat → Nat
  | [] => 0
  | c :: cs => c % 2 ^ w + 2 ^ w * packN w cs

/-- Element j of `w` bits of a register value. -/
def elemAt (w : Nat) (v : BitVec 2048) (j : Nat) : Nat := (v >>> (w * j)).toNat % 2 ^ w

/-- Advancing cycles from issue to result (R166). -/
def VIns.latency (n : VIns) : Nat :=
  let d := n.ty == 3
  match n.op with
  | 1 | 2 => if isF n.ty then (if d then 6 else 4) else 2
  | 3 | 4 => if isF n.ty then (if d then 6 else 4) else 3
  | 0x10 | 0x11 => 12
  | 0x12 | 0x13 => if d then 24 else 16
  | 0x14 | 0x15 => 14
  | 0x18 => if d then 12 else 10
  | 0x1A | 0x20 | 0x22 | 0x25 | 0x2C | 0x38 | 0x39 => 3
  | 0x23 | 0x26 => 5
  | 0x24 => 4
  | 0x28 => 70
  | 0x29 => 48
  | 0x2D => 6
  | 0x32 | 0x33 | 0x34 | 0x3A => 1
  | _ => 2

/-- Spindle cycles that an instruction occupies at issue, PLYCOMB apart (R166). -/
def VIns.interval (n : VIns) : Nat :=
  let d := n.ty == 3
  match n.op with
  | 1 | 2 | 3 | 4 | 5 | 6 | 7 | 0x18 => if d then 2 else 1
  | 0x12 | 0x13 => if d then 8 else 4
  | 0x14 | 0x15 => 2
  | 0x22 => if d || n.fn % 8 == 3 then 2 else 1
  | 0x24 | 0x2D => 4
  | 0x28 => 64
  | 0x29 => 8
  | _ => 1

/-- The hold window that the engine is in (R183, R184). -/
def Vec.hold (v : Vec) : Option Nat := if v.holdAt.isSome then some v.holdNo else none

/-- Bits of no defined content, from the free bytes of an index. -/
def freeBits (i n : Nat) : Nat := leNat (freeBytes i n)

/-- A register as an instruction reads it now: bytes that a write still on its way covers have no defined value unless read
and write lie in one hold window (R167, R184). `free` indexes the free bytes. -/
def Vec.read (v : Vec) (free : Nat) (r : Fin 32) : BitVec 2048 :=
  (v.regWrites.filter (fun w => w.reg == r && !(w.hold.isSome && w.hold == v.hold))).foldl
    (fun b w => (b &&& ~~~w.mask) ||| (BitVec.ofNat 2048 (freeBits free 256) &&& w.mask)) v.v[r]

/-- A mask as an instruction reads it; M0 is all ones (R161, R184). -/
def Vec.readMask (v : Vec) (free : Nat) (m : Fin 4) : BitVec 256 :=
  if m = 0 then BitVec.allOnes 256
  else (v.maskWrites.filter (fun w => w.reg == m && !(w.hold.isSome && w.hold == v.hold))).foldl
    (fun b w => (b &&& ~~~w.set) ||| (BitVec.ofNat 256 (freeBits free 32) &&& w.set)) v.mask[m]

/-- Put a result among those on their way, in the order of arrival. -/
def addByDue {α : Type} (due : α → Nat) (x : α) : List α → List α
  | [] => [x]
  | y :: ys => if due x < due y then x :: y :: ys else y :: addByDue due x ys

/-- What stops an instruction (R188): a cause, or cause 7 with the bytes that met protected ones. -/
inductive VFault where
  | cause (c : BitVec 4) | hit (o n : Nat)
  deriving DecidableEq, Repr

/-- What an instruction is given: its word, its spindle, the free values' index and the pattern's seed. -/
structure VCtx where
  ins : VIns
  sp : Spindle
  free : Nat
  seed : Nat
  deriving DecidableEq, Repr

/-- The window offset and length of the path of an address register (R162). -/
def adrPath (a : Nat) : Option (Nat × Nat) :=
  if a < 12 then some (a / 4 * 0x200000, 0x200000)
  else if a < 14 then some (0x800000, 0x200000)
  else if a = 14 then some (0x600000, 0x3A000)
  else none

/-- Number of a path (R162). -/
def adrPathNo (a : Nat) : Nat := if a < 12 then a / 4 else if a < 14 then 3 else 4

/-- The address register of a memory specifier (R165). -/
def specAdr (s : Nat) : Nat := s % 16
/-- The specifier names memory (R165). -/
def specMem (s : Nat) : Bool := bit s 6
/-- The register of a specifier (R165). -/
def specReg (s : Nat) : Fin 32 := ⟨s % 32, by omega⟩

/-- The window offset of `n` bytes at a displacement from an address register's place: aligned, in the path's range (R163). -/
def SpindleState.place (x : SpindleState) (a n align : Nat) (disp : Int) : Except VFault Nat :=
  match adrPath a with
  | none => .error (.cause 2)
  | some (base, len) =>
    if h : a < 15 then
      let r := x.vec.adr[a]
      let o : Int := r.base + r.ptr + disp
      if o < 0 ∨ (len : Int) < o + n ∨ o % align ≠ 0 then .error (.cause 2) else .ok (base + o.toNat)
    else .error (.cause 2)

/-- Post-update of an address register (R163). -/
def Adr.step' (r : Adr) : Adr :=
  let p := r.ptr + r.step
  { r with ptr := if r.length = 0 then p else p % r.length }

/-- Post-update where a specifier asks for it (R163, R165). -/
def SpindleState.post (x : SpindleState) (s : Nat) : SpindleState :=
  if h : specAdr s < 15 then
    if specMem s && bit s 4 then { x with vec := { x.vec with adr := x.vec.adr.set (specAdr s) (x.vec.adr[specAdr s]).step' } }
    else x
  else x

/-- The least power of two that is not below n. -/
def pow2Above (n : Nat) : Nat := if n ≤ 1 then 1 else 2 ^ ((n - 1).log2 + 1)

/-- Bytes of the window as the engine reads them, with the free values' index: an uncorrectable one is cause 6 (R148, R188, R225). -/
def SpindleState.fetch (x : SpindleState) (free o n : Nat) : Except VFault (List Byte) :=
  if x.bad o n then .error (.cause 6) else .ok (x.readBytes free o n)

/-- Read `n` bytes of a memory operand and post-update (R163). -/
def SpindleState.memOperand (x : SpindleState) (free s n align : Nat) : Except VFault (List Byte × SpindleState) := do
  let o ← x.place (specAdr s) n align 0
  let b ← x.fetch free o n
  pure (b, x.post s)

/-- An operand's access size: FP64 arithmetic reads half-registers (R161, R163, R166). -/
def VIns.align (n : VIns) : Nat := if n.ty == 3 && n.interval != 1 then 128 else 256

/-- Read a whole source operand: its bits, and whether its values are in flight (R98, R165). -/
def SpindleState.source (x : SpindleState) (c : VCtx) (k s : Nat) : Except VFault (BitVec 2048 × Bool × SpindleState) :=
  if specMem s then do
    let (b, x) ← x.memOperand (c.free + 2048 + 256 * k) s 256 c.ins.align
    pure (BitVec.ofNat 2048 (leNat b), false, x)
  else .ok (x.vec.read (c.free + 256 * k) (specReg s), !x.vec.byLd.getLsbD (specReg s).val, x)

/-- The mask of an instruction. -/
def VCtx.maskOf (c : VCtx) (x : SpindleState) : BitVec 256 := x.vec.readMask (c.free + 1024) c.ins.mask

/-- A register must stand here, or memory must: else the word is undefined (R164, R188). -/
def needReg (s : Nat) : Except VFault Unit := if specMem s then .error (.cause 1) else .ok ()
/-- A memory operand must stand here. -/
def needMem (s : Nat) : Except VFault Unit := if specMem s then .ok () else .error (.cause 1)

/-- Send a register result on its way (R167). -/
def SpindleState.putReg (x : SpindleState) (r : Fin 32) (lat : Nat) (bits mask : BitVec 2048) (byLd ftap : Bool) : SpindleState :=
  let w : RegWrite := { due := x.vec.cycle + lat, reg := r, bytes := bits, mask := mask, byLd := byLd, ftap := ftap
                        hold := x.vec.hold }
  { x with vec := { x.vec with regWrites := addByDue (·.due) w x.vec.regWrites } }

/-- Send bytes on their way to a window offset: cause 7 where they meet a protected byte (R75, R148, R162, R167). -/
def SpindleState.putMem (x : SpindleState) (o lat : Nat) (bs : List (Option Byte)) : Except VFault SpindleState :=
  if x.protects o bs.length then .error (.hit o bs.length)
  else
    let w : MemWrite := { due := x.vec.cycle + lat, at_ := o, bytes := bs }
    .ok { x with vec := { x.vec with memWrites := addByDue (·.due) w x.vec.memWrites } }

/-- The bytes that a result writes to memory. -/
def maskedBytes (n : Nat) (v m : BitVec 2048) : List (Option Byte) :=
  (List.range n).map (fun i => if m.getLsbD (8 * i) then some ((v >>> (8 * i)).setWidth 8) else none)

/-- Advancing cycles until a memory write retires: two for the instructions that R167 names, else the latency. -/
def VIns.memLatency (n : VIns) : Nat := if [0x21, 0x23, 0x25, 0x26, 0x38].contains n.op then 2 else n.latency

/-- Write a result of `n` bytes to the destination: `v` its bits, `m` ones where active elements lie. A register's other bytes
become 0 (R161). -/
def SpindleState.dest (x : SpindleState) (c : VCtx) (n : Nat) (v m : BitVec 2048) (byLd : Bool) : Except VFault SpindleState :=
  let s := c.ins.dst
  if specMem s then do
    let o ← x.place (specAdr s) n (if n = 256 then c.ins.align else n) 0
    let x ← x.putMem o c.ins.memLatency (maskedBytes n v m)
    pure (x.post s)
  else
    let rest : BitVec 2048 := ~~~(BitVec.ofNat 2048 (2 ^ (8 * n) - 1))
    .ok (x.putReg (specReg s) c.ins.latency (v &&& ~~~rest) (m ||| rest) byLd false)

/-- Two operands of one instruction may not be read through one path on a spindle other than an ingest spindle (R162, R189). -/
def pathsOk (sp : Spindle) (reads : List Nat) : Bool :=
  isIngest sp ||
    (let ps := (reads.filter specMem).map (fun s => adrPathNo (specAdr s))
     ps.eraseDups.length == ps.length)

/-- Ones over the active elements of a type among the first n (R161). -/
def activeBits (ty n : Nat) (m : BitVec 256) : BitVec 2048 :=
  let w := 8 * tyBytes ty
  BitVec.ofNat 2048 (packN w ((List.range n).map (fun j => if m.getLsbD (tyBytes ty * j) then 2 ^ w - 1 else 0)))

/-- The engine's clock: the time at which it can issue its next word. -/
def State.vecNow (s : State) (i : Spindle) : Time := max s.now (s.spindles[i]).vec.readyAt

/-- The engine stands at a word and may issue. -/
def State.vecReady (s : State) (i : Spindle) : Bool :=
  let v := (s.spindles[i]).vec
  v.running && !v.stopped && !s.spDown i

/-- A vector fault (R188): earlier writes retire, cause and address are latched, no further pass or routine issues, the step
aborts; the handler's interrupt waits where it is enabled, else the engine halts. -/
def State.vecFault (s : State) (i : Spindle) (c : BitVec 4) : State :=
  let s := s.drainEngine i
  let x := s.spindles[i]
  let v := { x.vec with
    faultCause := if x.vec.faultSeen then x.vec.faultCause else c
    faultPc := if x.vec.faultSeen then x.vec.faultPc else x.vec.pc
    faultSeen := true, barred := true, waits := false }
  let v := if v.fltEn && !v.inHandler && v.running then { v with pending := v.pending ||| 4, holdAt := none, window := 0 } else v.abandon
  let s := s.modSp i (fun x => { x with vec := v, barred := true })
  let s := s.abort { code := 0x0850 + c.setWidth 16, unit := BitVec.ofNat 16 i.val }
  s.modSp i (fun x => { x with vec := v })

/-- An instruction stops with a fault; cause 7 is SPN_FAULT cause 7 too, and discards the passes whose bytes were met (R75, R82, R188). -/
def State.vecStop (s : State) (i : Spindle) : VFault → State
  | .cause c => s.vecFault i c
  | .hit o n => (s.protectFault i [(o, n)]).vecFault i 7

/-- The fault handler has run for 4,096 sc: it is halted (R186). -/
def State.forceHalt (s : State) (i : Spindle) : State :=
  (s.drainEngine i).modSp i (fun x => let x := x.vecHalt; { x with vec := { x.vec with forced := true } })

/-- The fault handler's time is over (R186). -/
def State.handlerOver (s : State) (i : Spindle) : Bool :=
  let v := (s.spindles[i]).vec
  v.running && v.inHandler && v.icause == 2 && decide (v.handlerAt + Time.sc 4096 ≤ s.vecNow i)

/-- The hold window is longer than 128 sc (R183). -/
def State.holdOver (s : State) (i : Spindle) : Bool :=
  let v := (s.spindles[i]).vec
  v.running && v.holdAt.any (fun t => decide (t + Time.sc 128 ≤ s.vecNow i))

/-- This boundary lies outside every restriction window (R183). -/
def Vec.openBoundary (v : Vec) : Bool := v.holdAt.isNone && v.window == 0 && !v.inHandler

/-- The word at the break address is about to issue (R182). -/
def Vec.atBreak (v : Vec) : Bool := v.breakEn && v.pc == v.breakAddr && v.pastBreak != some v.pc

/-- A debug break (R182): its interrupt waits, or the engine drains and stops. -/
def State.breakAt (s : State) (i : Spindle) : State :=
  let s := s.modSp i (·.reqResume s.now)
  let pc := (s.spindles[i]).vec.pc
  if (s.spindles[i]).vec.brkEn then
    s.modSp i (fun x => { x with vec := { x.vec with pending := x.vec.pending ||| 2, pastBreak := some pc } })
  else (s.drainEngine i).modSp i (fun x => if x.vec.running then { x with vec := { x.vec with stopped := true, epc := pc, pastBreak := some pc } } else x)

/-- Active loop levels, innermost first (R185). -/
def Vec.active (v : Vec) : List VecLoop := v.loops.take (v.loops.length - v.frozen)

/-- Where the engine goes after the word at `pc` (R180): loops left, next word, and whether it branched back. -/
def vecNext : List VecLoop → Nat → List VecLoop × Nat × Bool
  | [], pc => ([], pc + 1, false)
  | l :: ls, pc =>
    if pc = l.stop then
      if 1 < l.left then ({ l with left := l.left - 1 } :: ls, l.start, true) else vecNext ls pc
    else (l :: ls, pc + 1, false)

/-- Go to the next word; a branch back to a word that the loop buffer does not hold stalls issue by 3 sc (R180, R181). -/
def Vec.advance (v : Vec) : Vec :=
  let (ls, pc, back) := vecNext v.active v.pc.toNat
  let miss := if back && !v.buffer.contains pc then 3 else 0
  { v with loops := ls ++ v.loops.drop (v.loops.length - v.frozen), pc := BitVec.ofNat 13 pc
           readyAt := v.readyAt + Time.sc miss, stallSc := satAdd 32 v.stallSc miss }

/-- Accesses that an instruction makes to an ingest spindle's memory (R189). -/
def VIns.accesses (n : VIns) : Nat :=
  let one := fun s => if specMem s && decide (specAdr s < 12) then 1 else 0
  if n.op = 0x2D then one n.s1 + (if one n.dst = 1 then ceilDiv (bits n.fn 11 8) 2 else 0)
  else
    let used : List Nat := match n.op with
      | 0x30 | 0x31 | 0x32 | 0x34 | 0x35 | 0x36 | 0x37 | 0x3A | 0x3B => []
      | 0x26 => [n.s1] ++ (if bit n.fn 17 then [] else if bit n.fn 16 then [n.s3] else [n.s1])
      | _ => [n.dst, n.s1, n.s2, n.s3]
    (used.map one).sum

/-- Until when the grid's A-row stream and its weight load hold an access each, at time t (R189). -/
def SpindleState.busy (x : SpindleState) (t : Time) : List Time :=
  let str := (x.inGrid.filterMap (fun p => p.startedAt.map (fun a => a + Time.sc p.desc.m))).filter (fun e => decide (t < e))
  let wl := ((x.passes ++ x.armed).filterMap (fun p => p.loadAt.map (fun a => a + Time.sc 128))).filter (fun e => decide (t < e))
  str.take 1 ++ wl.take 1

/-- When an instruction issues and how long it occupies the issue (R166, R189). -/
def SpindleState.issueTime (x : SpindleState) (i : Spindle) (n : VIns) (now : Time) (interval : Nat) : Time × Nat :=
  let k := n.accesses
  if !isIngest i || k = 0 then (now, interval)
  else
    let b := x.busy now
    let at_ := if b.length < 2 then now else (b.foldl min (b.headD now))
    let free := 2 - min 2 (x.busy at_).length
    let sc := if free = 2 then (if 4 ≤ k then 3 else ceilDiv k 2) else (if k = 4 then 5 else k)
    (at_, max interval sc)

/-- What an instruction's meaning answers: the spindle after it, its numeric report, and its interval where the word alone
does not give it. -/
structure VDone where
  x : SpindleState
  rep : NumRep := {}
  interval : Option Nat := none
  /-- it goes to its own next word -/
  jumped : Bool := false
  /-- it waits and issues nothing yet (R130) -/
  stalls : Bool := false
  /-- it ends the routine -/
  halts : Bool := false
  deriving DecidableEq, Repr

/-- A routine ends: writes retire, its energy is charged and the sequencer goes on (R37, R47, R167). -/
def State.routineEnd (s : State) (i : Spindle) : State :=
  let s := (s.charge (dieOf i) (Config.vecCharge (s.spindles[i]).vec.routine)).drainEngine i
  s.modSp i (fun x => let x := x.vecHalt; { x with seq := if x.seq.stall == .vec then x.seq.finish else x.seq })

/-- The advancing cycle in which an instruction completes: its latency after it issues (R109, R166). -/
def VIns.completes (n : VIns) (cycle : Nat) (iv : Option Nat) : Nat := cycle + (match iv with | some i => i + 6 | none => n.latency)

/-- Complete the issue of an instruction (R109, R111, R167, R180, R190). -/
def State.vecDone (s : State) (i : Spindle) (n : VIns) (d : VDone) : State :=
  let pc := (s.spindles[i]).vec.pc
  let iv := d.interval.getD n.interval
  let (at_, sc) := (s.spindles[i]).issueTime i n (s.vecNow i) iv
  let stall := (at_ - s.vecNow i) / 10 + (sc - iv)
  let v := d.x.vec
  let report : List VecReport := if d.rep = {} then [] else [{ due := n.completes v.cycle d.interval, rep := d.rep }]
  let v := { v with
    cycle := v.cycle + iv, issued := satAdd 32 v.issued 1, routine := v.routine + 1, waits := false
    readyAt := at_ + Time.sc sc, stallSc := satAdd 32 v.stallSc stall
    pastBreak := if v.pastBreak == some pc then none else v.pastBreak
    window := v.window - 1, reports := report.foldl (fun l r => addByDue (·.due) r l) v.reports }
  let v := if d.jumped then v else v.advance
  let s := { s with fresh := s.fresh + 4096 }
  let s := s.modSp i (fun _ => { d.x with vec := v })
  if d.halts then s.routineEnd i else s

/-- The spindle as the word that the engine stands at finds it: what is due has arrived, and a break inside a window waits (R167, R182). -/
def State.vecAt (s : State) (i : Spindle) : SpindleState :=
  let v := (s.spindles[i]).vec
  let x := (s.spindles[i]).settle v.cycle
  if v.atBreak then { x.reqResume s.now with vec := { x.vec with pending := x.vec.pending ||| 2, pastBreak := some v.pc } } else x

/-- Issue the word that the engine stands at, for an opcode: unchanged where the engine cannot issue, an interrupt is to be
taken first, or another opcode stands there; a vector fault at an undefined word (R164 to R167, R182, R183, R186, R188). -/
def State.vecTry (s : State) (i : Spindle) (op : Nat) (f : VCtx → SpindleState → Except VFault VDone) : State :=
  let v := (s.spindles[i]).vec
  if !s.vecReady i then s
  else if s.handlerOver i then s.forceHalt i
  else if s.holdOver i then s.vecFault i 5
  else if v.pending ≠ 0 && v.openBoundary then s
  else if v.atBreak && (!v.brkEn || v.openBoundary) then s.breakAt i
  else
    let n := parseVec ((s.spindles[i]).seq.word v.pc)
    if (vecTypes n.op).isNone then s.vecFault i 1
    else if n.op ≠ op then s
    else if !n.ok then s.vecFault i 1
    else
      match f { ins := n, sp := i, free := s.fresh, seed := s.seed } (s.vecAt i) with
      | .error c => s.vecStop i c
      | .ok d =>
        if d.stalls then s.modSp i (fun x => { x with vec := { x.vec with waits := true } })
        else s.vecDone i n d

/-- The reports of instructions that are complete count, and the word issues if the engine still runs (R109, R171). -/
def State.vecIssue (s : State) (i : Spindle) (op : Nat) (f : VCtx → SpindleState → Except VFault VDone) : State :=
  (s.takeReports i (s.spindles[i]).vec.cycle).vecTry i op f

end Sys2Proof.Machine
end

