-- ==== Sys2Proof/Machine/WeftOps.lean ====
section
/-!
DEFINITION. The operations of the weft: arrivals, writes into a spindle, answers to their requesters, multicast branches
(R221 to R240).
-/
namespace Sys2Proof.Machine

/-- An endpoint as its nine bits (R221). -/
def endpointBits (e : Endpoint) : BitVec 9 := BitVec.ofNat 9 (128 * e.die.val + e.loc.toNat)

/-- Record a die's first weft code and the endpoint of its first error (R242). -/
def State.weftNote (s : State) (d : Die) (code : Code) (e : Endpoint) : State :=
  s.modDie d (fun x => if x.code = 0 then { x with code := code, errEp := endpointBits e } else x)

/-- The words that routers corrected on a packet's way count at the dies that it passed (R225, R242). -/
def State.countCorr (s : State) (passes : Die → Bool) (way : Transit) : State :=
  (List.finRange 4).foldl (fun s d =>
    if passes d then s.modDie d (fun x => { x with corr := satAdd 32 x.corr (way.fixed[d]).toNat }) else s) s

/-- A die lies on the route between two endpoints. -/
def onRoute (a b : Endpoint) (d : Die) : Bool := (route a b).any (WeftNode.onDie d)

/-- A packet arrived poisoned: 0x0986 is recorded and the step aborts (R225). -/
def State.weftPoison (s : State) (e : Endpoint) : State :=
  let s := s.weftNote e.die 0x0986 e
  let s := s.modDie e.die (fun x => { x with poison := true, uncorr := satAdd 32 x.uncorr 1 })
  s.abortCode 0x0986 (endpointBits e).toNat

/-- A write met protected bytes of a spindle: dropped, cause 7 recorded, the step aborts (R75, R82, R90). -/
def State.protectedHit (s : State) (i : Spindle) (rs : List (Nat × Nat)) : State := (s.protectFault i rs).abortCode 0x0847 i.val

/-- A write from outside into a spindle's window, with its status (R75, R225, R479). -/
def State.spindleWrite (s : State) (i : Spindle) (o : Nat) (data : List Byte) (poison : Bool) : State × Code :=
  if s.spDown i then (s, s.spStatus i)
  else if (s.spindles[i]).protects o data.length then (s.protectedHit i [(o, data.length)], 0x0484)
  else
    let s := s.modSp i (fun x => (x.putBytes o data).noteBad o data.length poison)
    (if poison then s.weftPoison (spindleEndpoint i) else s, 0)

/-- A fabric endpoint delivers an answer to its region's outstanding request (R338). -/
def State.fabricDeliver (s : State) (e : Endpoint) (tag : Nat) (status : Code) (data : List Byte) : State :=
  match fabricAtEp e with
  | none => s
  | some i =>
    let t : BitVec 12 := BitVec.ofNat 12 tag
    s.modFab e.die (fun f => { f with eps := vmod f.eps i (fun x =>
      if x.outstanding.any (fun o => o.tag == t) then
        { x with outstanding := x.outstanding.filter (fun o => o.tag != t), answers := x.answers ++ [(t, status, data)] }
      else x) })

/-- A read response reaches its requester (R221). -/
def State.deliverRead (s : State) (p : Packet) : State :=
  match p.owner with
  | .chan c => s.chanRead c p.tag p.status p.data p.poison
  | .fabric => s.fabricDeliver p.dst p.tag p.status p.data
  | _ => s

/-- A write acknowledgement reaches its source (R284). -/
def State.deliverAck (s : State) (p : Packet) : State :=
  match p.owner with
  | .chan c => s.chanAck c p.tag p.status
  | .link l st => s.streamAck l st p.tag p.status p.addr
  | .fabric => s.fabricDeliver p.dst p.tag p.status []
  | _ => s

/-- A die's records of a packet on its way: corrected words, and 0x0986 for an uncorrectable one (R225). -/
def State.wayRecords (s : State) (p : Packet) (way : Transit) : State :=
  let s := s.countCorr (onRoute p.src p.dst) way
  if way.bad then s.weftPoison p.dst else s

/-- What the way of the next packet on a channel did to it, at an endpoint whose own command takes it: an uncorrectable word marks it
poisoned, and it travels on (R225). -/
def State.markWay (s : State) (src dst : Endpoint) (vc : BitVec 2) (way : Transit) : State :=
  match s.takePacket (fun p => p.kind != .mcast && p.src == src && p.dst == dst && p.vc == vc) with
  | none => s
  | some (p, _) =>
    ({ s with flight := s.flight.map (fun q => if q == p then { q with poison := q.poison || way.bad } else q) }).wayRecords p way

/-- Mesh column of a spindle (R218). -/
def columnOf (i : Spindle) : Nat := (meshAt (i.val % 32)).1

/-- An output leads to a spindle. -/
def leadsTo (o : McOut) (i : Spindle) : Bool :=
  match o with
  | .die d => dieOf i == d
  | .column d x => dieOf i == d && columnOf i == x.val
  | .spindle j => i == j

/-- The die whose router holds an output. -/
def outDie (o : McOut) (src : Die) : Die :=
  match o with
  | .die _ => src
  | .column d _ => d
  | .spindle i => dieOf i

/-- Receivers of a stream below an output (R238, R239). -/
def State.below (s : State) (st : McStream) (o : McOut) : List Spindle :=
  let mask := if h : st.group < 64 then (s.dies[st.src.die]).mcast[st.group] else 0
  (List.finRange 128).filter (fun i => mask.getLsbD i.val && leadsTo o i)

/-- What an output holds. -/
def McStream.branch (st : McStream) (o : McOut) : McBranch := (st.branches.find? (fun b => b.out == o)).getD { out := o }

/-- Set what an output holds; one that holds nothing and is not pruned is not listed. -/
def McStream.setBranch (st : McStream) (b : McBranch) : McStream :=
  let rest := st.branches.filter (fun x => x.out != b.out)
  { st with branches := if b.skid.isEmpty && !b.pruned then rest else rest ++ [b] }

/-- Replace a stream. -/
def State.setStream (s : State) (st : McStream) : State :=
  { s with streams := s.streams.map (fun x => if x.src == st.src && x.stream == st.stream then st else x) }

/-- Note a status on a packet that awaits its acknowledgement. -/
def McStream.noteStatus (st : McStream) (tag : Nat) (c : Code) : McStream :=
  { st with acks := st.acks.map (fun a => if a.pkt.tag == tag && a.status = 0 then { a with status := c } else a) }

/-- A receiver's copy of a stream is not complete. -/
def McStream.tear (st : McStream) (i : Spindle) : McStream := { st with torn := st.torn ||| (1#128 <<< i.val) }

/-- Prune an output: the receivers below it are torn, 0x0984 is recorded and the step aborts (R240). -/
def State.prune (s : State) (st : McStream) (o : McOut) : State × McStream :=
  let d := outDie o st.src.die
  let rs := s.below st o
  let first := (rs.head?).getD 0
  let st := (rs.foldl McStream.tear st).setBranch { out := o, pruned := true }
  let s := s.weftNote d 0x0984 st.src
  let s := s.modDie d (fun x =>
    let x := { x with torn := true }
    if x.tornValid then x
    else { x with tornValid := true, tornGroup := BitVec.ofNat 6 st.group, tornSpindle := BitVec.ofNat 7 first.val })
  (s.abortCode 0x0984 first.val, st)

/-- Post the stream's handle at a receiver (R239). -/
def State.postStream (s : State) (st : McStream) (i : Spindle) : State :=
  let h : Word := BitVec.ofNat 32 (st.stream % 4096 + 4096 * ceilDiv st.bytes 256)
  s.modSk (skeinOf i) (·.modRing st.ring (fun g =>
    if g.wiring.any (fun w => w.producer == 5) then { g.fill g.nextPost h with nextPost := g.nextPost + 1 } else g))

/-- A receiver stores a packet; with the last one it posts the handle if its copy is complete (R239). -/
def State.takeFlits (s : State) (st : McStream) (i : Spindle) (p : Packet) : State × McStream :=
  let (s, c) := s.spindleWrite i p.addr p.data p.poison
  let st := (if c = 0 then st else st.tear i).noteStatus p.tag c
  (if p.last && !st.torn.getLsbD i.val then s.postStream st i else s, st)

/-- The next hop of an output takes no flit: the event says so, or the route toward the die has an edge that is down (R239, R482). -/
def State.outBlocked (s : State) (st : McStream) (blocked : List McOut) (o : McOut) : Bool :=
  blocked.contains o ||
  (match o with
   | .die d => (dieRoute st.src.die d).any (fun n => match n with | .edge e => !(s.edges[e]).up | _ => false)
   | _ => false)

/-- What an output does with the flits that its next hop takes. -/
abbrev McPass := State → McStream → Packet → State × McStream

/-- Offer a packet to an output: past a skid that holds packets or a next hop that takes none it waits in the skid; a skid of 32 flits
that cannot take it is pruned (R239, R240). -/
def State.offerOut (s : State) (st : McStream) (blocked : List McOut) (p : Packet) (o : McOut) (pass : McPass) : State × McStream :=
  let b := st.branch o
  if (s.below st o).isEmpty || b.pruned then (s, st)
  else if s.outBlocked st blocked o || !b.skid.isEmpty then
    let flits := fun (q : Packet) => ceilDiv q.data.length 128
    if (b.skid.map flits).sum + flits p ≤ 32 then
      (s, st.setBranch { b with skid := b.skid ++ [p], since := some (b.since.getD s.now) })
    else s.prune st o
  else pass s st p

/-- The spindles of a column (R218). -/
def columnSpindles (d : Die) (x : Fin 8) : List Spindle := (List.finRange 128).filter (leadsTo (.column d x))

/-- Creel router C_x replicates a packet toward its column (R239). -/
def passColumn (blocked : List McOut) (d : Die) (x : Fin 8) : McPass := fun s st p =>
  (columnSpindles d x).foldl (fun acc i => acc.1.offerOut acc.2 blocked p (.spindle i) (fun s st p => s.takeFlits st i p)) (s, st)

/-- The crossbar of a die replicates a packet toward its columns (R239). -/
def passDie (blocked : List McOut) (d : Die) : McPass := fun s st p =>
  (List.finRange 8).foldl (fun acc x => acc.1.offerOut acc.2 blocked p (.column d x) (passColumn blocked d x)) (s, st)

/-- The source die's crossbar replicates a packet toward its columns and the other dies (R239). -/
def passSource (blocked : List McOut) (src : Die) : McPass := fun s st p =>
  (List.finRange 4).foldl (fun acc d =>
    if d = src then passDie blocked d acc.1 acc.2 p else acc.1.offerOut acc.2 blocked p (.die d) (passDie blocked d)) (s, st)

/-- What an output passes its flits on as. -/
def outPass (blocked : List McOut) : McOut → McPass
  | .die d => passDie blocked d
  | .column d x => passColumn blocked d x
  | .spindle i => fun s st p => s.takeFlits st i p

/-- An output whose next hop takes flits empties its skid (R239). -/
def State.drainOut (s : State) (st : McStream) (blocked : List McOut) (o : McOut) : State × McStream :=
  if s.outBlocked st blocked o then (s, st)
  else
    let b := st.branch o
    b.skid.foldl (fun acc p => outPass blocked o acc.1 acc.2 p) (s, st.setBranch { b with skid := [], since := none })

/-- Distance of an output from the receivers; those nearest drain first. -/
def outRank : McOut → Nat
  | .spindle _ => 0
  | .column _ _ => 1
  | .die _ => 2

/-- Every output whose next hop takes flits empties its skid, the spindles' first, then the columns', then the dies' (R239). -/
def State.drainStream (s : State) (st : McStream) (blocked : List McOut) : State × McStream :=
  [0, 1, 2].foldl (fun acc k =>
    ((acc.2.branches.map McBranch.out).filter (fun o => outRank o == k)).foldl (fun acc o => acc.1.drainOut acc.2 blocked o) acc) (s, st)

/-- Request the fence of a Basez endpoint; one already fenced or draining does not change (R227). -/
def State.fenceReq (s : State) (d : Die) (e : Fin 16) : State :=
  s.modDie d (fun x =>
    if x.basez.getLsbD e.val && !x.fenced.getLsbD e.val && !x.draining.getLsbD e.val then
      { x with draining := x.draining ||| (1#16 <<< e.val), fenceAt := vmod x.fenceAt e (fun _ => s.now) }
    else x)

/-- Release a fenced endpoint; a release during the drain is held until the drain ends (R227). -/
def State.fenceRel (s : State) (d : Die) (e : Fin 16) : State :=
  s.modDie d (fun x =>
    let m := 1#16 <<< e.val
    if x.draining.getLsbD e.val then { x with releaseHeld := x.releaseHeld ||| m }
    else if x.fenced.getLsbD e.val then
      { x with fenced := x.fenced &&& ~~~m, acceptAt := vmod x.acceptAt e (fun _ => s.now + Time.sc 4) }
    else x)

/-- An endpoint takes no packet: it drains, is fenced, or was released less than 4 sc ago (R227). -/
def State.epFenced (s : State) (d : Die) (e : Fin 16) : Bool :=
  let x := s.dies[d]
  x.fenced.getLsbD e.val || (x.draining.getLsbD e.val && decide (x.fenceAt[e] + Time.sc 1 ≤ s.now)) ||
    decide (s.now < x.acceptAt[e])

/-- The drain of an endpoint ends: fenced is set; a clock switch that waited for it takes place and releases the endpoint, and so does
a release that was held (R227, R345). -/
def State.fenceDone (s : State) (d : Die) (e : Fin 16) : State :=
  let m := 1#16 <<< e.val
  let held := (s.dies[d]).releaseHeld.getLsbD e.val
  let s := s.modDie d (fun x => { x with
    fenced := x.fenced ||| m, draining := x.draining &&& ~~~m, releaseHeld := x.releaseHeld &&& ~~~m })
  let r := ((s.fabric[d]).regions[e])
  match r.switching with
  | some c =>
    (s.modFab d (fun f => { f with regions := vmod f.regions e (fun x => { x with clkSel := c, switching := none }) })).fenceRel d e
  | none => if held then s.fenceRel d e else s

/-- A read that bypasses the creel goes on to its memory controller (R234). -/
def State.bypass (s : State) (p : Packet) : State :=
  match (s.decodeAddr p.addr).endpoint with
  | some e => s.send { p with dst := e }
  | none => s.send (p.answer .readResp 0x0981 [] false)

/-- The response to a read whose lines are all there. -/
def CreelWait.reply (w : CreelWait) : Packet :=
  let ls := linesOf w.pkt.addr w.pkt.bytes
  let bytes := ls.flatMap (fun l => ((w.parts.find? (fun q => q.1 == l)).map (·.2)).getD [])
  w.pkt.answer .readResp w.status ((bytes.drop (w.pkt.addr % 256)).take w.pkt.bytes) w.poison

/-- Look up one line of a read: a hit, a merge into a fetch, or a new fetch (R234, R235). -/
def State.creelLine (s : State) (d : Die) (w : CreelWait) (n : Nat) : State × CreelWait :=
  let x := homeSlice n
  let sl := (s.dies[d]).slices[x]
  match sl.lines.find? (fun l => l.n == n) with
  | some l => (s.noteHit d l, { w with parts := w.parts ++ [(n, l.data)] })
  | none =>
    match sl.fetches.find? (fun f => f.n == n && !f.stale) with
    | some f =>
      (s.modDie d (fun y => { y with merged := satAdd 32 y.merged 1 }), { w with need := w.need ++ [(n, f.id)] })
    | none =>
      let id := sl.fetches.foldl (fun m f => max m (f.id + 1)) 0
      let w := { w with need := w.need ++ [(n, id)] }
      let s := s.modDie d (fun y => { y with misses := satAdd 32 y.misses 1 })
      let s := s.modSlice d x (fun y => { y with
        fetches := y.fetches ++ [{ n := n, id := id, allocate := s.creelClass d (256 * n) == 1 }] })
      let q : Packet := { kind := .readReq, src := sliceEndpoint d x, dst := sliceEndpoint d x, vc := 1, owner := .slice,
                          tag := id, addr := 256 * n, bytes := 256 }
      (s.bypass q, w)

/-- Drop every line of a die's creel; fetches under way deliver and do not allocate (R236). -/
def State.emptyCreel (s : State) (d : Die) : State :=
  s.modDie d (fun x => { x with
    emptying := some s.now
    slices := x.slices.map (fun y => { y with lines := [], plru := [], fetches := y.fetches.map (fun f => { f with stale := true }) }) })

/-- Acknowledge the packets that no output holds any more (R284). -/
def State.ackStream (s : State) (st : McStream) : State × McStream :=
  let inSkid := fun (a : McAck) => st.branches.any (fun b => b.skid.any (fun p => p.tag == a.pkt.tag))
  let done := st.acks.filter (fun a => !inSkid a)
  let s := done.foldl (fun s a => s.send (a.pkt.answer .writeAck a.status [] false)) s
  (s, { st with acks := st.acks.filter inSkid })

end Sys2Proof.Machine
end

