-- ==== Sys2Proof/Machine/Steps.lean ====
section
/-!
DEFINITION. The operations around a step: what a pattern loads, the reset of every unit at a step start, ring shares,
overrun at the edge, the commit and the end of a job (R35, R39 to R45, R195, R209, R425 to R431, R486).
-/
namespace Sys2Proof.Machine

/-- Uses of rings by a staple's code: ring, whether a push, and how often. -/
abbrev RingUse := Nat × Bool × Nat

/-- The bytes of the descriptor that a word of a spindle's program names, as firmware takes them to stand (log 51). -/
def Image.planned (im : Image) (i pc o n : Nat) : List Byte := (List.range n).map (fun k => Config.plannedByte im i pc (o + k))

/-- The pass that a PASS word of a spindle's program issues, and its chain, as firmware takes them to stand. -/
def Image.plannedPass (im : Image) (i pc : Nat) : PassDesc × Option ChainDesc :=
  let d := parsePass (im.planned i pc 0 64)
  (d, if d.fusedAddr = 0xFFFFFFFF then none else some (parseChain (im.planned i pc 64 128)))

/-- The ring on which a PASS word arms its pass (R155). -/
def Image.triggerRing (im : Image) (i pc : Nat) : Option Nat :=
  match (im.plannedPass i pc).2 with
  | some c => if c.trigger then some c.trigRing else none
  | none => none

/-- Walk a staple's words from a program address to its SEND, expanding LOOP counts (R209): the loops under way are their
last word and their count. A trigger takes a position as a POP does (R211). -/
def stapleUses (prog : List Word64) (trig : Nat → Option Nat) : Nat → Nat → List (Nat × Nat) → List RingUse
  | 0, _, _ => []
  | fuel + 1, pc, loops =>
    let w := (prog[pc]?).getD 0
    let mult := loops.foldl (fun m l => m * l.2) 1
    let on := fun (ls : List (Nat × Nat)) (dest : Nat) => stapleUses prog trig fuel dest (ls.filter (fun l => decide (dest ≤ l.1)))
    match wbits w 63 58 with
    | 0x3 => []
    | 0x4 => match trig pc with
      | some r => (r, false, mult) :: on loops (pc + 1)
      | none => on loops (pc + 1)
    | 0x8 => (wbits w 4 0, true, mult) :: on loops (pc + 1)
    | 0x9 => (wbits w 4 0, false, mult) :: on loops (pc + 1)
    | 0xA => on ((pc + wbits w 28 16, wbits w 15 0) :: loops) (pc + 1)
    | 0xB => if wbits w 12 0 ≤ pc then [] else on loops (wbits w 12 0)
    | _ => on loops (pc + 1)

/-- The ring uses of a staple of a skein, from its jump-table word in its owner's program. -/
def Image.stapleRings (im : Image) (k : Skein) (table : Nat) (t : Staple) : List RingUse :=
  let i := 8 * k.val + t.owner.val
  let prog := im.prog i
  let pc := table + t.entry
  let w := (prog[pc]?).getD 0
  stapleUses prog (im.triggerRing i) 8192 (if wbits w 63 58 = 0xB then wbits w 12 0 else pc) []

/-- Insert a staple by its staple_id. -/
def insertUse (x : BitVec 16 × List RingUse) : List (BitVec 16 × List RingUse) → List (BitVec 16 × List RingUse)
  | [] => [x]
  | y :: ys => if x.1.ule y.1 then x :: y :: ys else y :: insertUse x ys

/-- The staples of a skein's board with their ring uses, in ascending staple_id. -/
def Image.boardUses (im : Image) (k : Skein) : List (BitVec 16 × List RingUse) :=
  match im.find 2 k.val with
  | none => []
  | some b => ((boardPhases b).flatMap (·.2)).foldr (fun t l => insertUse (t.id, im.stapleRings k (field b 8 2) t) l) []

/-- How often a staple uses a ring one way. -/
def useCount (us : List RingUse) (ring : Nat) (push : Bool) : Nat :=
  ((us.filter (fun u => u.1 == ring && u.2.1 == push)).map (·.2.2)).sum

/-- Consecutive positions for the staples that use a ring, from a first position (R209). -/
def assignShares (start : Nat) : List (BitVec 16 × Nat) → List RingShare
  | [] => []
  | (t, n) :: r => if n = 0 then assignShares start r else ⟨t, start, n⟩ :: assignShares (start + n) r

/-- The shares of the staples of a board in one ring. -/
def sharesOf (start : Nat) (board : List (BitVec 16 × List RingUse)) (ring : Nat) (push : Bool) : List RingShare :=
  assignShares start (board.map (fun t => (t.1, useCount t.2 ring push)))

/-- The rings of a skein at a step start, at their preload, with the positions of its staples (R195, R209). -/
def startRings (boards : Vector (List (BitVec 16 × List RingUse)) 16) (wires : Vector (List (Nat × RingWiring)) 16)
    (k : Skein) : Vector Ring 32 :=
  Vector.ofFn (fun r =>
    match (wires[k]).find? (fun w => w.1 == r.val) with
    | none => {}
    | some (_, w) =>
      let from_ : Skein := if w.producer = 1 then w.src else k
      ringOf (some w)
        (if w.producer ≤ 1 then sharesOf w.preload boards[from_] r.val true else [])
        (if w.consumer = 0 then sharesOf 0 boards[k] r.val false else []))

/-- What a pattern in effect puts into the skeins' descriptor stores, the creel windows, the multicast groups and the links
(R35, R234, R238, R274, R314, R478). -/
def State.loadPattern (s : State) (im : Image) : State :=
  let wins := ((im.regions 9).filter (fun r => r.cls != 0)).map (fun r =>
    ({ base := BitVec.ofNat 30 (r.base / 65536), limit := BitVec.ofNat 30 ((r.base + r.bytes - 1) / 65536),
       cls := BitVec.ofNat 2 r.cls } : CreelWin))
  let groups := im.groups
  let mask := fun (g : Fin 64) => ((groups.find? (fun x => x.1 == g.val)).map (·.2)).getD 0
  let s : State := { s with
    skeins := vall s.skeins (fun k x =>
      match im.find 4 k.val with
      | none => { x with lists := [], descs := [] }
      | some b => { x with lists := dmaLists b, descs := dmaDescs b })
    dies := s.dies.map (fun x => { x with
      wins := Vector.ofFn (fun n => (wins[n.val]?).getD {})
      mcastLoaded := Vector.ofFn mask })
    links := vall s.links (fun l x => { x with table := (im.find 5 l.val).map slotTable, tx := [], rx := [] }) }
  (List.finRange 4).foldl State.emptyCreel s

/-- The vector engine as the switch tick leaves it: registers and masks stay, every VEC_ field resets (R190). -/
def Vec.switched (v : Vec) : Vec := { v := v.v, mask := v.mask, byLd := v.byLd, cycle := v.cycle, holdNo := v.holdNo }

/-- A spindle at the switch tick: no pass has gone before on it (R35, R85, R119, R190). -/
def SpindleState.switched (mask : BitVec 7) (x : SpindleState) : SpindleState :=
  { x with
    gridFree := none
    vec := x.vec.switched
    num := { x.num with mask := mask }
    seq := { x.seq with activeBank := !x.seq.activeBank } }

/-- The switch of patterns: banks swap, the masks load, and the new pattern takes effect (R35, R108, R190). -/
def State.switchTo (s : State) (im : Image) : State :=
  let s := { s with spindles := s.spindles.map (SpindleState.switched (BitVec.ofNat 7 im.numericMask)) }
  ({ s with dist := { s.dist with active := some im, staged := none } }).loadPattern im

/-- A lane takes no part in a step: excluded by firmware, failed, or disabled (R207, R478, R490). -/
def State.laneOut (s : State) (i : Spindle) : Bool :=
  (s.skeins[skeinOf i]).excluded.getLsbD (laneOf i).val || s.flt.failed.getLsbD i.val ||
  (s.spindles[i]).power == .failed || (s.flt.spindleFn[i]).st != .on

/-- A lane never counts as short of STEPEND (R206): excluded since the step start, failed, disabled, or held in a rung. -/
def State.laneExcused (s : State) (i : Spindle) : Bool :=
  (s.skeins[skeinOf i]).excludedNow.getLsbD (laneOf i).val || s.spDown i || (s.spindles[i]).power == .failed ||
  (s.flt.spindleFn[i]).st != .on

/-- A spindle at a step start (R38, R57, R90, R119, R190, R538). -/
def SpindleState.startStep (x : SpindleState) (runs : Bool) (now : Time) : SpindleState :=
  { x with
    passes := [], armed := [], wrote := [], lastPass := none, lastLoad := none, preemptPending := none, preempted := false
    barred := false, cause := 0, faultSeen := false, restarted := false, faultTag := 0, faultRow := 0, passCount := 0
    rowCount := 0, restarts := 0, wstall := 0, tstall := 0, weightStall := false, pacerStall := false, thermalWait := false, returning := none
    seq := { bank0 := x.seq.bank0, bank1 := x.seq.bank1, activeBank := x.seq.activeBank, seqFault := x.seq.seqFault
             stepCycles := x.seq.stepCycles, idle := !runs, atEnd := !runs, runs := runs, startedAt := now, readyAt := now }
    vec := { v := x.vec.v, mask := x.vec.mask, byLd := x.vec.byLd, cycle := x.vec.cycle, holdNo := x.vec.holdNo
             breakAddr := x.vec.breakAddr, breakEn := x.vec.breakEn, forced := x.vec.forced, epc := x.vec.epc
             icause := x.vec.icause, faultPc := x.vec.faultPc, pc := x.vec.pc }
    num := { mask := x.num.mask } }

/-- The board of a skein at a step start (R193, R195, R204, R207, R216); a first phase without entries is complete at once (R202). -/
def SkeinState.startStep (x : SkeinState) (board : Option (List Byte)) (rings : Vector Ring 32) (out : BitVec 8) (now : Time) :
    SkeinState :=
  ({ x with
    slow := 0, excludedNow := out, boardActive := board.isSome, tableBase := (board.map (fun b => field b 8 2)).getD 0
    phases := match board with
      | none => []
      | some b => (boardPhases b).map (fun p =>
          { window := p.1, lists := Vector.ofFn (fun l => p.2.filter (fun t => t.owner == l)) })
    phase := 0, done := false, phaseAt := now, completeAt := none, latePhases := 0, lateCounted := false, returned := [], inProgress := []
    faultedOnce := [], stallFault := false, overrun := false, budgetRepeat := false, code := 0, takes := 0, steals := 0
    sends := 0, returnedCount := 0, stallLanes := 0, stallRings := 0, rings := rings
    channels := x.channels.map (fun c => { disable := c.disable, nextTag := c.nextTag, serial := c.serial }) } : SkeinState).checkPhase now

/-- The counters and status of a die's weft and creel at a step start, and the groups without the lanes that are out
(R238, R242, R243). -/
def DieState.startStep (x : DieState) (out : BitVec 128) : DieState :=
  { x with
    torn := false, poison := false, code := if x.fenceTimeout then x.code else 0, errEp := if x.fenceTimeout then x.errEp else 0
    corr := 0, uncorr := 0, tornGroup := 0, tornSpindle := 0, tornValid := false, sliverMax := 0, hits := 0, misses := 0
    merged := 0, crlCorr := 0, crlUncorr := 0, inval := 0, mcast := x.mcastLoaded.map (· &&& ~~~out) }

/-- A link's streams and step counters at a step start (R308, R318, R325). -/
def LinkState.startStep (x : LinkState) (b : Option (List Byte)) : LinkState :=
  { x with
    replaysStep := 0, slotsIdle := 0, defer := 0, slot := 0, displaced := []
    tx := (b.map txStreams).getD [], rx := (b.map rxStreams).getD [] }

/-- A function whose enabling waited for a step start is on (R490). -/
def Fn.atStart (f : Fn) : Fn := if f.enabling then { f with st := .on, enabling := false } else f

/-- Every unit at a step start of the pattern in effect (R486, R490). -/
def State.startUnits (s : State) (im : Image) : State :=
  let s := { s with
    spindles := vall s.spindles (fun i x =>
      if (s.flt.spindleFn[i]).enabling && x.power == SpindlePower.off then { x with power := .on } else x)
    flt := { s.flt with spindleFn := s.flt.spindleFn.map Fn.atStart, chanFn := s.flt.chanFn.map Fn.atStart } }
  let wires : Vector (List (Nat × RingWiring)) 16 := Vector.ofFn (fun k => im.wiring k)
  let boards : Vector (List (BitVec 16 × List RingUse)) 16 := Vector.ofFn im.boardUses
  let outMask : BitVec 128 := (List.finRange 128).foldl (fun m i => if s.laneOut i then m ||| (1#128 <<< i.val) else m) 0
  { s with
    spindles := vall s.spindles (fun i x => x.startStep (im.spindleRuns i) s.now)
    skeins := vall s.skeins (fun k x =>
      x.startStep (im.find 2 k.val) (startRings boards wires k) (laneMask k s.laneOut) s.now)
    dies := s.dies.map (fun (x : DieState) => x.startStep outMask)
    links := vall s.links (fun l x => x.startStep (im.find 5 l.val))
    streams := [], stats := []
    tick := { s.tick with pacer := vall s.tick.pacer (fun d p => p.start (s.declaredNj d)) } }

/-- The skeins of which an excluded lane owns a pinned entry (R207). -/
def State.pinnedLost (s : State) : List Skein :=
  (List.finRange 16).filter (fun k =>
    (s.skeins[k]).phases.any (fun p => (List.finRange 8).any (fun l =>
      (s.skeins[k]).excludedNow.getLsbD l.val && (p.lists[l]).any (·.pinned))))

/-- Change a job held. -/
def State.modJob (s : State) (id : BitVec 64) (f : Job → Job) : State :=
  { s with dist := { s.dist with jobs := s.dist.jobs.map (fun j => if j.id == id then f j else j) } }

/-- A job ends: its end report is kept among the last 64, and vector 32 is raised (R427, R428, R432). -/
def State.endJob (s : State) (id : BitVec 64) (st : JobState) (code : Code) : State :=
  match s.dist.jobs.find? (fun j => j.id == id) with
  | none => s
  | some j =>
    ({ s with dist := { s.dist with
        jobs := s.dist.jobs.filter (fun j => j.id != id)
        ended := ({ j with state := st, endCode := code } :: s.dist.ended).take 64 } }).raiseVector 32

/-- The 256 current-half bits after a commit: every output region of the pattern changes halves (R40). -/
def flipHalves (im : Image) (h : BitVec 256) : BitVec 256 :=
  (im.regions 8).foldl (fun h r => h ^^^ (1#256 <<< r.num)) h

/-- The commit of the step (R41, R425): the record is written, the notification and the delivery follow. -/
def State.commitJob (s : State) (j : Job) : State :=
  let half := match s.dist.active with
    | some im => flipHalves im j.commit.currentHalf
    | none => j.commit.currentHalf
  let done := s.step.index + 1
  let s := s.modJob j.id (fun j => { j with
    commit := { jobId := j.id, currentHalf := half, committedTick := s.step.tick.setWidth 64
                committedStep := BitVec.ofNat 64 done }
    poisonRerun := false })
  let s := if j.notify then s.raiseVector 33 else s
  if done = j.steps then s.endJob j.id .delivered 0 else s

/-- The discard of the step (R45, R113, R159, R207, R261, R430, R431): the record stays, and the job ends where it may not run again; its
report then names the cause that forbids it. What chains wrote in the step has no defined content. -/
def State.discardStep (s : State) (j : Job) : State :=
  let st := s.step
  let fin := match st.final with
    | some c => some c
    | none => if j.poisonRerun then st.poisoned else none
  let rep : Cause := fin.getD { code := st.cause, unit := st.unit, aux0 := st.aux0, aux1 := st.aux1, addr := st.addr, resume := st.resume }
  let c := j.commit.committedStep.toNat
  let again := s.tick.count.toNat + (j.steps - c)
  let s := s.loosenAll.modJob j.id (fun j => { j with
    firstCause := st.cause, origin := st.origin, unit := rep.unit, lastStep := st.index, lastTick := st.tick.toNat
    aux0 := rep.aux0, aux1 := rep.aux1, addr := if isPoison rep.code then s.poisonAddr rep.addr else rep.addr, resume := rep.resume })
  match fin with
  | some f => s.endJob j.id .endedEarly f.code
  | none =>
    if j.promise < again then s.endJob j.id .endedEarly 0x0230
    else s.modJob j.id (fun j => { j with discarded := j.discarded + 1, poisonRerun := st.poisoned.isSome })

/-- The causes that the edge finds in a step whose work is unfinished, first cause first (R42, R206, R318, R493). -/
def State.edgeCauses (s : State) : List Cause :=
  let slowLanes := fun (k : Skein) =>
    let m := (s.skeins[k]).slow ||| laneMask k s.laneExcused
    ((List.range 8).filter (m.getLsbD ·)).length
  let skeins := (List.finRange 16).filterMap (fun k =>
    let short := (List.finRange 8).any (fun l =>
      let i := spindleOf k l
      (s.spindles[i]).seq.runs && !(s.spindles[i]).seq.idle && !s.laneExcused i)
    let c := fun (code : Code) => some ({ code := code, unit := BitVec.ofNat 16 k.val, aux0 := s.laneStatus k } : Cause)
    if decide (2 ≤ slowLanes k) then c 0x0911
    else if short then c 0x0912 else none)
  let missed := (List.finRange 96).filterMap (fun l =>
    if (s.links[l]).rx.any (fun r => if r.e.token then r.lasts == 0 else decide (r.flits < r.e.count)) then
      some ({ code := 0x0507, unit := BitVec.ofNat 16 l.val } : Cause) else none)
  let thermal : List Cause :=
    if !s.step.level15 then [] else [{ code := if s.step.emergency then 0x0821 else 0x0820 }]
  thermal ++ skeins ++ missed

/-- Some work of the step is unfinished at its edge (R42). -/
def State.unfinished (s : State) : Bool :=
  (List.finRange 128).any (fun i => (s.spindles[i]).seq.runs && !(s.spindles[i]).seq.idle && !s.laneExcused i) ||
  s.skeins.any (fun k => k.channels.any Channel.busy) ||
  s.links.any (fun l => l.rx.any (fun r => if r.e.token then r.lasts == 0 else decide (r.flits < r.e.count)))

/-- The step window closes on unfinished work: skeins and links record their codes and the step is overrun (R42, R206, R318). -/
def State.closeOverrun (s : State) : State :=
  let causes := s.edgeCauses
  let s := causes.foldl (fun s c =>
    if c.code == 0x0911 || c.code == 0x0912 then
      s.modSk ⟨c.unit.toNat % 16, by omega⟩ (fun x => { x.note c.code with overrun := true })
    else if c.code == 0x0507 then
      s.modLink ⟨c.unit.toNat % 96, by omega⟩ (fun x => { x.note 0x0507 with slotMissed := true })
    else s) s
  match causes with
  | c :: _ => s.overrun c
  | [] => (s.overrun { code := freeCause s.fresh }).nextFree

/-- Write a statistics record where its address lies, with the status of the write. -/
def State.writeRecord (s : State) (r : StatRec) : State × Code :=
  match s.decodeAddr r.addr.toNat with
  | .spindle i o => s.spindleWrite i o (r.bytes s.step.index) false
  | .nowhere => (s, 0x0981)
  | _ => s.deviceWrite r.addr.toNat (r.bytes s.step.index)

/-- Write the step's statistics records, each once and complete (R116). -/
def State.writeStats (s : State) : State := s.stats.foldl (fun s r => (s.writeRecord r).1) s

/-- A statistics record that cannot be written aborts the step with the status its write would have. -/
def State.checkStats (s : State) : State :=
  s.stats.foldl (fun t r => if (s.writeRecord r).2 = 0 then t else t.abort { code := (s.writeRecord r).2, addr := r.addr }) s

/-- Work that is still outstanding when the drain ends (R42). -/
def State.outstanding (s : State) : Bool :=
  s.skeins.any (fun k => k.channels.any (fun c => !c.writes.isEmpty || c.busy)) ||
  s.links.any (fun l => l.rx.any (fun r => !r.owed.isEmpty)) ||
  s.spindles.any (fun x => !x.vec.memWrites.isEmpty || x.passes.any (fun p => p.startedAt.isSome))

/-- The job that the next step runs (R425, R486): the running one, else the queued job of lowest accept tick that is due under
the pattern in effect. -/
def State.jobDue (s : State) : Option Job :=
  match s.runningJob with
  | some j => some j
  | none =>
    let due := s.dist.jobs.filter (fun j => j.state == .queued && decide (j.accept ≤ s.tick.count.toNat) &&
      s.dist.active.any (fun im : Image => im.id == j.pattern))
    due.foldl (fun b j => match b with
      | none => some j
      | some x => if j.accept < x.accept then some j else some x) none

/-- Jobs whose cancel tick has come end (R428). -/
def State.endCancelled (s : State) : State :=
  let ended := s.dist.jobs.filter (fun j => j.cancelAt.any (fun t => decide (t ≤ s.tick.count.toNat)))
  ended.foldl (fun s j => s.endJob j.id .cancelled 0x0231) s

/-- A compute rung or the restore after it keeps the device out of the step (R484, R485). -/
def State.notInService (s : State) : Bool :=
  s.flt.outOfService || s.flt.restoringSince.isSome ||
  s.flt.rungs.any (fun r => decide (4 ≤ r.rung))

end Sys2Proof.Machine
end

