-- ==== Sys2Proof/Machine/Tick.lean ====
section
/-!
DEFINITION. The tick and step commands (chapter 01).
-/
namespace Sys2Proof.Machine

/-- The device takes its tick from a link (R23, R52). -/
def Tick.follower (t : Tick) : Bool := t.src == 0
/-- The device is the root of the tick tree (R23, R52). -/
def Tick.root (t : Tick) : Bool := t.src == 1 || t.src == 2

/-- The tick number of TCK_APPLY_TICK. -/
def Tick.applyTick (t : Tick) : Nat := t.applyLo.toNat + 2 ^ 32 * t.applyHi.toNat

/-- The period of a tick: an armed one from its named tick on (R29). -/
def Tick.periodAt (t : Tick) (n : BitVec 48) : BitVec 28 :=
  if t.periodArm && decide (t.applyTick = n.toNat) then t.periodNext else t.periodNs

/-- TICK_EDGE (R22, R24, R27, R42): the counter increments, the window of the step closes, unfinished work overruns it, and the
drain begins. -/
def execTickEdge (s : State) : Out := s.clocked <|
  let t := s.tick
  let due := if t.src == 2 then t.tickInAt.any (fun a => decide (a ≤ s.now)) else decide (t.nextEdge ≤ s.now)
  if !t.enable || t.src == 3 || !due || s.step.phase == .drain || s.step.phase == .spread then .next s
  else if t.count = 0xFFFFFFFFFFFF then .refused .tickWrap
  else
    let edge := if t.src == 2 then t.tickInAt.getD t.nextEdge else t.nextEdge
    let n := t.count + 1
    let s := { s with tick := { t with
      count := n, lastEdge := edge, nextEdge := edge + Time.ns t.periodNs.toNat, tickInAt := none
      tickOutUntil := s.now + Time.ns 10
      missed := if t.follower then (if t.flitSeen then 0 else t.missed + 1) else 0
      flitSeen := t.flitEarly, flitEarly := false } }
    let s := if t.root then
        s.sendTick { tick := n, rootRank := s.rank, fwdDelay := 0, depth := 0, periodNs := (t.periodAt n).setWidth 32 }
      else s
    if s.step.phase == .window then
      let s := if s.unfinished then s.closeOverrun else s
      .next { s with step := { s.step with phase := .drain }, tick := { s.tick with pacer := s.tick.pacer.map Pacer.stepDone } }
    else .next { s with step := { s.step with phase := .drain, begun := false } }

/-- DRAIN_END (R42, R116): at H_d, work still outstanding overruns the step, and a statistics record that has no place to go aborts it;
no work of the step remains after it. -/
def execDrainEnd (s : State) : Out := s.clocked <|
  if s.step.phase != .drain || decide (s.now < s.tick.lastEdge + Time.ns s.drainNs) then .next s
  else
    let s := if !s.step.begun then s else if s.outstanding then s.closeOverrun else s.checkStats
    .next { s with step := { s.step with phase := .spread } }

/-- COMMIT (R41, R42, R45, R116, R430): at H_c a good step writes its statistics records and commits; a discarded step leaves the record, and its job may end. -/
def execCommit (s : State) : Out := s.clocked <|
  if s.step.phase != .spread || decide (s.now < s.tick.lastEdge + Time.ns s.tick.holdNs.toNat) then .next s
  else
    let st := s.step
    let s' := { s with step := { st with phase := .idle, closed := true } }
    if !st.begun then .next s'
    else match s'.runningJob with
      | none => .next s'
      | some j => .next (if st.overrun || st.aborted || st.faulted then s'.discardStep j else s'.writeStats.commitJob j)

/-- STEP_START (R39, R195, R207, R484, R486): the device runs step committed_step of the running job, or the first step of the
job that is due; without a job it stays idle until the next edge. -/
def execStepStart (s : State) : Out := s.clocked <|
  if s.step.phase != .idle || !s.step.closed || !s.tick.enable || s.tick.stopped then .next s
  else
    let s := s.endCancelled
    match s.jobDue, s.dist.active with
    | some j, some im =>
      let s := s.modJob j.id (fun j => { j with state := .running, commit := { j.commit with jobId := j.id } })
      let hot := s.pwr.therm.any (fun t => t.level == 15) || s.flt.emergActive
      let named := match s.step.nextCause with
        | some (t, c, o) => if t == s.tick.count then some (c, o) else none
        | none => none
      let st : Step := { phase := .window, tick := s.tick.count, index := j.commit.committedStep.toNat, begun := true
                         beganAt := s.now, closed := false, level15 := hot, emergency := s.flt.emergActive }
      let st := match named with
        | some (c, o) => { st.note o { code := c } with aborted := o != s.rank, faulted := o == s.rank, seen := [(st.tick, o)] }
        | none => st
      let s := { s.startUnits im with step := st }
      let s := if s.notInService then s.abort { code := 0x0805 } else s
      let s := s.pinnedLost.foldl (fun s k =>
        (s.modSk k (·.note 0x0914)).abort { code := 0x0914, unit := BitVec.ofNat 16 k.val, aux0 := s.laneStatus k }) s
      .next (if named.isSome then s.stopStep else s)
    | _, _ => .next { s with step := { phase := .idle, closed := false, begun := false } }

/-- The fields of a TICK flit's payload (R310). -/
def tickPayload (f : Flit) : TickPayload :=
  { tick := BitVec.ofNat 48 (field f.payload 0 6), rootRank := BitVec.ofNat 16 (field f.payload 6 2)
    fwdDelay := BitVec.ofNat 32 (field f.payload 8 4), depth := BitVec.ofNat 16 (field f.payload 12 2)
    periodNs := BitVec.ofNat 32 (field f.payload 16 4) }

/-- TICK_FLIT (R24, R25, R29, R54, R307, R310): from the upstream link of a follower it places the edge of its tick, the next one when it
comes before the local edge, and is sent on; any other is dropped and counted. -/
def execTickFlit (l : Link) (f : Flit) (s : State) : Out :=
  if (s.links[l]).phase != .up || s.looped l then .next s
  else if !flitGood f then
    .next (s.modLink l (fun x => { x with crcErr := satAdd 16 x.crcErr 1, tickDrop := satAdd 32 x.tickDrop 1 }))
  else if f.kind != 4 then .next s
  else
    let s := s.takeAck l f
    let t := s.tick
    if !t.enable || !t.follower || t.upLink.toNat != l.val then
      .next (s.modLink l (fun x => { x with tickDrop := satAdd 32 x.tickDrop 1 }))
    else
      let p := tickPayload f
      let back := (t.linkComp.toNat + p.fwdDelay.toNat) * 17 / 16
      let placed := s.now - back
      let period := t.periodAt p.tick
      let early := p.tick == t.count + 1
      let expected := if early then t.nextEdge else t.lastEdge
      let err : Int := ((placed : Int) - (expected : Int)) * 16 / 17
      let adopt := p.tick != t.count && !early && s.step.phase == .idle && s.runningJob.isNone
      let good := p.periodNs == period.setWidth 32 && (early || adopt || p.tick == t.count)
      let clip := if 32767 < err then (32767 : Int) else if err < -32768 then -32768 else err
      let t' := { t with
        flitSeen := t.flitSeen || (good && !early)
        flitEarly := t.flitEarly || (good && early)
        count := if good && adopt then p.tick else t.count
        lastEdge := if good && !early then placed else t.lastEdge
        nextEdge := if !good then t.nextEdge else if early then placed else placed + Time.ns period.toNat
        phaseErr := BitVec.ofInt 16 clip
        locked := good && decide (-48 ≤ err) && decide (err ≤ 48)
        fwdDelay := p.fwdDelay, depth := p.depth, rootRank := p.rootRank }
      let residence := (Config.freeWord s.fresh).toNat % 641
      let out : TickPayload := { p with
        fwdDelay := BitVec.ofNat 32 (p.fwdDelay.toNat + t.linkComp.toNat + residence), depth := p.depth + 1
        periodNs := period.setWidth 32 }
      .next (({ s with tick := t' }).nextFree.sendTick out)

/-- TICK_LOSS (R28): a follower without a TICK flit for TCK_LOSS.limit expected edges aborts the step, starts no further step and
reports. -/
def execTickLoss (s : State) : Out := s.clocked <|
  let t := s.tick
  if !t.enable || !t.follower || t.lost || decide (t.missed < t.lossLimit.toNat) then .next s
  else
    let s := s.abort { code := 0x0808, unit := t.upLink.setWidth 16 }
    .next (({ s with tick := { s.tick with stopped := true, lost := true, locked := false } }).report 0x0808)

/-- PERIOD_ARM (R29, R53): arms the next period; a period out of range or a tick fewer than 2 ahead fails the arm. -/
def execPeriodArm (s : State) : Out :=
  let t := s.tick
  let p := t.periodNext.toNat
  if p < 20000 ∨ 200000000 < p ∨ t.applyTick < t.count.toNat + 2 then
    .next { s with tick := { t with periodArm := false, badPeriod := true } }
  else .next { s with tick := { t with periodArm := true } }

/-- PERIOD_APPLY (R29): the armed period takes effect at the start of the named tick. -/
def execPeriodApply (s : State) : Out := s.clocked <|
  let t := s.tick
  if t.periodArm && decide (t.applyTick = t.count.toNat) then
    .next { s with tick := { t with periodNs := t.periodNext, periodArm := false, nextEdge := t.lastEdge + Time.ns t.periodNext.toNat } }
  else .next s

/-- TCK_COUNT_LO_READ (R53): reading the low word latches the high one. -/
def execTckCountLoRead (s : State) : Out :=
  .next { s with tick := { s.tick with countHi := s.tick.count.extractLsb' 32 16 } }

/-- PACE_COMMIT (R14, R55): the floor and the coefficients take their shadows together. -/
def execPaceCommit (s : State) : Out :=
  .next { s with tick := { s.tick with floorUj := s.tick.floorUj.commit, coef := s.tick.coef.map Rws.commit } }

/-- PATTERN_SWITCH (R35, R432): at the start of the switch tick the verified pattern takes effect and vector 35 is raised. -/
def execPatternSwitch (s : State) : Out := s.clocked <|
  match s.dist.staged with
  | some g =>
    if g.armedAt == some s.tick.count.toNat && s.step.phase == .idle && s.step.closed then
      .next ((s.switchTo g.image).raiseVector 35)
    else .next s
  | none => .next s

end Sys2Proof.Machine
end

