-- ==== Sys2Proof/Machine/Watch.lean ====
section
/-!
DEFINITION. The hardware watchdog: which units it watches, the progress counters it samples and the window of a hang (R468, R469).
-/
namespace Sys2Proof.Machine

/-- A packet in the mesh or creel routers of a die: its route passes one, and a multicast packet of a source on the die passes its creel
routers (R217, R219, R239). -/
def Packet.inMesh (p : Packet) (d : Die) : Bool :=
  (route p.src p.dst).any (WeftNode.inMesh d) || (p.kind == .mcast && p.src.die == d)

/-- A spindle that the watchdog watches (R468, R496). -/
def State.spindleWatched (s : State) (i : Spindle) : Bool :=
  let x := s.spindles[i]
  s.step.phase == .window && x.seq.runs && !x.seq.idle && !s.spDown i && !x.pacerStall && !x.thermalWait && !x.preempted &&
  !s.ringWaits i &&
  (match x.seq.stall with | .next => false | .send => false | .event e => decide (36 ≤ e) | _ => true)

/-- Outputs of multicast streams where flits wait, with the number of packets there (R239). -/
def State.skids (s : State) : List (McOut × Nat) :=
  s.streams.flatMap (fun t => (t.branches.filter (fun b => !b.skid.isEmpty)).map (fun b => (b.out, b.skid.length)))

/-- A replication output at a creel router of a die; the others stand at crossbars (R239). -/
def atCreel (d : Die) : McOut → Bool
  | .spindle i => dieOf i == d
  | _ => false

/-- A packet under way crosses a crossbar. -/
def Packet.crosses (p : Packet) : Bool := p.kind == .mcast || (route p.src p.dst).any WeftNode.isCrossbar

/-- A unit that the watchdog watches (R468). -/
def State.watched (s : State) : WatchUnit → Bool
  | .spindle i => s.spindleWatched i
  | .channel c =>
    let x := (s.skeins[chanSkein c]).channels[chanIdx c]
    x.run.isSome && x.retryAt.isNone && !(s.skeins[chanSkein c]).inReset
  | .board k =>
    let x := s.skeins[k]
    x.boardActive && !x.done && !x.inReset && (List.finRange 8).any (fun l => (s.spindles[spindleOf k l]).seq.stall == .next)
  | .routers d => s.flight.any (·.inMesh d) || s.skids.any (fun o => atCreel d o.1)
  | .crossbar => s.flight.any Packet.crosses || s.skids.any (fun o => (List.finRange 4).all (fun d => !atCreel d o.1))

/-- The packets under way that satisfy a test, by their tags and times: they change with every packet that its routers pass on. -/
def State.underWay (s : State) (p : Packet → Bool) : List Nat := (s.flight.filter p).flatMap (fun q => [q.tag, q.sentAt])

/-- The progress counters of a unit (R468). The responses that a channel received are its requests less those outstanding. -/
def State.progress (s : State) : WatchUnit → List Nat
  | .spindle i => [(s.spindles[i]).passCount.toNat, (s.spindles[i]).vec.issued.toNat, (s.spindles[i]).seq.words]
  | .channel c =>
    let x := (s.skeins[chanSkein c]).channels[chanIdx c]
    [x.units.toNat, x.nextTag - (x.reads.length + x.writes.length)]
  | .board k => [(s.skeins[k]).takes.toNat, (s.skeins[k]).sends.toNat]
  | .routers d => s.underWay (·.inMesh d) ++ (s.skids.filter (fun o => atCreel d o.1)).map (·.2)
  | .crossbar => s.underWay Packet.crosses ++ s.skids.map (·.2)

/-- The watchdog's sample of a unit. -/
def State.sampleOf (s : State) (u : WatchUnit) : Watch :=
  match u with
  | .spindle i => s.flt.watchSpindle[i]
  | .channel c => s.flt.watchChannel[c]
  | .board k => s.flt.watchBoard[k]
  | .routers d => s.flt.watchRouters[d]
  | .crossbar => s.flt.watchCrossbar

/-- The next sample of a unit: its window starts again when it is not watched or a counter has changed (R468). -/
def State.sampled (s : State) (u : WatchUnit) : Watch :=
  let w := s.sampleOf u
  if s.watched u && w.seen == s.progress u then w else { since := s.now, seen := s.progress u }

/-- The watchdog samples every unit (R468). -/
def State.sample (s : State) : State :=
  { s with flt := { s.flt with
      watchSpindle := Vector.ofFn (fun i => s.sampled (.spindle i))
      watchChannel := Vector.ofFn (fun c => s.sampled (.channel c))
      watchBoard := Vector.ofFn (fun k => s.sampled (.board k))
      watchRouters := Vector.ofFn (fun d => s.sampled (.routers d))
      watchCrossbar := s.sampled .crossbar } }

/-- The window W_h: DST_WDOG_CFG.window_us, at least 10 µs; at 0 a quarter of the tick period, at least 10 µs (R469). -/
def State.hangWindow (s : State) : Time :=
  if s.flt.windowUs = 0 then max (Time.ns s.tick.periodNs.toNat / 4) (Time.us 10) else Time.us (max s.flt.windowUs.toNat 10)

/-- A unit hangs: it has been watched throughout a window and none of its counters has changed in it (R468). -/
def State.hung (s : State) (u : WatchUnit) : Bool :=
  let w := s.sampleOf u
  s.watched u && w.seen == s.progress u && decide (w.since + s.hangWindow ≤ s.now)

end Sys2Proof.Machine
end

