-- ==== Sys2Proof/Machine/Clock.lean ====
section
/-!
DEFINITION. The passage of one spindle cycle on an empty queue: what the part does at every cycle whatever is commanded
(budgets, pacers, stall counters, the watchdog; R46, R47, R56, R90, R468).
-/
namespace Sys2Proof.Machine

/-- What holds back a spindle's next pass in this cycle: its weights, the thermal level, the pacer. They run concurrently (R47, R65, R66,
R85, R86). -/
structure PassWait where
  weights : Bool := false
  thermal : Bool := false
  pacer : Bool := false
  deriving DecidableEq, Repr

/-- What holds back the pass at the head of a spindle's queue while the grid is free for it. A spindle that starts no pass at all, barred,
pre-empted or in a rung, waits for its weights alone. -/
def State.passWait (s : State) (i : Spindle) : PassWait :=
  let x := s.spindles[i]
  match x.head with
  | none => {}
  | some p =>
    if s.spDown i || !x.gridFreeFor p s.now then {}
    else
      let held := !p.charged && !x.barred && x.preemptPending.isNone && !x.preempted
      { weights := !p.ready s.now
        thermal := held && !(s.thermalFrom i).any (fun t => decide (t ≤ s.now))
        pacer := held && decide ((s.tick.pacer[dieOf i]).bucketNj < p.desc.charge s.paceCoef) }

/-- The staple budget pauses in a cycle stalled by the thermal level or the pacer (R46), but not where the weights are awaited too (R86;
log 123). -/
def PassWait.pauses (w : PassWait) : Bool := (w.thermal || w.pacer) && !w.weights

/-- One cycle of a spindle: its stall counters, its budget (R46), its engine's stall counter. -/
def SpindleState.cycle (x : SpindleState) (w : PassWait) : SpindleState :=
  { x with
    weightStall := w.weights
    pacerStall := w.pacer
    thermalWait := w.thermal
    wstall := if w.weights then satAdd 32 x.wstall 1 else x.wstall
    tstall := if w.thermal then satAdd 32 x.tstall 1 else x.tstall
    seq := if x.seq.inStaple && !w.pauses then { x.seq with budget := x.seq.budget - 1 } else x.seq
    vec := if x.vec.waits then { x.vec with stallSc := satAdd 32 x.vec.stallSc 1 } else x.vec }

/-- One cycle of a die's pacer: a stall of any of its spindles counts once, and the bucket refills (R47, R56). -/
def State.pacerCycle (s : State) (stalled : Vector PassWait 128) (d : Die) : State :=
  let any := (List.finRange 128).any (fun i => dieOf i == d && (stalled[i]).pacer)
  let s := if any then
      { s with tick := { s.tick with pacer := vmod s.tick.pacer d (fun p => { p with stallSc := satAdd 32 p.stallSc 1 }) } }
    else s
  s.refillDie d

/-- A phase that runs past its window is counted once (R203). -/
def SkeinState.cycle (x : SkeinState) (now : Time) : SkeinState :=
  if x.boardActive && !x.done && x.completeAt.isNone && !x.lateCounted &&
      x.phases[x.phase]?.any (fun p => decide (x.phaseAt + Time.sc p.window < now)) then
    { x with lateCounted := true, latePhases := satAdd 4 x.latePhases 1 }
  else x

/-- One spindle cycle passes (DESIGN CHOICE, log 1). -/
def State.passCycle (s : State) : State :=
  let s := if s.step.phase == .window && !s.pwr.thermtripLow then
      let w : Vector PassWait 128 := Vector.ofFn s.passWait
      let s := { s with spindles := vall s.spindles (fun i x => x.cycle w[i])
                        skeins := s.skeins.map (·.cycle (s.now + Time.sc 1)) }
      (List.finRange 4).foldl (fun s d => s.pacerCycle w d) s
    else s
  ({ s with now := s.now + Time.sc 1 }).sample

end Sys2Proof.Machine
end

