-- ==== Sys2Proof/Machine/VecMath.lean ====
section
/-!
DEFINITION. Element arithmetic of the vector engine: floating and integer results, conversion, reductions, filter taps, row
statistics and ply arithmetic on one instruction's operands (R121 to R134, R161, R168 to R179).
-/
namespace Sys2Proof.Machine

/-- The floating format of a type (R161). -/
def tyFmt : Nat → Fmt
  | 0 => fp32 | 1 => bf16 | 2 => fp16 | _ => fp64

/-- An element's code and what it reports. -/
structure ElemOut where
  code : Nat
  rep : NumRep := {}
  deriving DecidableEq, Repr

/-- The report of a result: a newly generated NaN, an overflow of a finite result (R108, R168, R171). -/
def opRep (inv ovf : Bool) : NumRep :=
  { flags := flagIf inv 0 ||| flagIf ovf 2, invalid := if inv then 1 else 0, ovf := if ovf then 1 else 0 }

/-- Round a floating result once and report it; `srcs` are its operands (R168). -/
def floatOut (f : Fmt) (srcs : List Val) (v : Val) : ElemOut :=
  let (c, o) := f.encode v
  { code := c, rep := opRep (v.isGen && !srcs.any Val.isGen) o }

/-- The range of an integer type (R169). -/
def intRange (ty : Nat) (unsigned : Bool) : Int × Int :=
  let w := 8 * tyBytes ty
  if unsigned then (0, 2 ^ w - 1) else (-(2 ^ (w - 1)), 2 ^ (w - 1) - 1)

/-- Clamp an exact integer result (R169). -/
def intOut (ty : Nat) (unsigned : Bool) (x : Int) : ElemOut :=
  let (lo, hi) := intRange ty unsigned
  let (y, o) := clampTo lo hi x
  { code := intBits (8 * tyBytes ty) y, rep := { flags := flagIf o 3, sat := if o then 1 else 0 } }

/-- An integer element. -/
def intElem (ty : Nat) (unsigned : Bool) (raw : Nat) : Int :=
  let w := 8 * tyBytes ty
  if unsigned ∨ raw < 2 ^ (w - 1) then raw else (raw : Int) - 2 ^ w

/-- The smaller of two numbers, -0 below +0; a NaN where either is one (R98, R168). -/
def Val.min2 (a b : Val) : Val :=
  match Val.cmp a b with
  | none => .nan (a.isGen || b.isGen)
  | some .lt => a
  | some .gt => b
  | some .eq => if a.neg then a else b

/-- The larger of two numbers, -0 below +0; a NaN where either is one (R98, R168). -/
def Val.max2 (a b : Val) : Val :=
  match Val.cmp a b with
  | none => .nan (a.isGen || b.isGen)
  | some .lt => b
  | some .gt => a
  | some .eq => if a.neg then b else a

/-- A comparison by function code (R166, R168). -/
def cmpCode (c : Nat) (o : Option Ordering) : Bool :=
  match c, o with
  | 0, some .eq => true
  | 1, some .eq => false
  | 1, _ => true
  | 2, some .lt => true
  | 3, some .lt => true
  | 3, some .eq => true
  | 4, some .gt => true
  | 5, some .gt => true
  | 5, some .eq => true
  | 6, none => true
  | _, _ => false

/-- A source operand: bits, and whether its values are in flight (R98). -/
structure Src where
  bits : BitVec 2048
  flight : Bool
  deriving DecidableEq, Repr

/-- Element j as a floating value. -/
def Src.val (s : Src) (ty j : Nat) : Val := (tyFmt ty).decode s.flight (elemAt (8 * tyBytes ty) s.bits j)
/-- Element j as bits. -/
def Src.raw (s : Src) (ty j : Nat) : Nat := elemAt (8 * tyBytes ty) s.bits j
/-- Element j as an integer. -/
def Src.int (s : Src) (ty : Nat) (unsigned : Bool) (j : Nat) : Int := intElem ty unsigned (s.raw ty j)

/-- Read the operands in order: each as its specifier says, from the free index on (R162 to R165). -/
def readSrcs (c : VCtx) : List Nat → Nat → SpindleState → Except VFault (List Src × SpindleState)
  | [], _, x => .ok ([], x)
  | s :: ss, k, x => do
    let (b, f, x) ← x.source c k s
    let (r, x) ← readSrcs c ss (k + 1) x
    pure ({ bits := b, flight := f } :: r, x)

/-- Outcomes of the first n elements under a mask, as bits, active bits and the report. -/
def gatherOut (ty n : Nat) (m : BitVec 256) (f : Nat → ElemOut) : BitVec 2048 × BitVec 2048 × NumRep :=
  let w := 8 * tyBytes ty
  let on := fun j => m.getLsbD (tyBytes ty * j)
  let es := (List.range n).map (fun j => if on j then f j else { code := 0 })
  (BitVec.ofNat 2048 (packN w (es.map (·.code))), activeBits ty n m, es.foldl (fun r e => r.add e.rep) {})

/-- An element-wise instruction over whole registers of its type (R161, R168). -/
def elementwise (c : VCtx) (x : SpindleState) (srcs : List Nat) (byLd : Bool) (f : List Src → Nat → ElemOut) :
    Except VFault VDone := do
  if pathsOk c.sp srcs then
    let (ss, x) ← readSrcs c srcs 0 x
    let (v, m, r) := gatherOut c.ins.ty (tyCount c.ins.ty) (c.maskOf x) (f ss)
    let x ← x.dest c 256 v m byLd
    pure { x := x, rep := r }
  else .error (.cause 2)

/-- Operand k of a list. -/
def src (ss : List Src) (k : Nat) : Src := ss.getD k { bits := 0, flight := false }

/-- Two operands, in floating and in integer form (R168, R169). -/
def arith2 (c : VCtx) (x : SpindleState) (ff : Val → Val → Val) (fi : Int → Int → Int) : Except VFault VDone :=
  let ty := c.ins.ty
  let u := bit c.ins.fn 0
  elementwise c x [c.ins.s1, c.ins.s2] false (fun ss j =>
    if isF ty then
      let a := (src ss 0).val ty j
      let b := (src ss 1).val ty j
      floatOut (tyFmt ty) [a, b] (ff a b)
    else intOut ty u (fi ((src ss 0).int ty u j) ((src ss 1).int ty u j)))

/-- An integer shifted left by n, or right with rounding to nearest even (R169, R174). -/
def shiftInt (x n : Int) : Int := (Val.scale (.ofInt x) n).int

/-- A signed field of `w` bits. -/
def sbits (w v : Nat) : Int := (BitVec.ofNat w v).toInt

/-- CVT of one element (R170): exact widening, else the store conversion of R102 and R103 with RNE and sat = 0. -/
def convert (dest : Nat) (v : Val) : ElemOut :=
  let st := if isF dest then storeFloat (tyFmt dest) .rne false v
    else storeInt (8 * tyBytes dest) (intRange dest false).1 (intRange dest false).2 .rne v
  { code := st.code
    rep := { flags := flagIf st.ovf 4 ||| flagIf st.unf 5, storeOvf := if st.ovf then 1 else 0
             storeUnf := if st.unf then 1 else 0 } }

/-- Element j of a source of any type, as a value. -/
def Src.any (s : Src) (ty j : Nat) : Val := if isF ty then s.val ty j else .ofInt (s.int ty false j)

/-- The balanced tree of R171: neighbours combine, level by level. -/
def treeFold {α : Type} (f : α → α → α) : Nat → List α → List α
  | 0, l => l
  | n + 1, l =>
    let rec pair : List α → List α
      | a :: b :: r => f a b :: pair r
      | l => l
    treeFold f n (pair l)

/-- A node of a floating reduction: value in flight, report. -/
abbrev RedNode := Val × NumRep

/-- Combine two nodes of a floating reduction (R171). -/
def redFloat (f : Fmt) (op : Nat) (a b : RedNode) : RedNode :=
  let v := match op with | 0 => a.1.add b.1 | 1 => a.1.max2 b.1 | _ => a.1.min2 b.1
  let (y, o) := f.rnd v
  (y, (a.2.add b.2).add (opRep (y.isGen && !a.1.isGen && !b.1.isGen) o))

/-- Combine two nodes of an integer reduction (R171). -/
def redInt (ty op : Nat) (a b : Int × NumRep) : Int × NumRep :=
  let v := match op with | 0 => a.1 + b.1 | 1 => max a.1 b.1 | _ => min a.1 b.1
  let (lo, hi) := intRange ty false
  let (y, o) := clampTo lo hi v
  (y, (a.2.add b.2).add { flags := flagIf o 3, sat := if o then 1 else 0 })

/-- REDUCE of a source: the code of element 0 and the report (R171). -/
def reduce (ty op : Nat) (m : BitVec 256) (s : Src) : ElemOut :=
  let n := tyCount ty
  let on := fun j => m.getLsbD (tyBytes ty * j)
  if isF ty then
    let unit : Val := match op with | 0 => .zero | 1 => .inf true | _ => .inf false
    let r := treeFold (redFloat (tyFmt ty) op) n.log2
      ((List.range n).map (fun j => (if on j then s.val ty j else unit, ({} : NumRep))))
    match r with
    | (v, rep) :: _ => { code := ((tyFmt ty).encode v).1, rep := rep }
    | [] => { code := 0 }
  else
    let (lo, hi) := intRange ty false
    let unit : Int := match op with | 0 => 0 | 1 => lo | _ => hi
    let r := treeFold (redInt ty op) n.log2
      ((List.range n).map (fun j => (if on j then s.int ty false j else unit, ({} : NumRep))))
    match r with
    | (v, rep) :: _ => { code := intBits (8 * tyBytes ty) v, rep := rep }
    | [] => { code := 0 }

/-- MOVS of one element by shift n (R174). -/
def moveScaled (dest from_ : Nat) (v : Val) (n : Int) : ElemOut :=
  if isF dest then
    let (c, o) := (tyFmt dest).encode (v.scale n)
    { code := c, rep := opRep false o }
  else if isF from_ then
    let (lo, hi) := intRange dest false
    match v with
    | .nan _ => { code := 0 }
    | .inf s => { code := intBits (8 * tyBytes dest) (if s then lo else hi) }
    | _ => intOut dest false ((v.scale n).toInteger .rne)
  else intOut dest false ((v.scale n).int)

/-- Shift of lane j of a scale register (R174). -/
def laneShift (r : BitVec 448) (j : Nat) : Int := ((r >>> (7 * (j % 64))).setWidth 7).toInt

/-- Empty, infinity and NaN codes of an exponent slot (R122, R124, R177). -/
def expEmpty : Nat := 0x8000

/-- The shared exponent E of R122 for one finite nonzero magnitude m × 2^e. -/
def expOf (m : Nat) (e : Int) : Int :=
  let l := log2Of m e
  if m * 128 < 127 * 2 ^ (m.log2 + 1) then l + 1 else l + 2

/-- Add one element's contribution to an exponent slot (R177). -/
def expStep (slot : Nat) (v : Val) : Nat :=
  match v with
  | .inf _ => 0x7FFE
  | .nan _ => if slot = 0x7FFE then slot else 0x7FFF
  | .fin _ m e =>
    if m = 0 ∨ slot = 0x7FFE ∨ slot = 0x7FFF then slot
    else intBits 16 (max (sbits 16 slot) (expOf m e))

/-- The digits of R123 below the first, most significant last, and what is left. -/
def splitDigits : Nat → Int → List Int × Int
  | 0, x => ([], x)
  | n + 1, x =>
    let d := x % 256
    let d := if 128 ≤ d then d - 256 else d
    let (r, y) := splitDigits n ((x - d) / 256)
    (r ++ [d], y)

/-- The plies of one element, ply 0 first (R123, R124): zero under a special code; a value that the exponent does not cover
has no defined digits. -/
def plies (p : Nat) (slot : Nat) (v : Val) (free : List Byte) : List Byte :=
  if slot = 0x7FFE ∨ slot = 0x7FFF ∨ slot = 0x8000 then List.replicate p 0
  else match v with
    | .fin _ _ _ =>
      let x := (v.scale (8 * (p : Int) - 1 - sbits 16 slot)).toInteger .rne
      let (ds, top) := splitDigits (p - 1) x
      if -127 ≤ top ∧ top ≤ 127 then (top :: ds).map (fun d => BitVec.ofInt 8 d) else free.take p
    | _ => free.take p

/-- The fields of a store descriptor that R172 restricts are good. -/
def StoreSlot.ok (q : StoreSlot) : Bool :=
  let b := q.raw
  let cols := field b 8 4
  decide (field b 1 1 < 8) && decide (field b 2 2 = 0) && decide (field b 0x14 4 = 0) && decide (field b 0x38 8 = 0) &&
  decide (1 ≤ cols) && decide (cols ≤ 2 ^ 24) && decide (q.col < cols)

/-- A store descriptor names a format and a rounding that a VST can use (R94). -/
def StoreSlot.formatOk (q : StoreSlot) : Bool := decide (field q.raw 0 1 < 13) && decide (field q.raw 1 1 % 4 < 3)

/-- The ply descriptor of R133. -/
structure PlyDesc where
  square : Bool
  p : Nat
  first : Bool
  last : Bool
  wide : Bool
  m : Nat
  diagRow : Nat
  cols : Nat
  ea : Nat
  eb : Nat
  part : Nat
  out : Nat
  outStride : Nat
  elemBase : Nat
  elemPitch : Nat
  recordAddr : BitVec 64
  tensorId : Word
  clean : Bool
  deriving DecidableEq, Repr

/-- Parse a ply descriptor (R133). -/
def parsePly (b : List Byte) : PlyDesc :=
  let mode := field b 0 1
  let p := field b 1 1
  let seg := field b 2 1
  let o := field b 3 1
  { square := mode == 1, p := p, first := bit seg 0, last := bit seg 1, wide := o == 1, m := field b 4 2 + 1
    diagRow := field b 6 2, cols := field b 8 1 + 1, ea := field b 0xC 4, eb := field b 0x10 4, part := field b 0x14 4
    out := field b 0x18 4, outStride := field b 0x1C 4, elemBase := field b 0x20 8, elemPitch := field b 0x28 8
    recordAddr := BitVec.ofNat 64 (field b 0x30 8), tensorId := BitVec.ofNat 32 (field b 0x38 4)
    clean := decide (mode < 2) && (if mode = 0 then decide (5 ≤ p) && decide (p ≤ 8) else p == 4) && decide (seg < 4) &&
      (o == 1 || (o == 0 && mode == 1)) && allZero (sliceBytes b 9 3) && decide (field b 0x3C 4 = 0) }

/-- The last diagonal (R128). -/
def PlyDesc.dmax (d : PlyDesc) : Nat := if d.square then 2 * d.p - 2 else d.p - 1
/-- Bytes of an output element. -/
def PlyDesc.outSize (d : PlyDesc) : Nat := if d.wide then 8 else 4

/-- A ply descriptor that breaks none of the conditions of R133. -/
def PlyDesc.ok (d : PlyDesc) : Bool :=
  d.clean && decide (d.m ≤ 4096) && decide (d.diagRow + (d.dmax + 1) * d.m ≤ 4096) &&
  inScratch [(d.ea, 2 * d.m), (d.eb, 2 * d.cols)] &&
  ((d.first && d.last) || inScratch [(d.part, 24 * d.m * d.cols)]) &&
  (!d.last || inScratch (stridedRows d.out d.outStride (d.outSize * d.cols) d.m))

/-- What PLYCOMB makes of one output element. -/
structure PlyOut where
  part : List Byte
  code : Nat
  value : Val
  rep : NumRep
  unf : Bool
  deriving DecidableEq, Repr

/-- Recombine one element (R128, R131, R132): `s` the exact sum over all segments so far, `ea` and `eb` its exponents. -/
def PlyDesc.combine (d : PlyDesc) (s : Int) (ea eb : Nat) : PlyOut :=
  let part := leBytes 24 (intBits 192 s)
  let f := if d.wide then fp64 else fp32
  if ea = 0x7FFE ∨ eb = 0x7FFE then
    { part := part, code := f.nanCode true, value := .nan true, unf := false
      rep := { flags := flagIf true 0 ||| flagIf true 6, invalid := 1 } }
  else if ea = 0x7FFF ∨ eb = 0x7FFF then
    { part := part, code := f.nanCode false, value := .nan false, unf := false, rep := { flags := flagIf true 1, nanIn := 1 } }
  else if ea = 0x8000 ∨ eb = 0x8000 then { part := part, code := 0, value := .zero, rep := {}, unf := false }
  else
    let v := (Val.ofInt s).scale (sbits 16 ea + sbits 16 eb - 14 - 8 * (d.dmax : Int))
    let (c, o) := f.encode v
    let w := f.decode true c
    let u := s != 0 && w.isZero
    { part := part, code := c, value := w, unf := u
      rep := { opRep false o with flags := flagIf o 2 ||| flagIf u 5, storeUnf := if u then 1 else 0 } }

end Sys2Proof.Machine
end

