-- ==== Sys2Proof/Machine/VecCtl.lean ====
section
/-!
DEFINITION. The vector engine's loops, control values, hold windows, interrupts and halts (R163, R166, R174, R180 to R187,
R190).
-/
namespace Sys2Proof.Machine

/-- A loop of body a + 1 to a + B may begin inside the loops that are active (R180). -/
def Vec.loopOk (v : Vec) (count body : Nat) : Bool :=
  decide (count ≠ 0) && decide (body ≠ 0) && decide (v.loops.length < 3) &&
  v.active.head?.all (fun l => decide (v.pc.toNat + body ≤ l.stop))

/-- LP (R180, R181, R183): a bad count, a fourth level and a body past its outer one are cause 4. In the handler before an
LPSAVE it loses the interrupted routine's loop state (R186). -/
def execVLp (sp : Spindle) (s : State) : Out :=
  .next (s.vecIssue sp 0x30 (fun c x =>
    let v := x.vec
    let count := bits c.ins.fn 24 9
    let body := bits c.ins.fn 8 0
    let a := v.pc.toNat
    if !v.loopOk count body then .error (.cause 4)
    else
      let fills := decide (body ≤ 64) && v.active.all (fun l => decide (64 < l.stop + 1 - l.start))
      .ok { jumped := true
            x := { x with vec := { v with
              loops := { start := a + 1, stop := a + body, left := count } :: v.loops
              buffer := if fills then (List.range body).map (· + (a + 1)) else v.buffer
              loopsLost := v.loopsLost || (v.inHandler && !v.lpSaved)
              window := 2, pc := BitVec.ofNat 13 (a + 1) } } }))

/-- HALT (R166, R167, R181): drains and ends the routine; the sequencer resumes. -/
def execVHalt (sp : Spindle) (s : State) : Out :=
  .next (s.vecIssue sp 0x31 (fun _ x => .ok { x := x, halts := true }))

/-- SETA (R163, R166): a field of an address register. -/
def execVSeta (sp : Spindle) (s : State) : Out :=
  .next (s.vecIssue sp 0x32 (fun c x =>
    let v := c.ins.fn % 2 ^ 22
    if h : c.ins.dst % 16 < 15 then
      let r := x.vec.adr[c.ins.dst % 16]
      let r : Adr := match bits c.ins.fn 24 22 with
        | 0 => { r with base := v % 2 ^ 21 }
        | 1 => { r with length := v }
        | 2 => { r with ptr := ((v % 2 ^ 21 : Nat) : Int) }
        | _ => { r with step := sbits 22 v }
      .ok { x := { x with vec := { x.vec with adr := x.vec.adr.set (c.ins.dst % 16) r } } }
    else .error (.cause 2)))

/-- SETS (R166, R174): a scale register, from INT8 lanes 0 to 63 or one immediate. -/
def execVSets (sp : Spindle) (s : State) : Out :=
  .next (s.vecIssue sp 0x33 (fun c x => do
    let (ss, x) ← (if bit c.ins.fn 24 then .ok ([], x) else readSrcs c [c.ins.s1] 0 x)
    let lane := fun j => if bit c.ins.fn 24 then c.ins.fn % 128 else (src ss 0).raw 6 j % 128
    let r := BitVec.ofNat 448 (packN 7 ((List.range 64).map lane))
    pure { x := { x with vec := { x.vec with scale := x.vec.scale.set (c.ins.dst % 4) r (by omega) } } }))

/-- SETC (R166, R190): plane_stride, VEC_HANDLER or VEC_CTL bits 2:0. -/
def execVSetc (sp : Spindle) (s : State) : Out :=
  .next (s.vecIssue sp 0x34 (fun c x =>
    let v := c.ins.fn % 2 ^ 22
    let e := x.vec
    .ok { x := { x with vec := match bits c.ins.fn 24 22 with
      | 0 => { e with planeStride := BitVec.ofNat 22 v }
      | 1 => { e with handler := BitVec.ofNat 13 v }
      | _ => { e with preEn := bit v 0, brkEn := bit v 1, fltEn := bit v 2 } } }))

/-- IHOLD (R183): opens a hold window. -/
def execVIhold (sp : Spindle) (s : State) : Out :=
  .next (s.vecIssue sp 0x35 (fun _ x =>
    if x.vec.holdAt.isSome then .ok { x := x }
    else .ok { x := { x with vec := { x.vec with holdAt := some (s.vecNow sp), holdNo := x.vec.holdNo + 1 } } }))

/-- IREL (R183): closes the hold window. -/
def execVIrel (sp : Spindle) (s : State) : Out :=
  .next (s.vecIssue sp 0x36 (fun _ x => .ok { x := { x with vec := { x.vec with holdAt := none } } }))

/-- Loop state of no defined content (R186). -/
def freeLoops (i : Nat) : List VecLoop :=
  (List.range ((Config.freeWord i).toNat % 4)).map (fun k =>
    let w := (Config.freeWord (i + 1 + k)).toNat + 2 ^ 32 * (Config.freeWord (i + 5 + k)).toNat
    { start := bits w 12 0, stop := bits w 25 13, left := bits w 41 26 })

/-- RETI (R182, R185, R186): issue resumes at VEC_EPC with end matching; with bit 0 SPN_CTL.resume is written too. -/
def execVReti (sp : Spindle) (s : State) : Out :=
  .next (s.vecIssue sp 0x37 (fun c x =>
    let v := x.vec
    let x := if bit c.ins.fn 0 then { x with preempted := false } else x
    .ok { jumped := true
          x := { x with vec := { v with
            inHandler := false, frozen := 0, pc := v.epc, loopsLost := false, lpSaved := false
            pastBreak := if v.icause = 1 then some v.epc else v.pastBreak
            loops := if v.loopsLost then freeLoops c.free else v.loops } } }))

/-- The loop state record (R185). -/
def Vec.loopRecord (v : Vec) : List Byte :=
  leBytes 8 v.loops.length ++
  (List.range 3).flatMap (fun k => leBytes 8 (match v.loops.reverse[k]? with
    | some l => packFields [(13, l.start), (13, l.stop), (16, l.left)]
    | none => 0))

/-- LPSAVE (R185). -/
def execVLpsave (sp : Spindle) (s : State) : Out :=
  .next (s.vecIssue sp 0x38 (fun c x => do
    needMem c.ins.dst
    let o ← x.place (specAdr c.ins.dst) 32 32 0
    let x ← x.putMem o c.ins.memLatency (x.vec.loopRecord.map some)
    let x := x.post c.ins.dst
    pure { x := { x with vec := { x.vec with lpSaved := true } } }))

/-- The levels of a loop record, innermost first, where it is good (R185): depth, counts, nesting and reserved bits. -/
def recordLoops (b : List Byte) : Option (List VecLoop) :=
  let d := field b 0 1
  let lev := fun k => field b (8 + 8 * k) 8
  let ls := (List.range d).map (fun k =>
    ({ start := bits (lev k) 12 0, stop := bits (lev k) 25 13, left := bits (lev k) 41 26 } : VecLoop))
  let rest := (List.range 3).all (fun k => decide (bits (lev k) 63 42 = 0))
  let nested := (List.zip ls (ls.drop 1)).all (fun p => decide (p.1.start ≤ p.2.start) && decide (p.2.stop ≤ p.1.stop))
  if d ≤ 3 ∧ allZero (sliceBytes b 1 7) ∧ rest ∧ nested ∧ ls.all (fun l => decide (l.left ≠ 0) && decide (l.start ≤ l.stop)) then
    some ls.reverse
  else none

/-- LPLOAD (R166, R183, R185): the loop state arrives with the instruction's latency; a bad record is cause 4; inside the handler its levels
stay frozen until RETI. -/
def execVLpload (sp : Spindle) (s : State) : Out :=
  .next (s.vecIssue sp 0x39 (fun c x => do
    needMem c.ins.s1
    let (b, x) ← x.memOperand (c.free + 2048) c.ins.s1 32 32
    match recordLoops b with
    | none => .error (.cause 4)
    | some ls =>
      pure { x := { x with vec := { x.vec with loopLoad := some (x.vec.cycle + c.ins.latency, ls), window := 3 } } }))

/-- LPCLR (R166): loop depth 0. -/
def execVLpclr (sp : Spindle) (s : State) : Out :=
  .next (s.vecIssue sp 0x3A (fun _ x => .ok { x := { x with vec := { x.vec with loops := [], frozen := 0 } } }))

/-- NOP (R166). -/
def execVNop (sp : Spindle) (s : State) : Out := .next (s.vecIssue sp 0x3B (fun _ x => .ok { x := x }))

/-- The interrupt that is taken first: a fault, else the lowest cause. -/
def nextInterrupt (p : BitVec 3) : Option (BitVec 2) :=
  if p.getLsbD 2 then some 2 else if p.getLsbD 0 then some 0 else if p.getLsbD 1 then some 1 else none

/-- VEC_INTERRUPT_ENTRY (R181 to R185): at a boundary outside every window the engine drains, saves VEC_EPC and VEC_ICAUSE and
goes to the handler; the loop state freezes. -/
def execVecInterruptEntry (sp : Spindle) (s : State) : Out := s.clocked <|
  let v := (s.spindles[sp]).vec
  match nextInterrupt v.pending with
  | none => .next s
  | some c =>
    if !s.vecReady sp || !v.openBoundary then .next s
    else
      .next ((s.drainEngine sp).modSp sp (fun x =>
        let v := x.vec
        let at_ := max s.now v.readyAt + Time.sc 3
        if !v.running then x
        else { x with vec := { v with
          epc := v.pc, icause := c, pc := v.handler, inHandler := true, frozen := v.loops.length, lpSaved := false
          loopsLost := false, pending := v.pending &&& ~~~(1#3 <<< c.toNat), buffer := [], handlerAt := at_, readyAt := at_
          waits := false } }))

/-- HOLD_WINDOW_EXCEEDED (R183, R188): more than 128 sc in a hold window is cause 5. -/
def execHoldWindowExceeded (sp : Spindle) (s : State) : Out := s.clocked <|
  if s.holdOver sp then .next (s.vecFault sp 5) else .next s

/-- HANDLER_FORCED_HALT (R186): the fault handler has run for 4,096 sc. -/
def execHandlerForcedHalt (sp : Spindle) (s : State) : Out := s.clocked <|
  if s.handlerOver sp then .next (s.forceHalt sp) else .next s

/-- VEC_GO (R182, R190): a stopped engine continues at VEC_EPC. -/
def execVecGo (sp : Spindle) (s : State) : Out :=
  .next (s.modSp sp (fun x =>
    if x.vec.stopped then { x with vec := { x.vec with stopped := false, pc := x.vec.epc } } else x))

end Sys2Proof.Machine
end

