-- ==== Sys2Proof/Machine/RegsSpindle.lean ====
section
/-!
DEFINITION. Registers as the spec's tables list them, field by field from bit 0 (R13, R15), and the SEQ_, SPN_, NUM_ and VEC_
registers of a spindle (R57, R90, R119, R190).
-/
namespace Sys2Proof.Machine

/-- The access types that matter to a reader: RO and W1C fields, any other field, and reserved bits (R13, R15, R418). -/
inductive Acc where
  | ro | w1c | rw | rsv
  deriving DecidableEq, Repr

/-- A field: its access, its width and the value it reads. -/
structure Fld where
  acc : Acc
  width : Nat
  value : Nat
  deriving DecidableEq, Repr

/-- A field that is RO. -/
def ro (x : Nat × Nat) : Fld := ⟨.ro, x.1, x.2⟩
/-- A field that is W1C. -/
def w1c (x : Nat × Nat) : Fld := ⟨.w1c, x.1, x.2⟩
/-- A field that is RW, RWS, W1S or WO. -/
def rw (x : Nat × Nat) : Fld := ⟨.rw, x.1, x.2⟩
/-- Reserved bits. -/
def rsv (w : Nat) : Fld := ⟨.rsv, w, 0⟩
/-- A field of a bit vector. -/
def bv {w : Nat} (x : BitVec w) : Nat × Nat := (w, x.toNat)

/-- What a register reads, which bits are not reserved, and whether every field of it is RO or W1C (R418). -/
structure Reg where
  value : Word
  named : Word
  plain : Bool
  deriving DecidableEq, Repr

/-- A register of the fields listed; bits above them are reserved. -/
def reg (fs : List Fld) : Option Reg :=
  some { value := BitVec.ofNat 32 (packFields (fs.map (fun f => (f.width, f.value))))
         named := BitVec.ofNat 32 (packFields (fs.map (fun f => (f.width, if f.acc = .rsv then 0 else 2 ^ f.width - 1))))
         plain := fs.all (fun f => f.acc != .rw) }

/-- SEQ_ registers (R57). -/
def Seq.reg (q : Seq) : Nat → Option Reg
  | 0x00 => Machine.reg [ro (b1 q.activeBank), ro (b1 q.idle), w1c (b1 q.budgetFault), w1c (b1 q.seqFault)]
  | 0x04 => Machine.reg [ro (bv q.pc)]
  | 0x08 => Machine.reg [ro (bv q.stapleId)]
  | 0x0C => Machine.reg [ro (32, q.budget)]
  | 0x10 => Machine.reg [ro (bv q.faultPc)]
  | 0x14 => Machine.reg [ro (bv q.stepCycles)]
  | _ => none

/-- SPN_ registers (R90), with the thermal level in force. -/
def SpindleState.spnReg (x : SpindleState) (level : BitVec 4) : Nat → Option Reg
  | 0x00 => Machine.reg [rw (b1 (x.preemptPending == some .resume)), rw (1, 0), rw (bv x.retryLimit)]
  | 0x04 => Machine.reg [ro (b1 (x.passes.any (fun p => p.startedAt.isSome))), ro (2, min 2 x.passes.length), ro (b1 x.preempted),
      ro (b1 x.weightStall), ro (b1 x.pacerStall), ro (bv level)]
  | 0x08 => Machine.reg [ro (bv x.cause), w1c (b1 x.faultSeen), w1c (b1 x.restarted)]
  | 0x0C => Machine.reg [ro (bv x.faultTag)]
  | 0x10 => Machine.reg [ro (bv x.faultRow)]
  | 0x14 => Machine.reg [ro (bv x.passCount)]
  | 0x18 => Machine.reg [ro (bv x.rowCount)]
  | 0x1C => Machine.reg [ro (bv x.restarts)]
  | 0x20 => Machine.reg [ro (bv x.wstall)]
  | 0x24 => Machine.reg [ro (bv x.tstall)]
  | _ => none

/-- NUM_ registers (R119). -/
def Num.reg (n : Num) : Nat → Option Reg
  | 0x00 => Machine.reg [ro (bv n.mask)]
  | 0x04 => Machine.reg [w1c (bv n.flags), w1c (b1 n.fault), ro (bv n.faultCode)]
  | 0x08 => Machine.reg [ro (bv n.invalidCount)]
  | 0x0C => Machine.reg [ro (bv n.firstTag)]
  | 0x10 => Machine.reg [ro (bv n.firstRow), ro (bv n.firstCol), rsv 12, ro (b1 n.firstValid)]
  | 0x14 => Machine.reg [ro (bv n.nanInCount)]
  | 0x18 => Machine.reg [ro (bv n.ovfCount)]
  | 0x1C => Machine.reg [ro (bv n.satCount)]
  | 0x20 => Machine.reg [ro (bv n.storeOvf), ro (bv n.storeUnf)]
  | 0x24 => Machine.reg [ro (5, n.slots.length)]
  | _ => none

/-- VEC_ registers (R190). -/
def Vec.reg (v : Vec) : Nat → Option Reg
  | 0x00 => Machine.reg [rw (b1 v.preEn), rw (b1 v.brkEn), rw (b1 v.fltEn), rw (1, 0)]
  | 0x04 => Machine.reg [ro (b1 v.running), ro (b1 v.inHandler), ro (b1 v.stopped), ro (b1 v.holdAt.isSome), w1c (b1 v.forced),
      ro (2, v.loops.length)]
  | 0x08 => Machine.reg [rw (bv v.handler)]
  | 0x0C => Machine.reg [rw (bv v.breakAddr), rw (b1 v.breakEn)]
  | 0x10 => Machine.reg [ro (bv v.epc)]
  | 0x14 => Machine.reg [ro (bv v.icause)]
  | 0x18 => Machine.reg [ro (bv v.faultCause), w1c (b1 v.faultSeen)]
  | 0x1C => Machine.reg [ro (bv v.faultPc)]
  | 0x20 => Machine.reg [ro (bv v.pc)]
  | 0x24 => Machine.reg [ro (bv v.issued)]
  | 0x28 => Machine.reg [ro (bv v.stallSc)]
  | _ => none

/-- The bytes of `n` registers from offset 0 of a block. -/
def regBytes (f : Nat → Option Reg) (n : Nat) : List Byte :=
  (List.range n).flatMap (fun i => leBytes 4 ((f (4 * i)).elim 0 Reg.value).toNat)

end Sys2Proof.Machine
end

