-- ==== Sys2Proof/Machine/FaultOps.lean ====
section
/-!
DEFINITION. The operations of faults and resets below the full device reset: what a rung covers and clears, the crash record,
and the return of a pattern (R472 to R480, R489).
-/
namespace Sys2Proof.Machine

/-- The spindles a unit covers (R476). -/
def resetSpindles : ResetUnit → List Spindle
  | .spindle i => [i]
  | .skein k => (List.finRange 8).map (spindleOf k)
  | .die d => (List.finRange 128).filter (fun i => dieOf i == d)
  | .device => List.finRange 128

/-- The skeins whose board, rings and channels a rung over a unit covers. -/
def resetSkeins : ResetUnit → List Skein
  | .spindle _ => []
  | .skein k => [k]
  | .die d => (List.finRange 16).filter (fun k => dieOfSkein k == d)
  | .device => List.finRange 16

/-- The dies whose routers and creel a rung over a unit covers. -/
def resetDies : ResetUnit → List Die
  | .die d => [d]
  | .device => List.finRange 4
  | _ => []

/-- Unit `u` lies in unit `v`. -/
def unitIn (u v : ResetUnit) : Bool :=
  match v, u with
  | .device, _ => true
  | .die d, .die e => d == e
  | .die d, .skein k => dieOfSkein k == d
  | .die d, .spindle i => dieOf i == d
  | .skein k, .skein j => k == j
  | .skein k, .spindle i => skeinOf i == k
  | .spindle i, .spindle j => i == j
  | _, _ => false

/-- The enclosing unit and the rung that follows a missed bound (R476). -/
def escalation (u : ResetUnit) (rung : Nat) : ResetUnit × Nat :=
  match rung, u with
  | 1, u => (u, 2)
  | 2, u => (u, 3)
  | 4, .skein k => (.die (dieOfSkein k), 5)
  | 5, _ => (.device, 6)
  | _, _ => (.device, 7)

/-- Index of a unit for DST_RESET_STATUS.target (R498); the device has none. -/
def unitIndex : ResetUnit → Nat
  | .spindle i => i.val
  | .skein k => k.val
  | .die d => d.val
  | .device => 0

/-- A unit's number in the crash record and in reports: 0xFFFF for the device (R474). -/
def unitNumber : ResetUnit → Nat
  | .device => 0xFFFF
  | u => unitIndex u

/-- Write the sixteen windows of a crash entry from an address on; those that could not be read or whose write was not acknowledged are
skipped and marked (R473, R475). -/
def State.crashWindows (s : State) (i : Spindle) (a : Nat) : State × BitVec 16 :=
  (List.finRange 16).foldl (fun (acc : State × BitVec 16) n =>
    let x := s.spindles[i]
    let o := (s.flt.crashWin[n]).toNat
    let (t, c) := if x.bad o 4096 then (acc.1, 0x0402) else acc.1.deviceWrite (a + 4096 * n.val) (x.readBytes s.fresh o 4096)
    (t, if c = 0 then acc.2 else acc.2 ||| (1#16 <<< n.val))) (s, 0)

/-- One entry of the crash record up to its windows (R475). -/
def State.crashEntry (s : State) (i : Spindle) (missing : BitVec 16) : List Byte :=
  let x := s.spindles[i]
  let v := x.vec
  let masks := (List.finRange 4).flatMap (fun (k : Fin 4) =>
    leBytes 32 (if k.val = 0 then 2 ^ 256 - 1 else (v.mask[k]).toNat))
  let adr := v.adr.toList.flatMap (fun r =>
    leBytes 4 r.base ++ leBytes 4 r.length ++ leBytes 4 (r.ptr % 2 ^ 32).toNat ++ leBytes 4 (r.step % 2 ^ 32).toNat)
  let scale := v.scale.toList.flatMap (fun r => (List.range 64).map (fun j =>
    let f := bits r.toNat (7 * j + 6) (7 * j)
    BitVec.ofNat 8 (if 64 ≤ f then f + 128 else f)))
  let slots := v.slots.toList.flatMap (fun t => match t with
    | some t => sliceBytes t.raw 0 64
    | none => List.replicate 64 0)
  leBytes 2 i.val ++ leBytes 2 missing.toNat ++ leBytes 4 0 ++
  regBytes x.seq.reg 6 ++ regBytes (x.spnReg (s.dieLevel (dieOf i))) 10 ++ regBytes x.num.reg 10 ++ regBytes v.reg 11 ++
  leBytes 4 0 ++ v.loopRecord ++ masks ++ adr ++ scale ++ slots ++
  leBytes 4 v.planeStride.toNat ++ leBytes 12 0 ++
  (s.flt.crashWin.toList.flatMap (fun w => leBytes 4 w.toNat)) ++ List.replicate 2944 0 ++
  v.v.toList.flatMap (fun r => leBytes 256 r.toNat)

/-- The header of the crash record but for its commit word (R474). -/
def State.crashHeader (s : State) (u : ResetUnit) (rung : Nat) (cause : Code) (entries : Nat) : List Byte :=
  let seq := s.flt.crashSeq.toNat + 1
  let job := s.runningJob
  [0x59, 0x4B, 0x43, 0x52] ++ leBytes 2 1 ++ leBytes 1 rung ++ leBytes 1 0 ++ leBytes 8 seq ++ leBytes 8 s.tick.count.toNat ++
  leBytes 8 ((s.dist.active.map Image.id).getD 0).toNat ++ leBytes 8 ((job.map Job.id).getD 0).toNat ++
  leBytes 8 (if s.step.begun then s.step.index else 0) ++ leBytes 2 cause.toNat ++ leBytes 2 (unitNumber u) ++
  leBytes 2 entries ++ leBytes 2 0 ++ leBytes 4 s.sec.bootCount.toNat ++ List.replicate 4028 0

/-- Write a spindle's entry of the crash record: its windows, then what stands before them (R473, R475). -/
def State.writeEntry (s : State) (i : Spindle) (a : Nat) : State :=
  let (t, missing) := s.crashWindows i (a + 0x3000)
  (t.deviceWrite a (s.crashEntry i missing)).1

/-- Before rungs 1, 4, 5 and 6 clear anything, the crash record is written and committed, in the order of R473; while no crash
area is placed in memory there is none (R472). -/
def State.crashRecord (s : State) (u : ResetUnit) (rung : Nat) (cause : Code) : State :=
  let base := s.flt.crashBase.toNat
  if base = 0 then s
  else
    let is := resetSpindles u
    let header := s.crashHeader u rung cause is.length
    let seq := s.flt.crashSeq + 1
    let s := (s.deviceWrite (base + 0xFF8) (leBytes 8 0)).1
    let s := (is.zipIdx.foldl (fun s e => s.writeEntry e.1 (base + 0x1000 + e.2 * 0x13000)) s).nextFree
    let s := (s.deviceWrite base header).1
    let s := (s.deviceWrite (base + 0xFF8) (leBytes 8 seq.toNat)).1
    { s with flt := { s.flt with crashSeq := seq } }

/-- A spindle as rung 1 leaves it (R478): the banks, NUM_MASK and the memories stay. -/
def SpindleState.rung1 (x : SpindleState) : SpindleState :=
  { scratch := x.scratch, epilogue := x.epilogue, acc0 := x.acc0, acc1 := x.acc1, badBytes := x.badBytes
    rungTicks := x.rungTicks, power := .resetting
    seq := { bank0 := x.seq.bank0, bank1 := x.seq.bank1, activeBank := x.seq.activeBank, runs := x.seq.runs }
    num := { mask := x.num.mask } }

/-- A spindle as rung 2 leaves it: every SRAM is clear as well (R478). -/
def SpindleState.rung2 (x : SpindleState) : SpindleState :=
  { rungTicks := x.rungTicks, power := .powerCycling
    seq := { activeBank := x.seq.activeBank, runs := x.seq.runs } }

/-- A lane leaves the step: its lists stop, its passes and its staple drop, to be returned when it is out of the way, and it is marked slow
(R205, R285, R478). -/
def State.dropLane (s : State) (i : Spindle) : State :=
  let k := skeinOf i
  let l := laneOf i
  let mine := ((s.skeins[k]).inProgress.find? (fun p => p.1 == l)).map (·.2)
  let s := s.dropPasses i (fun _ => true)
  let s := s.modSk k (·.stopLane l)
  let s := (s.dropStaple i).modSp i (fun x => { x with returning := if x.returning.isSome then x.returning else mine })
  if s.step.begun then s.markSlow i else s

/-- A skein as rung 4 leaves it (R478): its configuration, its descriptor store and the arbiter's configuration stay. -/
def SkeinState.rung4 (x : SkeinState) : SkeinState :=
  { stallEn := x.stallEn, limit := x.limit, restartLimit := x.restartLimit, excluded := x.excluded
    slow := x.slow, window := x.window, retryDelay := x.retryDelay, retryLimit := x.retryLimit, lists := x.lists, descs := x.descs
    arb := { prio := x.arb.prio, fairN := x.arb.fairN, backoffEn := x.arb.backoffEn }
    channels := x.channels.map (fun c => { disable := c.disable, nextTag := c.nextTag, serial := c.serial })
    inReset := true }

/-- Rungs 1 and 2 on a spindle, and rung 1 on the spindles of rungs 4 to 6. -/
def State.clearSpindle (s : State) (i : Spindle) : State :=
  s.modSp i (fun x => if x.power == .failed || x.power == .off then x else x.rung1)

/-- What rungs 4 to 6 clear (R478). -/
def State.clearCompute (s : State) (u : ResetUnit) : State :=
  let s := (resetSpindles u).foldl State.clearSpindle s
  let s := (resetSkeins u).foldl (fun s k => s.modSk k SkeinState.rung4) s
  (resetDies u).foldl (fun s d =>
    let s := { s with
      flight := s.flight.filter (fun p => !p.inMesh d)
      streams := (s.streams.filter (fun (t : McStream) => t.src.die != d)).map (fun (t : McStream) => { t with
        branches := t.branches.filter (fun b => !atCreel d b.out) }) }
    (s.emptyCreel d).modDie d (fun x => { x with waits := [] })) s

/-- The number of recent entries of a spindle into rungs 1 and 2, this one included (R480). -/
def State.rungEntries (s : State) (i : Spindle) : List Nat :=
  let now := s.tick.count.toNat
  now :: ((s.spindles[i]).rungTicks.filter (fun t => decide (now < t + s.flt.windowTicks.toNat)))

/-- Rung 3: a spindle is marked failed; a rung over it alone ends (R478, R480, R539). -/
def State.markFailed (s : State) (i : Spindle) (cause : Code) : State :=
  let s := ((s.dropLane i).returnStaple i).modSp i (fun x => { x.rung2 with power := .failed })
  ({ s with flt := { s.flt with
      failed := s.flt.failed ||| (1#128 <<< i.val), rungs := s.flt.rungs.filter (fun r => r.unit != ResetUnit.spindle i)
      statusTarget := BitVec.ofNat 10 i.val, statusCode := cause } }).report 0x0803

/-- Add a rung to those that run; the rungs over units it covers end (R479, R496). -/
def State.addRung (s : State) (u : ResetUnit) (rung : Nat) (cause : Code) : State :=
  { s with flt := { s.flt with
      rungs := (s.flt.rungs.filter (fun r => !unitIn r.unit u)) ++
        [{ unit := u, rung := rung, cause := cause, startedAt := s.now, boundFrom := s.now }]
      statusTarget := BitVec.ofNat 10 (unitIndex u)
      statusCode := cause
      lastRung := if 6 ≤ rung then BitVec.ofNat 3 rung else s.flt.lastRung
      lastCode := if 6 ≤ rung then cause else s.flt.lastCode
      resetsSpindle := if rung ≤ 2 then satAdd 16 s.flt.resetsSpindle 1 else s.flt.resetsSpindle
      resetsWider := if 4 ≤ rung && rung ≤ 6 then satAdd 16 s.flt.resetsWider 1 else s.flt.resetsWider } }

/-- The compute part is out of service until the restore after the rung (R478, R484, R485). -/
def State.addService (s : State) : State :=
  { s with flt := { s.flt with outOfService := true, restoringSince := none, restoredAt := none } }

/-- Start a rung of 1 to 6 (R473, R476 to R480, R483, R539): a request for a unit that a running rung covers joins it. -/
def State.startRung (s : State) (u : ResetUnit) (rung : Nat) (cause : Code) (escalated : Bool) : State :=
  if s.flt.dead || s.flt.rungs.any (fun r => unitIn u r.unit && decide (rung ≤ r.rung)) then s
  else match rung, u with
    | 3, .spindle i => s.markFailed i cause
    | 3, _ => s
    | _, .spindle i =>
      if (s.spindles[i]).power == .failed then s
      else
        let ticks := s.rungEntries i
        if s.flt.repeatLimit.toNat ≤ ticks.length then s.markFailed i cause
        else
          let s := if rung = 1 && !escalated then s.crashRecord u rung cause else s
          let s := (s.dropLane i).modSp i (fun x => { (if rung = 1 then x.rung1 else x.rung2) with rungTicks := ticks, returning := x.returning })
          s.addRung u rung cause
    | _, _ =>
      let s := if escalated then s else s.crashRecord u rung cause
      let s := s.abort { code := 0x0804, unit := BitVec.ofNat 16 (unitNumber u) }
      ((s.clearCompute u).addRung u rung cause).addService

/-- Bound of a rung (R476). -/
def rungBound : Nat → Time
  | 1 => Time.us 5
  | 2 => Time.us 400
  | 4 => Time.us 20
  | 5 => Time.us 200
  | 6 => Time.ms 2
  | _ => Time.sec 9

/-- Firmware's restore of the pattern in effect after rungs 4 to 6 (R478). -/
def State.restorePattern (s : State) : State :=
  match s.dist.active with
  | some im => s.loadPattern im
  | none => s

/-- The program words of a section, from word 0 (R34). -/
def bankOf (b : List Byte) : Cells Word64 := Cells.write 0 [] 0 (wordsOf b)

/-- Firmware's reload of the active bank and NUM_MASK of a spindle after rung 2 (R119, R478). -/
def State.reloadBank (s : State) (i : Spindle) : State :=
  match s.dist.active with
  | none => s
  | some im =>
    let bank := ((im.find 1 i.val).map bankOf).getD []
    s.modSp i (fun x => { x with
      num := { x.num with mask := BitVec.ofNat 7 im.numericMask }
      seq := if x.seq.activeBank then { x.seq with bank1 := bank } else { x.seq with bank0 := bank } })

end Sys2Proof.Machine
end

