-- ==== Sys2Proof/Machine/Aes.lean ====
section
/-!
DEFINITION. AES-256 (FIPS 197), its authenticated mode GCM (NIST SP 800-38D) and its key wrap KW (NIST SP 800-38F), which R363 and R450 name.
PRESUMED: these standards' own text, which is not in the spec (log 60).
-/
namespace Sys2Proof.Machine

/-- The substitution table: 32 entries a row, entry 0 of a row in its lowest byte. -/
def aesSbox : List Nat :=
  [0xc072a49cafa2d4adf04759fa7dc982ca76abd7fe2b670130c56f6bf27b777c63,
   0x75b227ebe28012079a059618c323c7041531d871f1e5a534ccf73f362693fdb7,
   0xcf584c4a39becb6a5bb1fc20ed00d153842fe329b3d63b52a05a6e1b1a2c8309,
   0xd2f3ff1021dab6bcf5389d928f40a351a89f3c507f02f94585334d43fbaaefd0,
   0xdb0b5ede14b8ee4688902a22dc4f816073195d643d7ea7c41744975fec130ccd,
   0x08ae7a65eaf4566ca94ed58d6d37c8e779e4959162acd3c25c2406490a3a32e0,
   0x9e1dc186b95735610ef6034866b53e708a8bbd4b1f74dde8c6b4a61c2e2578ba,
   0x16bb54b00f2d99416842e6bf0d89a18cdf2855cee9871e9b948ed9691198f8e1]

/-- The inverse substitution table. -/
def aesInvSbox : List Nat :=
  [0xcbe9dec444438e3487ff2f9b8239e37cfbd7f3819ea340bf38a53630d56a0952,
   0x25d18b6d49a25b76b224d92866a12e084ec3fa420b954cee3d23c2a632947b54,
   0x849d8da75746155edab9edfd5048706c92b6655dcc5ca4d41698688664f6f872,
   0x6b8a130103bdafc1020f3fca8f1e2cd00645b3b80558e4f70ad3bc8c00abd890,
   0x6edf751ce837f9e28535ade72274ac9673e6b4f0cecff297eadc674f4111913a,
   0xf45acd78fec0db9a2079d2c64b3e56fc1bbe18aa0e62b76f89c5291d711af147,
   0xef9cc9939f7ae52d0d4ab519a97f51605fec8027591012b131c7078833a8dd1f,
   0x7d0c2155631469e126d677ba7e042b17619953833cbbebc8b0f52aae4d3be0a0]

/-- A number's entry in a substitution table. -/
def aesLook (t : List Nat) (b : Nat) : Nat := t.getD (b / 32) 0 >>> (8 * (b % 32)) % 256

/-- Multiply by x in the field of FIPS 197. -/
def aesX (b : Nat) : Nat := b <<< 1 ^^^ 0x11B * (b >>> 7)

/-- The numbers of two lists, added in the field. -/
def xorList (a b : List Nat) : List Nat := a.zipWith (· ^^^ ·) b

/-- Multiply a column by 2, 3, 1, 1. -/
def aesColumn (a b c d : Nat) : List Nat :=
  let t := a ^^^ b ^^^ c ^^^ d
  [a ^^^ t ^^^ aesX (a ^^^ b), b ^^^ t ^^^ aesX (b ^^^ c), c ^^^ t ^^^ aesX (c ^^^ d), d ^^^ t ^^^ aesX (d ^^^ a)]

/-- Multiply a column by 14, 11, 13, 9: the inverse. -/
def aesInvColumn (a b c d : Nat) : List Nat :=
  let u := aesX (aesX (a ^^^ c))
  let v := aesX (aesX (b ^^^ d))
  aesColumn (a ^^^ u) (b ^^^ v) (c ^^^ u) (d ^^^ v)

/-- Rotate the rows of a block, which stands by columns; the columns then go through `f`. -/
def aesRows (f : Nat → Nat → Nat → Nat → List Nat) (s : List Nat) : List Nat :=
  match s with
  | [a0, a1, a2, a3, a4, a5, a6, a7, a8, a9, a10, a11, a12, a13, a14, a15] =>
    f a0 a5 a10 a15 ++ (f a4 a9 a14 a3 ++ (f a8 a13 a2 a7 ++ f a12 a1 a6 a11))
  | _ => s

/-- The columns of a block go through `f`. -/
def aesColumns (f : Nat → Nat → Nat → Nat → List Nat) (s : List Nat) : List Nat :=
  match s with
  | [a0, a1, a2, a3, a4, a5, a6, a7, a8, a9, a10, a11, a12, a13, a14, a15] =>
    f a0 a1 a2 a3 ++ (f a4 a5 a6 a7 ++ (f a8 a9 a10 a11 ++ f a12 a13 a14 a15))
  | _ => s

/-- Rotate the rows back. -/
def aesInvRows (s : List Nat) : List Nat :=
  match s with
  | [a0, a1, a2, a3, a4, a5, a6, a7, a8, a9, a10, a11, a12, a13, a14, a15] =>
    [a0, a13, a10, a7, a4, a1, a14, a11, a8, a5, a2, a15, a12, a9, a6, a3]
  | _ => s

/-- Extend the key words by `n`; the list holds the newest word first, and `i` is the index of the next. -/
def aesExtend : Nat → Nat → Nat → List (List Nat) → List (List Nat)
  | 0, _, _, w => w
  | n + 1, i, rc, w =>
    let last := w.getD 0 []
    let t := if i % 8 = 0 then xorList ((last.drop 1 ++ last.take 1).map (aesLook aesSbox)) [rc, 0, 0, 0]
      else if i % 8 = 4 then last.map (aesLook aesSbox) else last
    aesExtend n (i + 1) (if i % 8 = 0 then aesX rc else rc) (xorList (w.getD 7 []) t :: w)

/-- The 15 round keys of a 256-bit key. -/
def aesKeys (key : List Byte) : List (List Nat) :=
  let w := (aesExtend 52 8 1 ((List.range 8).map (fun i => (sliceBytes key (4 * i) 4).map (·.toNat))).reverse).reverse
  (List.range 15).map (fun r => (w.drop (4 * r)).take 4 |>.flatten)

/-- Encrypt a block under round keys. -/
def aesEncrypt (ks : List (List Nat)) (b : List Byte) : List Byte :=
  let s := ((ks.drop 1).take 13).foldl (fun s k => xorList (aesRows aesColumn (s.map (aesLook aesSbox))) k)
    (xorList (b.map (·.toNat)) (ks.getD 0 []))
  (xorList (aesRows (fun a b c d => [a, b, c, d]) (s.map (aesLook aesSbox))) (ks.getD 14 [])).map (BitVec.ofNat 8)

/-- Decrypt a block under round keys. -/
def aesDecrypt (ks : List (List Nat)) (b : List Byte) : List Byte :=
  let s := ((ks.drop 1).take 13).reverse.foldl (fun s k => aesColumns aesInvColumn (xorList ((aesInvRows s).map (aesLook aesInvSbox)) k))
    (xorList (b.map (·.toNat)) (ks.getD 14 []))
  (xorList ((aesInvRows s).map (aesLook aesInvSbox)) (ks.getD 0 [])).map (BitVec.ofNat 8)

/-- The bytes of two lists, added in the field. -/
def xorBytes (a b : List Byte) : List Byte := a.zipWith (· ^^^ ·) b

/-- The number that bytes spell, most significant first. -/
def beNat (b : List Byte) : Nat := leNat b.reverse

/-- The product of GCM's field, whose bits run from the most significant: bits n - 1 down of x are left, `v` is y times that power. -/
def ghashMul (x : Nat) : Nat → Nat → Nat → Nat
  | 0, _, z => z
  | n + 1, v, z => ghashMul x n (v >>> 1 ^^^ (v % 2) * (0xE1 <<< 120)) (z ^^^ (x >>> n % 2) * v)

/-- The hash of GCM over whole blocks. -/
def ghash (h : Nat) (bs : List Byte) : Nat :=
  (List.range (bs.length / 16)).foldl (fun y i => ghashMul (y ^^^ beNat (sliceBytes bs (16 * i) 16)) 128 h 0) 0

/-- GCM decryption under a 96-bit iv and a 128-bit tag: none where the tag does not verify. -/
def gcmOpen (key iv aad body tag : List Byte) : Option (List Byte) :=
  let ks := aesKeys key
  let counter := fun (n : Nat) => aesEncrypt ks (iv ++ (leBytes 4 (n % 2 ^ 32)).reverse)
  let pad := fun (b : List Byte) => b ++ List.replicate ((16 - b.length % 16) % 16) 0
  let h := beNat (aesEncrypt ks (List.replicate 16 0))
  let y := ghash h (pad aad ++ pad body ++ (leBytes 8 (8 * aad.length)).reverse ++ (leBytes 8 (8 * body.length)).reverse)
  if xorBytes (leBytes 16 y).reverse (counter 1) = tag then
    some ((List.range (ceilDiv body.length 16)).flatMap (fun i => xorBytes (sliceBytes body (16 * i) (min 16 (body.length - 16 * i))) (counter (i + 2))))
  else none

/-- The rounds of KW in reverse: step `t` down to 1 over `n` half-blocks, which stand behind the check value. -/
def kwRounds (ks : List (List Nat)) (n : Nat) : Nat → List Byte → List (List Byte) → List Byte × List (List Byte)
  | 0, a, r => (a, r)
  | t + 1, a, r =>
    let i := t % n
    let b := aesDecrypt ks (xorBytes a (leBytes 8 (t + 1)).reverse ++ r.getD i [])
    kwRounds ks n t (b.take 8) (r.set i (b.drop 8))

/-- Unwrap a wrapped key: none where the check value does not come out (KW of NIST SP 800-38F). -/
def keyUnwrap (key wrapped : List Byte) : Option (List Byte) :=
  let n := wrapped.length / 8 - 1
  let (a, r) := kwRounds (aesKeys key) n (6 * n) (wrapped.take 8) ((List.range n).map (fun i => sliceBytes wrapped (8 * (i + 1)) 8))
  if a = List.replicate 8 0xA6 then some r.flatten else none

end Sys2Proof.Machine
end

