-- ==== Sys2Proof/Machine/Sha256.lean ====
section
/-!
DEFINITION. SHA-256 (FIPS 180-4), which the spec uses for pattern digests, keys and the audit chain (R32, R444, R453).
A row of words is one number, its first word on top, and the arithmetic is that of Nat by its own names: Lean's kernel computes on such numbers
quickly.
-/
namespace Sys2Proof.Machine

/-- The 64 round constants, the first on top. -/
def shaK : Nat :=
  Nat.add (Nat.mul 0x428a2f9871374491b5c0fbcfe9b5dba53956c25b59f111f1923f82a4ab1c5ed5d807aa9812835b01243185be550c7dc372be5d7480deb1fe9bdc06a7c19bf174 (Nat.pow 2 1536))
    (Nat.add (Nat.mul 0xe49b69c1efbe47860fc19dc6240ca1cc2de92c6f4a7484aa5cb0a9dc76f988da983e5152a831c66db00327c8bf597fc7c6e00bf3d5a7914706ca635114292967 (Nat.pow 2 1024))
    (Nat.add (Nat.mul 0x27b70a852e1b21384d2c6dfc53380d13650a7354766a0abb81c2c92e92722c85a2bfe8a1a81a664bc24b8b70c76c51a3d192e819d6990624f40e3585106aa070 (Nat.pow 2 512))
      0x19a4c1161e376c082748774c34b0bcb5391c0cb34ed8aa4a5b9cca4f682e6ff3748f82ee78a5636f84c878148cc7020890befffaa4506cebbef9a3f7c67178f2))

/-- The initial hash value: eight words a to h, a on top. -/
def shaInit : Nat := 0x6a09e667bb67ae853c6ef372a54ff53a510e527f9b05688c1f83d9ab5be0cd19

/-- `f` of a number, which a proof that computes then first reduces to a numeral. -/
def atNumeral {α : Type} (x : Nat) (f : Nat → α) : α := match x with
  | 0 => f 0
  | n + 1 => f (Nat.succ n)

/-- The number that bytes spell, most significant first. -/
def shaNumber (m : List Byte) : Nat := m.foldl (fun x b => Nat.add (Nat.mul x 256) b.toNat) 0

/-- Bytes of a number, most significant first. -/
def bigEnd (n v : Nat) : List Byte := (leBytes n v).reverse

/-- The padded message. -/
def shaPad (m : List Byte) : List Byte :=
  m ++ [0x80] ++ List.replicate ((119 - m.length % 64) % 64) 0 ++ bigEnd 8 (8 * m.length)

/-- The word at bit i of a row of words. -/
def shaWord (x i : Nat) : Nat := Nat.mod (Nat.shiftRight x i) 4294967296

/-- A word rotated right: two copies side by side, of which bits n and up are taken. -/
def rotr (x n : Nat) : Nat := shaWord (Nat.mul x 4294967297) n

/-- Put a word under a row of words. -/
def shaPush (x w : Nat) : Nat := Nat.add (Nat.mul x 4294967296) w

/-- Extend the schedule by `n` words: the 2nd, 7th, 15th and 16th last words make the next. -/
def shaExtend : Nat → Nat → Nat
  | 0, w => w
  | n + 1, w =>
    let x := shaWord w 448
    let y := shaWord w 32
    let s0 := Nat.xor (Nat.xor (rotr x 7) (rotr x 18)) (Nat.shiftRight x 3)
    let s1 := Nat.xor (Nat.xor (rotr y 17) (rotr y 19)) (Nat.shiftRight y 10)
    atNumeral (shaPush w (Nat.mod (Nat.add (Nat.add (shaWord w 480) s0) (Nat.add (shaWord w 192) s1)) 4294967296)) (shaExtend n)

/-- One round with its constant plus schedule word. -/
def shaRound (h kw : Nat) : Nat :=
  let a := shaWord h 224
  let b := shaWord h 192
  let c := shaWord h 160
  let e := shaWord h 96
  let s1 := Nat.xor (Nat.xor (rotr e 6) (rotr e 11)) (rotr e 25)
  let ch := Nat.xor (Nat.land e (shaWord h 64)) (Nat.land (Nat.xor e 0xFFFFFFFF) (shaWord h 32))
  let t1 := Nat.add (Nat.add (shaWord h 0) s1) (Nat.add ch kw)
  let s0 := Nat.xor (Nat.xor (rotr a 2) (rotr a 13)) (rotr a 22)
  let mj := Nat.xor (Nat.xor (Nat.land a b) (Nat.land a c)) (Nat.land b c)
  let abc := Nat.shiftRight h 160
  let efg := Nat.mod (Nat.shiftRight h 32) 79228162514264337593543950336
  let low := Nat.add (Nat.mul (Nat.mod (Nat.add (shaWord h 128) t1) 4294967296) 79228162514264337593543950336) efg
  Nat.add (Nat.mul (Nat.mod (Nat.add t1 (Nat.add s0 mj)) 4294967296) 26959946667150639794667015087019630673637144422540572481103610249216)
    (Nat.add (Nat.mul abc 340282366920938463463374607431768211456) low)

/-- The last `n` rounds under a schedule. -/
def shaRounds (w : Nat) : Nat → Nat → Nat
  | 0, h => h
  | n + 1, h => atNumeral (shaRound h (Nat.add (shaWord shaK (Nat.mul 32 n)) (shaWord w (Nat.mul 32 n)))) (shaRounds w n)

/-- Take one block of 16 words into the hash value. -/
def shaBlock (h blk : Nat) : Nat :=
  atNumeral (atNumeral (shaExtend 48 blk) (fun w => shaRounds w 64 h)) fun r =>
    [224, 192, 160, 128, 96, 64, 32, 0].foldl (fun x i => shaPush x (Nat.mod (Nat.add (shaWord h i) (shaWord r i)) 4294967296)) 0

/-- Take `n` blocks of 64 bytes. -/
def shaBlocks : Nat → Nat → List Byte → Nat
  | 0, h, _ => h
  | n + 1, h, m => atNumeral (shaBlock h (shaNumber (m.take 64))) fun h' => shaBlocks n h' (m.drop 64)

/-- The SHA-256 digest of a byte list. -/
def sha256 (m : List Byte) : List Byte :=
  let p := shaPad m
  atNumeral (shaBlocks (p.length / 64) shaInit p) (bigEnd 32)

end Sys2Proof.Machine
end

