-- ==== Sys2Proof/Machine/Lms.lean ====
section
/-!
DEFINITION. Verification of HSS signatures over LMS and LM-OTS with SHA-256 (RFC 8554), which R444 names. PRESUMED: that standard's own
text, which is not in the spec (log 60).
-/
namespace Sys2Proof.Machine

/-- A type code of LMS or LM-OTS that is accepted (R444), big-endian as RFC 8554 has it. -/
def lmsType (b : List Byte) : Bool :=
  let v := beNat (sliceBytes b 0 4)
  decide (5 ≤ v) && decide (v ≤ 9)
/-- An accepted LM-OTS type code (R444). -/
def otsType (b : List Byte) : Bool :=
  let v := beNat (sliceBytes b 0 4)
  decide (1 ≤ v) && decide (v ≤ 4)

/-- Height of an LMS tree by its type code (R444). -/
def lmsHeight (code : Nat) : Nat := 5 * (code - 4)
/-- Chains of an LM-OTS signature by its type code (R444, RFC 8554). -/
def otsChains (code : Nat) : Nat := match code with | 1 => 265 | 2 => 133 | 3 => 67 | _ => 34
/-- Bits that a chain signs, and the shift of the checksum (RFC 8554). -/
def otsWidth (code : Nat) : Nat × Nat := match code with | 1 => (1, 7) | 2 => (2, 6) | 3 => (4, 4) | _ => (8, 0)
/-- Bytes of an LM-OTS signature by its type code (R444, RFC 8554). -/
def otsBytes (code : Nat) : Nat := 4 + 32 * (1 + otsChains code)
/-- Bytes of the LMS signature that begins a byte list: its leaf, an LM-OTS signature, a type code and a path. -/
def lmsBytes (b : List Byte) : Nat :=
  let o := 4 + otsBytes (beNat (sliceBytes b 4 4))
  o + 4 + 32 * lmsHeight (beNat (sliceBytes b o 4))

/-- The i-th number of `w` bits of a byte list (coef of RFC 8554). -/
def otsCoef (s : List Byte) (i w : Nat) : Nat := (s.getD (i * w / 8) 0).toNat >>> (8 - (w * (i % (8 / w)) + w)) % 2 ^ w

/-- Follow a chain for `n` more steps from step j. -/
def otsChain (pre : List Byte) : Nat → Nat → List Byte → List Byte
  | 0, _, x => x
  | n + 1, j, x => otsChain pre n (j + 1) (sha256 (pre ++ bigEnd 1 j ++ x))

/-- The ends of `n` chains from chain i on: what a digest with its checksum signs of them stands in `v`, their parts of the signature in `ys`. -/
def otsEnds (pre v : List Byte) (w : Nat) : Nat → Nat → List Byte → List Byte
  | 0, _, _ => []
  | n + 1, i, ys =>
    let a := otsCoef v i w
    otsChain (pre ++ bigEnd 2 i) (2 ^ w - 1 - a) a (sliceBytes ys 0 32) ++ otsEnds pre v w n (i + 1) (ys.drop 32)

/-- The LM-OTS public key that a signature of a message leads to: identifier of the tree, leaf, message, signature. -/
def otsKey (tree : List Byte) (q : Nat) (msg sig : List Byte) : List Byte :=
  let code := beNat (sliceBytes sig 0 4)
  let (w, ls) := otsWidth code
  let pre := tree ++ bigEnd 4 q
  let h := sha256 (pre ++ [0x81, 0x81] ++ sliceBytes sig 4 32 ++ msg)
  let sum := ((List.range (256 / w)).map (fun i => 2 ^ w - 1 - otsCoef h i w)).sum
  sha256 (pre ++ [0x80, 0x80] ++ otsEnds pre (h ++ bigEnd 2 (sum <<< ls)) w (otsChains code) 0 (sig.drop 36))

/-- The root that a path leads to from a node. -/
def lmsRoot (tree : List Byte) : Nat → Nat → List Byte → List Byte → List Byte
  | 0, _, _, x => x
  | n + 1, node, path, x =>
    let near := path.take 32
    let pair := if node % 2 = 1 then near ++ x else x ++ near
    lmsRoot tree n (node / 2) (path.drop 32) (sha256 (tree ++ bigEnd 4 (node / 2) ++ [0x83, 0x83] ++ pair))

/-- An LMS signature verifies under a public key of 56 bytes: type, LM-OTS type, identifier, root. -/
def lmsVerify (key msg sig : List Byte) : Bool :=
  let q := beNat (sliceBytes sig 0 4)
  let tree := sliceBytes key 8 16
  let o := 4 + otsBytes (beNat (sliceBytes sig 4 4))
  let height := lmsHeight (beNat (sliceBytes sig o 4))
  let leaf := sha256 (tree ++ bigEnd 4 (2 ^ height + q) ++ [0x82, 0x82] ++ otsKey tree q msg (sig.drop 4))
  sliceBytes sig 4 4 == sliceBytes key 4 4 && sliceBytes sig o 4 == sliceBytes key 0 4 && decide (q < 2 ^ height) &&
  sig.length == lmsBytes sig && lmsRoot tree height (2 ^ height + q) (sig.drop (o + 4)) leaf == sliceBytes key 24 32

/-- The levels of an HSS signature verify: every level but the last signs the public key of the next. -/
def hssVerifyLevels : Nat → List Byte → List Byte → List Byte → Bool
  | 0, key, msg, sig => lmsVerify key msg sig
  | k + 1, key, msg, sig =>
    let n := lmsBytes sig
    let next := sliceBytes sig n 56
    lmsVerify key next (sig.take n) && hssVerifyLevels k next msg (sig.drop (n + 56))

/-- An HSS signature of a message verifies under a public key of 60 bytes. -/
def hssVerify (key msg sig : List Byte) : Bool :=
  let l := beNat (sliceBytes sig 0 4)
  l + 1 == beNat (sliceBytes key 0 4) && hssVerifyLevels l (key.drop 4) msg (sig.drop 4)

end Sys2Proof.Machine
end

