-- ==== Sys2Proof/Machine/SlvOps.lean ====
section
/-!
DEFINITION. The operations of the selvedge: mailboxes, barrier channels, the status mirror (R379 to R400).
-/
namespace Sys2Proof.Machine

/-- Change a mailbox. -/
def State.modMb (s : State) (n : Fin 8) (f : Mailbox → Mailbox) : State :=
  { s with slv := { s.slv with mb := vmod s.slv.mb n f } }

/-- A mailbox fails with a cause; its vector is raised (R394, R397). -/
def State.mbFail (s : State) (n : Fin 8) (cause : BitVec 3) : State :=
  (s.modMb n (fun m => { m with state := .failed, cause := cause, since := s.now })).raiseVector ⟨n.val, by omega⟩

/-- Every mailbox in flight fails with a cause (R394, R396). -/
def State.mbFailAll (s : State) (cause : BitVec 3) : State :=
  (List.finRange 8).foldl (fun s n => if (s.slv.mb[n]).state == .busy then s.mbFail n cause else s) s

/-- One bit of the reflected CRC-32. -/
def crc32Bit (c : BitVec 32) : BitVec 32 := if c.getLsbD 0 then (c >>> 1) ^^^ 0xEDB88320#32 else c >>> 1
/-- One byte of the reflected CRC-32. -/
def crc32Byte (c : BitVec 32) (b : Byte) : BitVec 32 := Nat.repeat crc32Bit 8 (c ^^^ b.setWidth 32)
/-- CRC-32 with the IEEE 802.3 polynomial, as IEEE 802.3 computes it (R382; DEDUCED, log 47). -/
def crc32 (bs : List Byte) : BitVec 32 := ~~~(bs.foldl crc32Byte 0xFFFFFFFF#32)

/-- The CRC that a barrier frame's header and payload give (R382). -/
def frameCrc (f : Frame) : BitVec 32 :=
  crc32 (leBytes 1 f.kind.toNat ++ leBytes 1 f.seq.toNat ++ leBytes 2 (packFields [bv' f.len, bv' f.ctx]) ++ sliceBytes f.payload 0 256)
where
  /-- a field with its width -/
  bv' {w : Nat} (x : BitVec w) : Nat × Nat := (w, x.toNat)

/-- A frame that passes its CRC and whose type is defined (R382). -/
def frameGood (f : Frame) : Bool := f.crc == frameCrc f && decide (f.kind.toNat ≤ 6)

/-- The channels of a direction: host-to-device, or with `rx` device-to-host. -/
def SlvState.dir (v : SlvState) (rx : Bool) : Vector BarCh 20 := if rx then v.rx else v.tx
/-- Change the channels of a direction. -/
def SlvState.setDir (v : SlvState) (rx : Bool) (c : Vector BarCh 20) : SlvState :=
  if rx then { v with rx := c } else { v with tx := c }
/-- Change a channel. -/
def SlvState.modCh (v : SlvState) (rx : Bool) (ch : Fin 20) (f : BarCh → BarCh) : SlvState :=
  v.setDir rx (vmod (v.dir rx) ch f)

/-- Working channels of a role. -/
def roleCount (c : Vector BarCh 20) (r : BarRole) : Nat := (c.toList.filter (fun x => x.role == r && !x.failed)).length

/-- A direction stays up with a message channel and 8 bulk channels (R385). -/
def dirUp (c : Vector BarCh 20) : Bool := decide (1 ≤ roleCount c .msg) && decide (8 ≤ roleCount c .bulk)

/-- The role a channel has at training (R381). -/
def trainedRole (ch : Fin 20) : BarRole := if ch.val < 16 then .bulk else if ch.val < 18 then .msg else .spare

/-- The lowest-numbered unused spare of a direction (R384). -/
def spareOf (chs : Vector BarCh 20) : Option (Fin 20) :=
  (List.finRange 20).find? (fun i => (chs[i]).role == .spare && !(chs[i]).failed)
/-- The highest-numbered bulk channel still working (R384). -/
def lastBulk (chs : Vector BarCh 20) : Option (Fin 20) :=
  (List.finRange 20).reverse.find? (fun i => (chs[i]).role == .bulk && !(chs[i]).failed)

/-- A channel fails; its role and its unacknowledged frames move (R384): the channels after it, and whether a role moved. -/
def failChannel (chs : Vector BarCh 20) (ch : Fin 20) : Vector BarCh 20 × Bool :=
  let x := chs[ch]
  if x.failed then (chs, false)
  else
    let c1 := vmod chs ch (fun x => { x with failed := true, role := .out, replay := [], asked := none })
    let move := fun (dest : Fin 20) =>
      (vmod c1 dest (fun y => { y with role := x.role, replay := y.replay ++ x.replay }), true)
    match x.role with
    | .out => (c1, false)
    | .spare => (c1, false)
    | .bulk => match spareOf c1 with | some t => move t | none => (c1, false)
    | .msg => match spareOf c1 with
      | some t => move t
      | none => match lastBulk c1 with | some t => move t | none => (c1, false)

/-- Every bulk transfer is to stop at its next piece (R406). -/
def SlvState.stopBulk (v : SlvState) : SlvState := { v with bulk := v.bulk.map (Option.map (fun b => { b with ended := true })) }

/-- The barrier goes down: mailboxes in flight fail and bulk transfers stop (R396); one that a stale mirror failed in the same cycle
records cause 3 (R409). -/
def State.barrierDown (s : State) : State :=
  if !s.slv.barrierUp then s
  else
    let s := ({ s with slv := { s.slv.stopBulk with barrierUp := false } }).slvEvent 0
    let late := fun (m : Mailbox) => m.state == .failed && m.cause == 2 && m.since == s.now
    let s := { s with slv := { s.slv with mb := s.slv.mb.map (fun m => if late m then { m with cause := 3 } else m) } }
    s.mbFailAll 3

/-- Fail a channel of a direction and count the repair (R384, R385). -/
def State.failBarrier (s : State) (rx : Bool) (ch : Fin 20) : State :=
  let (c, moved) := failChannel (s.slv.dir rx) ch
  let s := { s with slv := s.slv.setDir rx c }
  let s := if moved then ({ s with slv := { s.slv with repairs := satAdd 32 s.slv.repairs 1 } }).slvEvent 1 else s
  if dirUp c then s else s.barrierDown

/-- The firmware slot that runs (R462). -/
def SecState.running (x : SecState) : FwSlot := if x.fwSlot then x.slots[1] else x.slots[0]

/-- The distaff_state of the mirror (R399). -/
def State.distaffState (s : State) : Nat :=
  if s.flt.coreHalted ≠ 0 then 3
  else if s.flt.rungs.any (fun r => decide (4 ≤ r.rung) && decide (r.rung ≤ 6)) then 2
  else if s.dist.alive then 1 else 0

/-- The rung in progress that the mirror and DST_RESET_STATUS show: the widest. -/
def State.rungNow (s : State) : Nat := (s.flt.rungs.map (·.rung)).foldl max 0

/-- Mirror bytes 0x008 to 0x02F (R399). -/
def State.mirrorBytes (s : State) : List Byte :=
  leBytes 4 s.sec.running.version.toNat ++ leBytes 1 s.distaffState ++ leBytes 1 s.rungNow ++
  leBytes 2 s.flt.lastFault.toNat ++ leBytes 8 s.tick.count.toNat ++ leBytes 4 s.tick.periodNs.toNat ++
  leBytes 2 s.pwr.powerW.toNat ++ leBytes 2 s.pwr.capW.toNat ++
  leBytes 1 ((s.pwr.therm.toList.map (fun t => t.junction.toNat)).foldl max 0) ++
  (List.finRange 4).flatMap (fun d => leBytes 1 (s.dieLevel d).toNat) ++ leBytes 3 0 ++
  leBytes 2 s.dist.jobs.length ++ leBytes 2 s.dist.queue.length ++ leBytes 4 s.dist.busyCount

/-- distaff_alive changes (R400, R410). -/
def State.setAlive (s : State) (v : Bool) : State :=
  if s.slv.distaffAlive = v then s else ({ s with slv := { s.slv with distaffAlive := v } }).slvEvent 2

/-- compute_power changes (R408, R410). -/
def State.setComputePower (s : State) (v : Bool) : State :=
  if s.slv.computePower = v then s
  else
    let s := ({ s with slv := { s.slv with computePower := v, trainDue := v || s.slv.trainDue } }).slvEvent 4
    if v then s else s.barrierDown

end Sys2Proof.Machine
end

