-- ==== Sys2Proof/Machine/SecOps.lean ====
section
/-!
DEFINITION. Roles, the audit log, signatures, identity leaves and the boot ROM (R442 to R465).
-/
namespace Sys2Proof.Machine

/-- Change the role state of a transport. -/
def State.modRole (s : State) (t : Transport) (f : RoleState → RoleState) : State :=
  { s with sec := { s.sec with roles := vmod s.sec.roles t f } }

/-- The role number of an audit record (R453): the BMC without a role is 4. -/
def State.roleNumber (s : State) (t : Transport) : Nat :=
  match (s.sec.roles[t]).role with
  | .operator => if t.val = 8 then 4 else 1
  | .installer => 2
  | .maker => 3

/-- The key slot of an audit record (R453). -/
def State.roleSlot (s : State) (t : Transport) : Nat :=
  match (s.sec.roles[t]).role with
  | .operator => 0xFF
  | .installer => (s.sec.roles[t]).slot
  | .maker => 0x0F

/-- What an audit record says (R453). -/
structure AuditEvent where
  event : Nat
  status : Code := 0
  role : Nat := 5
  transport : Nat := 9
  slot : Nat := 0xFF
  subject : List Byte := []
  /-- none where the event's detail is of no stated content -/
  detail : Option (List Byte) := none
  deriving DecidableEq, Repr

/-- The chain of the newest audit record; 32 zero bytes before the first (R453). -/
def SecState.chain (x : SecState) : List Byte := match x.audit.getLast? with | some r => sliceBytes r 0x58 32 | none => List.replicate 32 0

/-- The bytes of an audit record (R453). -/
def State.auditBytes (s : State) (e : AuditEvent) : List Byte :=
  let detail := match e.detail with | some d => sliceBytes d 0 24 | none => freeBytes s.fresh 24
  let body := leBytes 2 1 ++ leBytes 2 e.event ++ leBytes 2 e.status.toNat ++ leBytes 1 e.role ++ leBytes 1 e.transport ++
    leBytes 8 s.sec.auditSeq ++ leBytes 4 s.sec.bootCount.toNat ++ leBytes 1 e.slot ++ leBytes 3 0 ++
    leBytes 8 s.tick.count.toNat ++ sliceBytes e.subject 0 32 ++ detail
  body ++ sha256 (s.sec.chain ++ body) ++ [0xFF, 0xFF, 0xFF, 0xFF] ++ [0, 0, 0, 0]

/-- Append a committed record, without the erasure that may follow. -/
def State.auditPut (s : State) (e : AuditEvent) : State :=
  { s with fresh := s.fresh + 24, sec := { s.sec with audit := s.sec.audit ++ [s.auditBytes e], auditSeq := s.sec.auditSeq + 1 } }

/-- Append an audit record; when one free sector of the ring remains, the oldest sector is erased and event 0x0050 names the
records lost (R452, R454). -/
def State.audit (s : State) (e : AuditEvent) : State :=
  let s := s.auditPut e
  if s.sec.audit.length < 127 * 512 then s
  else
    let first := s.sec.auditSeq - s.sec.audit.length
    let s := { s with sec := { s.sec with audit := s.sec.audit.drop 512, erased := satAdd 32 s.sec.erased 1 } }
    s.auditPut { event := 0x0050, detail := some (leBytes 8 first ++ leBytes 8 (first + 511)) }

/-- Log an action of a transport. -/
def State.auditBy (s : State) (t : Transport) (event : Nat) (status : Code) (subject : List Byte) : State :=
  s.audit { event := event, status := status, role := s.roleNumber t, transport := t.val, slot := s.roleSlot t, subject := subject }

/-- Drop the role a transport holds, with its log record (R443, R454). -/
def State.dropRole (s : State) (t : Transport) : State :=
  if (s.sec.roles[t]).role == .operator then s
  else (s.auditBy t 0x0003 0 []).modRole t (fun r => { r with role := .operator, slot := 0 })

/-- Record the latest security code (R467). -/
def State.secCode (s : State) (c : Code) : State :=
  if 0x0700 ≤ c.toNat ∧ c.toNat ≤ 0x07FF then { s with sec := { s.sec with code := c } } else s

/-- The installer slots in a state. -/
def SecState.enrolled (x : SecState) : BitVec 4 :=
  (List.finRange 4).foldl (fun m i => if (x.installer[i]).any (fun k => !k.revoked) then m ||| (1#4 <<< i.val) else m) 0
/-- The revoked installer slots. -/
def SecState.revoked (x : SecState) : BitVec 4 :=
  (List.finRange 4).foldl (fun m i => if (x.installer[i]).any (·.revoked) then m ||| (1#4 <<< i.val) else m) 0
/-- Decryption key slots that are programmed (R378). -/
def SecState.keyPresent (x : SecState) : BitVec 6 :=
  (List.finRange 6).foldl (fun m i =>
    let p := if h : i.val < 4 then (x.fuseKeys[i.val]).isSome else (x.battKeys[i.val - 4]).isSome
    if p then m ||| (1#6 <<< i.val) else m) 0
/-- Decryption key slots that are revoked (R378). -/
def SecState.keyRevoked (x : SecState) : BitVec 6 := x.battRevoked ++ x.fuseRevoked
/-- The key of a decryption slot that may decrypt (R363, R450). -/
def SecState.key (x : SecState) (slot : Nat) : Option (List Byte) :=
  if h : slot < 4 then (if x.fuseRevoked.getLsbD slot then none else x.fuseKeys[slot])
  else if h : slot < 6 then (if x.battRevoked.getLsbD (slot - 4) then none else x.battKeys[slot - 4])
  else none

/-- An HSS public key names accepted parameter sets (R444): L, then the top-level LMS public key. -/
def hssKeyOk (k : List Byte) : Bool :=
  let l := beNat (sliceBytes k 0 4)
  decide (1 ≤ l) && decide (l ≤ 3) && lmsType (k.drop 4) && otsType (k.drop 8)

/-- Walk the levels of an HSS signature: its length, where every level names accepted types (R444, RFC 8554). -/
def hssLevels : Nat → List Byte → Option Nat
  | levels, b =>
    let ots := beNat (sliceBytes b 4 4)
    let o := 4 + otsBytes ots
    let lms := beNat (sliceBytes b o 4)
    if !otsType (b.drop 4) || !lmsType (b.drop o) then none
    else
      let n := o + 4 + 32 * lmsHeight lms
      match levels with
      | 0 => some n
      | k + 1 =>
        if !lmsType (b.drop n) || !otsType (b.drop (n + 4)) then none
        else (hssLevels k (b.drop (n + 56))).map (· + n + 56)

/-- The length of the HSS signature that begins a byte list, where its parameter sets are accepted. -/
def hssLength (b : List Byte) : Option Nat :=
  let nspk := beNat (sliceBytes b 0 4)
  if 2 < nspk then none else (hssLevels nspk (b.drop 4)).map (· + 4)

/-- Check a signature: 0x0701 for a parameter set that is not accepted, 0x0703 for one that does not verify (R444). -/
def hssCheck (key msg sig : List Byte) : Code :=
  if !hssKeyOk key || (hssLength sig).isNone then 0x0701
  else if hssVerify key msg sig then 0 else 0x0703

/-- Identity leaves left when the next leaf is `n` (R456). -/
def leavesFrom (n : Nat) : BitVec 26 := BitVec.ofNat 26 (2 ^ 25 - min n (2 ^ 25))

/-- Reserve the next block of identity leaves, when one is left (R457). -/
def SecState.takeBlock (x : SecState) : SecState :=
  let b := if x.blockValid then x.block.toNat + 1 else 0
  if b < 2 ^ 19 then
    { x with block := BitVec.ofNat 19 b, blockValid := true, nextLeaf := 64 * b, leavesLeft := leavesFrom (64 * b) }
  else { x with nextLeaf := 2 ^ 25, leavesLeft := 0 }

/-- The slot that a slot-switch record boots, with the record that follows it and whether it is a reversion (R462). -/
def bootChoice (r : SwitchRec) : SwitchRec × Bool :=
  match r.trial.toNat with
  | 0 => (r, false)
  | 1 => ({ r with trial := 2 }, false)
  | _ => ({ slot := !r.slot, trial := 0 }, true)

/-- A firmware slot that the boot ROM accepts (R460, R462). -/
def SecState.bootable (x : SecState) (slot : Bool) : Bool :=
  let f := if slot then x.slots[1] else x.slots[0]
  f.valid && decide (x.rollback.toNat ≤ f.security)

/-- The boot after a full device reset: the ROM selects a slot, roles drop, keys and journals are read (R443, R449, R450, R457,
R462, R463). -/
def State.romBoot (s : State) : State :=
  let s := { s with sec := { s.sec with
    bootCount := s.sec.bootCount + 1, testMode := false, vbatOk := s.sec.vbat, roles := Vector.replicate 9 {}, attest := [], attestBy := none
    lockRefused := Vector.replicate 9 0, code := 0, tableValid := decide (0 < s.sec.generation) } }
  let (r, back) := bootChoice s.sec.switchRec
  let other : SwitchRec := { slot := !r.slot, trial := 0 }
  let ok := s.sec.bootable r.slot
  let pick := if ok then r else other
  let alive := s.sec.bootable pick.slot
  let s := { s with
    sec := { s.sec with switchRec := pick, fwSlot := pick.slot, fwStaged := s.sec.fwStaged && pick.slot == s.sec.fwSlot }
    dist := { s.dist with alive := alive }
    flt := { s.flt with coreHalted := if alive then 0 else 0xF } }
  if !alive then s
  else
    let s := if back then s.audit { event := 0x0023 } else s
    let s := if ok then s else ({ s with sec := { s.sec with code := 0x0711 } }).report 0x0711
    let s := if s.sec.tableValid then s else s.audit { event := 0x0034 }
    let s := if s.sec.vbatLogDue then
        ({ s with sec := { s.sec with vbatLogDue := false } }).audit { event := 0x0033 }
      else s
    { s with sec := s.sec.takeBlock }

end Sys2Proof.Machine
end

