-- ==== Sys2Proof/Machine/MsgOps.lean ====
section
/-!
DEFINITION. Messages: the header and its checks, roles, admission, and answers (R414 to R419, R436 to R439, R454).
-/
namespace Sys2Proof.Machine

/-- Who may send an opcode (R416, R442). -/
inductive Need where
  | any | operator | installer | maker
  deriving DecidableEq, Repr

/-- A row of the opcode table (R416, R461): least request length, bound in µs, core, role, and whether I3C may carry it (R439). -/
structure OpRow where
  op : Nat
  len : Nat
  bound : Nat
  core : Nat
  need : Need
  i3c : Bool := false
  deriving DecidableEq, Repr

/-- The opcodes of firmware 3.2 (R416, R461). -/
def opRows : List OpRow :=
  [⟨0x0001, 0x20, 50, 0, .any, true⟩, ⟨0x0002, 0x28, 200, 3, .operator, true⟩, ⟨0x0003, 0x30, 1000, 3, .operator, true⟩,
   ⟨0x0004, 0x48, 20000, 3, .operator, true⟩, ⟨0x0010, 0x38, 1000, 1, .operator, false⟩, ⟨0x0011, 0x28, 10000, 1, .operator, false⟩,
   ⟨0x0012, 0x30, 1000, 1, .operator, false⟩, ⟨0x0013, 0x28, 1000, 1, .operator, false⟩, ⟨0x0020, 0x48, 2000, 2, .operator, false⟩,
   ⟨0x0021, 0x30, 1000, 2, .operator, false⟩, ⟨0x0022, 0x28, 100, 2, .operator, false⟩, ⟨0x0030, 0x38, 500, 0, .operator, false⟩,
   ⟨0x0031, 0x28, 500, 0, .operator, false⟩, ⟨0x0032, 0x48, 500, 0, .operator, false⟩, ⟨0x0033, 0x48, 500, 0, .operator, false⟩,
   ⟨0x0040, 0x28, 1000, 3, .operator, false⟩, ⟨0x0050, 0x28, 1000, 3, .installer, true⟩] ++
  [⟨0x0100, 0x20, 100, 3, .any, true⟩, ⟨0x0101, 0x70, 50000, 3, .any, true⟩, ⟨0x0102, 0x20, 100, 3, .installer, true⟩,
   ⟨0x0110, 0x38, 20000, 1, .installer, false⟩, ⟨0x0111, 0x40, 1000, 1, .installer, false⟩, ⟨0x0112, 0x28, 1000, 3, .installer, false⟩,
   ⟨0x0120, 0x30, 5000, 3, .installer, false⟩, ⟨0x0130, 0x38, 100000, 3, .installer, false⟩, ⟨0x0131, 0x20, 20000, 3, .installer, false⟩,
   ⟨0x0132, 0x20, 100000, 3, .installer, false⟩, ⟨0x0133, 0x68, 20000, 3, .installer, false⟩, ⟨0x0134, 0x28, 100000, 3, .installer, false⟩,
   ⟨0x0135, 0x50, 20000, 3, .installer, false⟩, ⟨0x0138, 0x38, 20000, 3, .maker, false⟩, ⟨0x0139, 0x50, 100000, 3, .maker, false⟩,
   ⟨0x013A, 0x28, 20000, 3, .maker, false⟩, ⟨0x013B, 0x20, 200000, 3, .maker, false⟩]

/-- The row of an opcode. -/
def opRow (op : Nat) : Option OpRow := opRows.find? (fun r => r.op == op)

/-- opcode of a message (R414). -/
def opcodeOf (q : Request) : Nat := field q.bytes 0 2

/-- The role of a KEY_ENROL while no installer slot is enrolled is the maker's (R449, R461). -/
def State.needOf (s : State) (r : OpRow) : Need :=
  if r.op = 0x0133 ∧ s.sec.enrolled = 0 then .maker else r.need

/-- A transport holds a needed role (R442); the BMC may RESET without one (R439). -/
def State.holds (s : State) (t : Transport) (r : OpRow) : Bool :=
  match s.needOf r with
  | .any => true
  | .operator => true
  | .installer => (s.sec.roles[t]).role != .operator || (r.op == 0x0050 && t.val == 8)
  | .maker => (s.sec.roles[t]).role == .maker

/-- Payload ranges that must be zero (R415 check 6): offset and length, from each message's layout. -/
def reservedRanges (op : Nat) (b : List Byte) : List (Nat × Nat) :=
  let tail := fun (n : Nat) => [(n, b.length - n)]
  match op with
  | 0x0002 => (0x24, 4) :: tail (0x28 + 4 * field b 0x20 4)
  | 0x0003 => (0x2C, 4) :: tail 0x30
  | 0x0004 => (0x22, 6) :: tail 0x48
  | 0x0010 => [(0x22, 6)] ++ tail 0x38
  | 0x0020 => (0x43, 5) :: tail 0x48
  | 0x0030 => (0x31, 7) :: tail 0x38
  | 0x0031 => (0x22, 6) :: tail 0x28
  | 0x0032 => [(0x22, 6), (0x44, 4)] ++ tail 0x48
  | 0x0033 => [(0x22, 6), (0x44, 4)] ++ tail 0x48
  | 0x0040 => (0x22, 6) :: tail 0x28
  | 0x0050 => (0x21, 7) :: tail 0x28
  | 0x0101 => [(0x26, 2), (0x2C, 4)] ++
      (if field b 0x20 1 = 3 ∧ field b 0x22 1 = 0 then [(0x6C, 4)] else [(0x30, 64)]) ++ tail (0x70 + field b 0x24 2)
  | 0x0110 => [(0x23, 5)] ++ tail 0x38
  | 0x0111 => [(0x23, 5), (0x2C, 4)] ++ tail 0x40
  | 0x0112 => (0x24, 4) :: tail 0x28
  | 0x0120 => [(0x22, 6), (0x2C, 4)]
  | 0x0130 => [(0x22, 6)] ++ tail 0x38
  | 0x0133 => [(0x21, 7), (0x64, 4)] ++ tail 0x68
  | 0x0134 => (0x22, 6) :: tail 0x28
  | 0x0135 => (0x23, 5) :: tail 0x50
  | 0x0138 => [(0x22, 6)] ++ tail 0x38
  | 0x0139 => (0x21, 7) :: tail 0x50
  | 0x013A => (0x21, 7) :: tail 0x28
  | op => match opRow op with | some r => tail r.len | none => []

/-- Reserved flag bits of the payload are zero. -/
def flagBitsOk (op : Nat) (b : List Byte) : Bool :=
  match op with
  | 0x0020 => decide (field b 0x42 1 < 2)
  | 0x0030 => decide (field b 0x30 1 < 4)
  | 0x0110 => decide (field b 0x22 1 < 2)
  | _ => true

/-- The checks of R415 in their order, but for admission; 0 when all pass. -/
def State.checkMessage (s : State) (q : Request) : Code :=
  let b := q.bytes
  let n := b.length
  let row := opRow (opcodeOf q)
  if field b 4 4 ≠ n ∨ n < ((row.map (·.len)).getD 32) ∨ 4096 < n ∨ n % 8 ≠ 0 ∨ (q.transport.val = 8 ∧ 1024 < n) then 0x0103
  else if field b 0x13 1 ≠ 3 ∨ 2 < field b 0x12 1 then 0x0104
  else if field b 2 2 ≠ 0 ∨ field b 0x10 2 ≠ 0 ∨ !allZero (sliceBytes b 0x14 12) then 0x0105
  else match row with
    | none => 0x0102
    | some r =>
      if q.transport.val = 8 ∧ !r.i3c then 0x0102
      else if !s.holds q.transport r then 0x0106
      else if !((reservedRanges r.op b).all (fun x => allZero (sliceBytes b x.1 x.2))) || !flagBitsOk r.op b then 0x0105
      else 0

/-- The bound of a request in µs, with the range it moves (R416, R461). -/
def State.boundOf (s : State) (r : OpRow) (b : List Byte) : Nat :=
  let len := field b 0x30 8
  let per := fun (us unit n : Nat) => us * ceilDiv n unit
  match r.op with
  | 0x0010 => 1000 + per 1000 0x4000000 len
  | 0x0011 => 10000 + per 1000 0x4000000 ((s.dist.staged.map (·.image.length)).getD 0)
  | 0x0110 => 20000 + per 40000 0x4000000 len
  | 0x0130 => 100000 + per 600000 0x100000 len
  | 0x0138 => 20000 + per 40000 0x4000000 len + per 600000 0x100000 len
  | _ => r.bound

/-- A held BULK request whose transfer the engine has started has left its core (R403, R416). -/
def State.offCore (s : State) (h : Held) : Bool :=
  if p : h.transport.val < 8 then
    (h.opcode == 0x32 || h.opcode == 0x33) &&
      (s.slv.bulk[h.transport.val]).any (fun b => b.started && b.crossing == h.crossing)
  else false

/-- What is left of the bounds of the requests that a core holds, in µs (R436): the first is in service. QUERY_STATUS is served
ahead of the queue. -/
def State.coreWait (s : State) (core : Nat) : Nat :=
  match s.dist.queue.filter (fun h => h.core == core && h.opcode != 1 && !s.offCore h) with
  | [] => 0
  | h :: rest => (h.bound - (s.now - h.arrived) / 17000) + (rest.map (·.bound)).sum

/-- What a handler answers. -/
structure Reply where
  status : Code := 0
  payload : List Byte := []
  /-- the answer comes later, from another command (R403, R434) -/
  later : Bool := false
  /-- retry_after_us of a BUSY answer (R420) -/
  retry : Nat := 0
  /-- the handler wrote its own audit record -/
  logged : Bool := false
  subject : List Byte := []
  deriving DecidableEq, Repr

/-- An answer of a status alone. -/
def refuse (c : Code) : Reply := { status := c }

/-- The bytes of a response, filled to a multiple of 8 (R414). -/
def responseBytes (request : List Byte) (status : Code) (retry : Nat) (payload : List Byte) : List Byte :=
  let payload := payload ++ List.replicate ((8 - payload.length % 8) % 8) 0
  sliceBytes request 0 2 ++ leBytes 2 status.toNat ++ leBytes 4 (32 + payload.length) ++ sliceBytes request 8 8 ++
  leBytes 2 1 ++ leBytes 2 0x0302 ++ leBytes 4 retry ++ leBytes 4 0 ++ leBytes 4 0 ++ payload

/-- Put a response on its way (R393). -/
def State.respond (s : State) (t : Transport) (crossing : BitVec 16) (request : List Byte) (status : Code) (retry : Nat)
    (payload : List Byte) : State :=
  { s with dist := { s.dist with responses := s.dist.responses ++
      [{ transport := t, crossing := crossing, bytes := responseBytes request status retry payload }] } }

/-- The event number of an installer or maker request in the audit log (R454). -/
def auditEventOf (op : Nat) : Option Nat :=
  match op with
  | 0x0120 => some 0x10 | 0x0110 => some 0x11 | 0x0111 => some 0x12 | 0x0112 => some 0x13 | 0x0050 => some 0x14
  | 0x0130 => some 0x20 | 0x0131 => some 0x21 | 0x0132 => some 0x22 | 0x0133 => some 0x30 | 0x0134 => some 0x31
  | 0x0135 => some 0x32 | 0x0138 => some 0x40 | 0x0139 => some 0x41 | 0x013A => some 0x42 | 0x013B => some 0x43
  | 0x0102 => some 0x03 | _ => none

/-- Log a request that needs the installer or maker role (R454), as the transport's role stood at its arrival. -/
def State.logRequest (pre s : State) (q : Request) (status : Code) (subject : List Byte) : State :=
  match auditEventOf (opcodeOf q) with
  | none => s
  | some e => s.audit { event := e, status := status, role := pre.roleNumber q.transport, transport := q.transport.val,
                        slot := pre.roleSlot q.transport, subject := subject }

/-- The BMC reads the answer to its request before it writes the next one (R439; DESIGN CHOICE, log 48). -/
def State.i3cRead (s : State) (t : Transport) : State :=
  if t.val = 8 then
    { s with dist := { s.dist with
        responses := s.dist.responses.filter (fun r => r.transport != t), queue := s.dist.queue.filter (fun h => h.transport != t) } }
  else s

/-- The BMC's request is outstanding: its answer is not ready, and a further write is NACKed (R439). -/
def State.i3cBusy (s : State) (t : Transport) : Bool :=
  t.val == 8 && s.dist.queue.any (fun h => h.transport == t) && !s.dist.responses.any (fun r => r.transport == t)

/-- Count a BUSY answer (R437). -/
def State.countBusy (s : State) : State :=
  { s with dist := { s.dist with busyCount := min (s.dist.busyCount + 1) (2 ^ 32 - 1) } }

/-- The payload of an answer other than OK: a BULK response states its bytes done whatever its status (R415, R419). -/
def statusPayload (op : Nat) : List Byte := if op = 0x32 ∨ op = 0x33 then leBytes 8 0 else []

/-- A request refused by a check of R415: answered, and logged where it needs a role above the operator's. -/
def State.refuseMessage (s : State) (q : Request) (c : Code) : State :=
  (s.logRequest s q c []).respond q.transport q.crossing q.bytes c 0 (statusPayload (opcodeOf q))

/-- A request of a transport needs the role that it holds: the role's idle time starts anew (R443). -/
def State.touchRole (s : State) (q : Request) : State :=
  if (opRow (opcodeOf q)).any (fun r => r.need == .installer || r.need == .maker) then
    s.modRole q.transport (fun x => { x with lastUse := s.now })
  else s

/-- The audit record that a request needs cannot be written (R454); of the parts of a ROLE_ENTER the last alone needs one. -/
def lacksRecord (q : Request) : Bool :=
  q.flashFails && ((auditEventOf (opcodeOf q)).isSome ||
    (opcodeOf q == 0x0101 && field q.bytes 0x22 1 + 1 == field q.bytes 0x23 1))

/-- Admit a request: it waits on its core until its answer leaves (R436). -/
def State.admitRequest (s : State) (q : Request) (r : OpRow) : State :=
  { s with dist := { s.dist with queue := s.dist.queue ++
      [{ core := r.core, transport := q.transport, crossing := q.crossing, opcode := r.op, bound := s.boundOf r q.bytes
         arrived := s.now, range := field q.bytes 0x30 8 }] } }

/-- A request of an opcode reaches the distaff: it is checked, admitted, handled and answered (R414, R415, R436, R437). A
request whose defined opcode is another message's is left to that message. A halted core answers nothing (R471). -/
def State.message (s : State) (q : Request) (op : Nat) (h : State → State × Reply) : State :=
  if !s.dist.alive || s.i3cBusy q.transport then s
  else
    let s := s.i3cRead q.transport
    let c := s.checkMessage q
    if c = 0x0102 ∨ (c ≠ 0 ∧ (opRow (opcodeOf q)).isNone) then s.refuseMessage q c
    else if opcodeOf q ≠ op then s
    else if c ≠ 0 then (s.touchRole q).refuseMessage q c
    else match opRow op with
      | none => s
      | some r =>
        if s.flt.coreHalted.getLsbD r.core then s
        else
          let wait := if op = 1 then 0 else s.coreWait r.core
          if wait ≠ 0 then
            (s.touchRole q).countBusy.respond
              q.transport q.crossing q.bytes 0x0101 wait (statusPayload op)
          else
            let pre := (s.touchRole q).admitRequest q r
            let (s, a) := if lacksRecord q then (pre.report 0x070E, ({ status := 0x070E, logged := true } : Reply)) else h pre
            let s := if a.logged then s else pre.logRequest s q a.status a.subject
            let s := s.secCode a.status
            let s := if a.status = 0x0101 then s.countBusy else s
            if a.later then s else s.respond q.transport q.crossing q.bytes a.status a.retry a.payload

end Sys2Proof.Machine
end

