-- ==== Sys2Proof/Machine/BulkOps.lean ====
section
/-!
DEFINITION. The operations of bulk transfers: scatter lists, the die 0 agent's accesses to device memory, and how a transfer ends
(R402 to R406, R419).
-/
namespace Sys2Proof.Machine

/-- A transfer or staging on a grant region ends; a closing region closes with its last (R406, R426). -/
def State.endCopy (s : State) (id : Nat) : State :=
  let gs := s.dist.grants.map (fun g => if g.id = id then { g with transfers := g.transfers - 1 } else g)
  { s with dist := { s.dist with grants := gs.filter (fun g => !(g.closing && g.transfers == 0)) } }

/-- The transfer of a mailbox ends: its response states the count of bytes done whatever its status (R403, R419). -/
def State.endBulk (s : State) (n : Fin 8) (b : Bulk) (status : Code) (done : Nat) : State :=
  let s := (s.endCopy b.grant).respond ⟨n.val, by omega⟩ b.crossing b.reqHeader status 0 (leBytes 8 done)
  { s with slv := { s.slv with bulk := vmod s.slv.bulk n (fun _ => none) } }

/-- A scatter entry's fields: address, length, flags (R402). -/
def scatterOf (e : List Byte) : Nat × Nat × Nat := (field e 0 8, field e 8 4, field e 12 4)

/-- An entry that keeps R402: length 1 to 2^30, no reserved flag, `last` on the final entry alone, and the stream's length the
transfer's total there. -/
def scatterOk (b : Bulk) (index before length flags : Nat) : Bool :=
  decide (1 ≤ length) && decide (length ≤ 2 ^ 30) && decide (flags ≤ 1) &&
  (if index + 1 = b.entries then flags == 1 && before + length == b.total else flags == 0 && decide (before + length < b.total))

/-- What a piece takes from the scatter list. -/
inductive Walk where
  /-- segments of host memory, with the place in the list after them -/
  | segs (l : List (BitVec 64 × Nat)) (b : Bulk)
  /-- the list breaks R402 -/
  | broken
  /-- more entries are needed than the event brings -/
  | short
  deriving DecidableEq, Repr

/-- Take `n` bytes of the stream from the entry under way and the entries read for this piece; `at_` is the stream position and the
first argument bounds the entries. -/
def walkList : Nat → Bulk → Nat → Nat → List Byte → Walk
  | 0, b, _, n, _ => if n = 0 then .segs [] b else .broken
  | k + 1, b, at_, n, list =>
    if n = 0 then .segs [] b
    else match b.entry with
      | some e =>
        let m := min n (e.bytes - b.entryDone)
        let seg := (e.addr + BitVec.ofNat 64 b.entryDone, m)
        let b := if b.entryDone + m = e.bytes then { b with entry := none, entryDone := 0, entryIndex := b.entryIndex + 1 }
                 else { b with entryDone := b.entryDone + m }
        match walkList k b (at_ + m) (n - m) list with
        | .segs l b => .segs (seg :: l) b
        | w => w
      | none =>
        if b.entries ≤ b.entryIndex then .broken
        else if list.length < 16 then .short
        else
          let (a, len, flags) := scatterOf (list.take 16)
          if scatterOk b b.entryIndex at_ len flags then
            walkList k { b with entry := some { addr := BitVec.ofNat 64 a, bytes := len }, entryDone := 0 } at_ n (list.drop 16)
          else .broken

/-- The die 0 agent reads bytes within a line (R234, R403): the state, the answer and the bytes. -/
def State.agentRead (s : State) (a n : Nat) (ecc : Ecc) : State × Code × List Byte :=
  match s.decodeAddr a with
  | .memory c pc r _ =>
    match s.creelHit 0 (a / 256) with
    | some l => (s.noteHit 0 l, 0, sliceBytes l.data (a % 256) n)
    | none =>
      let stop := s.memStops c pc r (a / 256)
      if stop ≠ 0 then (s, stop, [])
      else
        let x := s.server c.tier ⟨c.n, r⟩
        let s := s.wake ⟨c.tier, x.n⟩ pc
        if s.poisoned a n then (s.noteMiss 0 (a / 256) false, 0x0402, [])
        else match ecc with
          | .clean => (s.noteMiss 0 (a / 256) true, 0, s.memRead a n)
          | .corrected => ((s.countCorrected ⟨c.tier, x.n⟩).noteMiss 0 (a / 256) true, 0, s.memRead a n)
          | .uncorrectable => (((s.poisonAt (a / 256)).uncorrectable c.tier x pc a 0).noteMiss 0 (a / 256) false, 0x0401, [])
  | _ => (s, 0x0981, [])

/-- Write the parts of a range in ascending order up to the first answer that ends it: the state, the bytes written, the answer. A partial
write to a poisoned line is performed and answered 0x0402 (R260). -/
def State.agentWrites (s : State) : List (Nat × Nat) → List Byte → State × Nat × Code
  | [], _ => (s, 0, 0)
  | (a, n) :: ps, bs =>
    let (s, c) := s.writePart a (sliceBytes bs 0 n)
    if c ≠ 0 then (s, if c = 0x0402 then n else 0, c)
    else
      let (s, m, c) := s.agentWrites ps (bs.drop n)
      (s, n + m, c)

/-- Read the parts of a range up to the first answer that ends it; the error found belongs to the first part. -/
def State.agentReads (s : State) (ecc : Ecc) : List (Nat × Nat) → State × List Byte × Code
  | [] => (s, [], 0)
  | (a, n) :: ps =>
    let (s, c, bs) := s.agentRead a n ecc
    if c ≠ 0 then (s, [], c)
    else
      let (s, rest, c) := s.agentReads .clean ps
      (s, bs ++ rest, c)

/-- Bytes of the stream laid out over its segments of host memory. -/
def hostWrites : List (BitVec 64 × Nat) → List Byte → List (BitVec 64 × List Byte)
  | [], _ => []
  | (a, n) :: l, bs => if bs.isEmpty then [] else (a, bs.take n) :: hostWrites l (bs.drop n)

/-- Count bytes moved in 64 KiB units (R410). -/
def SlvState.moved (v : SlvState) (toDevice : Bool) (n : Nat) : SlvState :=
  if toDevice then
    { v with bulkIn := satAdd 32 v.bulkIn ((v.bulkInPart + n) / 65536), bulkInPart := (v.bulkInPart + n) % 65536 }
  else { v with bulkOut := satAdd 32 v.bulkOut ((v.bulkOutPart + n) / 65536), bulkOutPart := (v.bulkOutPart + n) % 65536 }

/-- After a piece moved: the transfer goes on, or its last byte completes it (R403). -/
def State.pieceMoved (s : State) (n : Fin 8) (b : Bulk) (m : Nat) : State :=
  let s := { s with slv := s.slv.moved b.toDevice m }
  let b := { b with done := b.done + m, retries := 0, retryAt := none }
  if b.done = b.total then s.endBulk n b 0 b.done else { s with slv := { s.slv with bulk := vmod s.slv.bulk n (fun _ => some b) } }

/-- A piece stopped by an answer of memory after `m` of its bytes: 0x0405 is retried, up to 64 answers in a row; any other ends the
transfer, and what follows the count at the destination is of no defined content (R404). -/
def State.pieceStops (s : State) (n : Fin 8) (b : Bulk) (m : Nat) (c : Code) : State :=
  if c = 0x0405 ∧ b.retries + 1 < 64 then
    let b := { b with retries := b.retries + 1, retryAt := some (s.now + Time.sc 256) }
    { s with slv := { s.slv with bulk := vmod s.slv.bulk n (fun _ => some b) } }
  else ({ s with slv := s.slv.moved b.toDevice m }).endBulk n b c (b.done + m)

end Sys2Proof.Machine
end

