-- ==== Sys2Proof/Machine/FabricOps.lean ====
section
/-!
DEFINITION. The operations of the logic fabric: regions going offline and online, clocked elements (R226, R326 to R354).
-/
namespace Sys2Proof.Machine

/-- Die of a device region (R327). -/
def regionDie (r : Region) : Die := ⟨r.val / 16, by omega⟩
/-- Index of a device region on its die (R327). -/
def regionIdx (r : Region) : Fin 16 := ⟨r.val % 16, by omega⟩
/-- The region of an endpoint (R327). -/
def regionOf (d : Die) (i : Fin 16) : Region := ⟨16 * d.val + i.val, by omega⟩
/-- A region's state. -/
def State.region (s : State) (r : Region) : FabRegion := (s.fabric[regionDie r]).regions[regionIdx r]
/-- Change a region. -/
def State.modRegion (s : State) (r : Region) (f : FabRegion → FabRegion) : State :=
  s.modFab (regionDie r) (fun x => { x with regions := vmod x.regions (regionIdx r) f })
/-- Change an endpoint. -/
def State.modEp (s : State) (d : Die) (i : Fin 16) (f : FabEp → FabEp) : State :=
  s.modFab d (fun x => { x with eps := vmod x.eps i f })

/-- Fabric control cycles (R331). -/
def Time.fcc (n : Nat) : Time := Time.ns (10 * n)
/-- The gap between release stages (R344). -/
def FabDie.gap (f : FabDie) : Nat := max 1 f.relGap.toNat

/-- Record a die's first fabric code (R356). -/
def FabDie.note (f : FabDie) (c : Code) : FabDie := { f with err := true, code := if f.code = 0 then c else f.code }

/-- Answer a request at a fabric endpoint. -/
def Packet.reply (p : Packet) (c : Code) (data : List Byte) : Packet :=
  p.answer (if p.kind == .readReq then .readResp else .writeAck) c data false

/-- A request is answered with a status and counted in FAB_EP_REFUSED (R358). -/
def State.refuseEp (s : State) (d : Die) (i : Fin 16) (p : Packet) (c : Code) : State :=
  (s.modEp d i (fun e => { e with refused := satAdd 32 e.refused 1 })).send (p.reply c [])

/-- The pins of a region (R327): its die's pins 48b + p, b the bank of the die. -/
def pinRegion (pin : Nat) : Nat := 8 * (pin / 48) + pin % 48 / 6

/-- A region goes offline: its requests are answered, its port and pins close (R336, R342, R351). -/
def State.settleRegion (s : State) (r : Region) : State :=
  let d := regionDie r
  let i := regionIdx r
  let left := ((s.fabric[d]).eps[i]).inFlight
  let s := left.foldl (fun s q => s.refuseEp d i q.pkt 0x0601) s
  s.modFab d (fun f => { f with
    eps := vmod f.eps i (fun e => { e with inFlight := [], outstanding := [], answers := [] })
    ingest := if h : i.val < 2 then vmod f.ingest ⟨i.val, h⟩ (fun g => { g with validHeld := true, open_ := none }) else f.ingest
    pins := f.pins.filter (fun p => pinRegion p.1 != i.val) })

/-- A region comes online: its endpoint accepts and its ingest port opens (R344, R349). -/
def State.openRegion (s : State) (r : Region) : State :=
  let i := regionIdx r
  let s := s.modRegion r (fun x => { x with state := 1 })
  s.modFab (regionDie r) (fun f => { f with
    ingest := if h : i.val < 2 then vmod f.ingest ⟨i.val, h⟩ (fun g => { g with validHeld := false }) else f.ingest })

/-- A Basez region whose endpoint has not been fenced yet needs its drain first (R227, R345, R346, R349). -/
def State.needsDrain (s : State) (r : Region) : Bool :=
  (s.dies[regionDie r]).basez.getLsbD (regionIdx r).val && !(s.dies[regionDie r]).fenced.getLsbD (regionIdx r).val

/-- The fence asserts on a region (R349, R351). -/
def State.fenceRegion (s : State) (r : Region) : State :=
  (s.settleRegion r).modRegion r (fun x => { x with state := 2, load := .fenced, loadAt := s.now })

/-- Keys of a region's frames: 16,384 frames per region (R361). -/
def frameOf (r : Region) (k : Nat) : Bool := k / 16384 == r.val

/-- RAMs from this number on are LUT RAMs, one per cluster, which read asynchronously (R329). -/
def firstLutRam : Nat := 10240
/-- Region of a RAM of a die (R326). -/
def ramRegion (ram : Nat) : Nat := if firstLutRam ≤ ram then (ram - firstLutRam) / 19200 else ram / 640

/-- What a region's elements hold is lost (R346, R352, R370): frames, slices, RAMs, flip-flops. -/
def FabDie.clearRegion (f : FabDie) (r : Region) : FabDie :=
  let i := r.val % 16
  { f with
    frames := f.frames.filter (fun x => !frameOf r x.1)
    slices := f.slices.filter (fun x => x.slice / 128 != i)
    rams := f.rams.filter (fun x => ramRegion x.1 != i)
    ports := f.ports.filter (fun x => ramRegion x.ram != i)
    flops := f.flops.filter (fun x => x.1 / 153600 != i) }

/-- A region is to power off (R346, R490): it drains when in Basez mode, then passes the fence. -/
def State.startPowerOff (s : State) (r : Region) : State :=
  let x := s.region r
  if x.state == 5 || x.poweringOff then s
  else
    let s := s.modRegion r (fun x => { x with poweringOff := true, power := false })
    if s.needsDrain r then s.fenceReq (regionDie r) (regionIdx r)
    else if x.state == 0 then s.modRegion r (fun x => { x with state := 5, poweringOff := false })
    else s

/-- A region with its contents cleared: empty, or still powered off. -/
def FabRegion.cleared (x : FabRegion) : FabRegion :=
  { state := if x.state == 5 then 5 else 0, clkSel := x.clkSel, power := x.power, modes := x.modes, fn := x.fn }

/-- The fabric of every die is cleared and empty (R352, R373). -/
def FabDie.cleared (f : FabDie) : FabDie :=
  { relGap := f.relGap, epTimeoutUs := f.epTimeoutUs, err := f.err, code := f.code, capDomain := f.capDomain
    capResume := f.capResume, capEdge := f.capEdge, capDst := f.capDst, capBytes := f.capBytes, capLen := f.capLen
    eps := f.eps, ingest := f.ingest
    regions := f.regions.map FabRegion.cleared }

/-- Every region goes offline and the fabric empties (R351, R352, R373). -/
def State.clearFabric (s : State) : State :=
  let s := (List.finRange 64).foldl State.settleRegion s
  { s with
    fabric := s.fabric.map FabDie.cleared
    dies := s.dies.map (fun (x : DieState) => { x with basez := 0, fenced := 0, draining := 0, releaseHeld := 0 }) }

/-- The product and sum of a slice at its third stage (R332): the exact sum, before it wraps or saturates. -/
def sliceSum (mode : BitVec 3) (acc c : BitVec 64) (a : BitVec 27) (b : BitVec 24) (op : BitVec 2) : Int :=
  let x : Int := if mode.getLsbD 0 then a.toInt else a.toNat
  let y : Int := if mode.getLsbD 1 then b.toInt else b.toNat
  match op.toNat with
  | 0 => x * y
  | 1 => acc.toInt + x * y
  | 2 => c.toInt + x * y
  | _ => acc.toInt

/-- The signed 64-bit range. -/
def fits64 (v : Int) : Bool := decide (-(2 ^ 63) ≤ v) && decide (v < 2 ^ 63)

/-- A sum as the accumulator stores it: wrapped, or saturated (R332). -/
def storeSum (sat : Bool) (v : Int) : BitVec 64 :=
  if !sat || fits64 v then BitVec.ofInt 64 v
  else if v < 0 then BitVec.ofInt 64 (-(2 ^ 63)) else BitVec.ofInt 64 (2 ^ 63 - 1)

/-- One clock edge of a slice with its cascade input (R332): operands enter the pipeline, and those of two edges ago reach the
accumulator. -/
def Slice.edge (x : Slice) (mode : BitVec 3) (c : BitVec 64) (q : SliceInput) : Slice :=
  if q.reset then { slice := x.slice }
  else
    let pipe := (q.a, q.b, q.op, q.reset) :: x.pipe
    match pipe[2]? with
    | none => { x with pipe := pipe }
    | some (a, b, op, _) =>
      let v := sliceSum mode x.acc c a b op
      { x with acc := storeSum (mode.getLsbD 2) v, ovf := x.ovf || !fits64 v, pipe := pipe.take 2 }

/-- A slice of a die. -/
def FabDie.slice (f : FabDie) (n : Nat) : Slice := (f.slices.find? (fun x => x.slice == n)).getD { slice := n }
/-- Replace a slice. -/
def FabDie.setSlice (f : FabDie) (x : Slice) : FabDie :=
  { f with slices := x :: f.slices.filter (fun y => y.slice != x.slice) }

/-- The cascade input of slice n: the accumulator of its neighbour in the column segment before the edge (R333); the first slice of a
segment has none, and reads a free value. -/
def FabDie.cascade (f : FabDie) (fresh n : Nat) : BitVec 64 :=
  if n % 64 = 0 then Config.freeWord (fresh + 1) ++ Config.freeWord fresh else (f.slice (n - 1)).acc

/-- A cell of a RAM: what was written, else what the image holds (R334, R361). -/
def FabDie.ramCell (f : FabDie) (ram addr : Nat) : Nat :=
  match f.rams.find? (fun x => x.1 == ram) with
  | some (_, c) => (match c.find? (fun p => p.1 == addr) with | some p => p.2 | none => Config.initRam ram addr f.frames)
  | none => Config.initRam ram addr f.frames

/-- Words and bits of a RAM in its configured shape (R329, R334). -/
def FabDie.ramSize (f : FabDie) (ram : Nat) : Nat × Nat :=
  if firstLutRam ≤ ram then (if Config.lutWide ram f.frames then (16, 8) else (128, 1))
  else match Config.ramShape ram f.frames with
    | .x1 => (32768, 1) | .x2 => (16384, 2) | .x4 => (8192, 4) | .x9 => (4096, 9)
    | .x18 => (2048, 18) | .x36 => (1024, 36) | .x72 => (512, 72) | .ecc => (512, 64)

/-- A block RAM in ECC mode (R334). -/
def FabDie.ramEcc (f : FabDie) (ram : Nat) : Bool := decide (ram < firstLutRam) && Config.ramShape ram f.frames == .ecc

/-- An access within a RAM's shape: its address lines and data lines are those of the shape. -/
def FabDie.shaped (f : FabDie) (a : RamAccess) : RamAccess :=
  let (words, bits) := f.ramSize a.ram
  { a with addr := a.addr % words, write := a.write.map (· % 2 ^ bits), ecc := if f.ramEcc a.ram then a.ecc else .clean }

/-- Write a cell of a RAM. -/
def FabDie.setRamCell (f : FabDie) (ram addr v : Nat) : FabDie :=
  let old := ((f.rams.find? (fun x => x.1 == ram)).map (·.2)).getD []
  { f with rams := (ram, (addr, v) :: old.filter (fun p => p.1 != addr)) :: f.rams.filter (fun x => x.1 != ram) }

/-- A port of a RAM on another clock touched an address within one cycle of either clock (R334). -/
def FabDie.clash (f : FabDie) (a : RamAccess) (domain : Fin 16) (wrote : Bool) : Bool :=
  f.ports.any (fun p => p.ram == a.ram && p.port != a.port && p.addr == a.addr && p.domain != domain && p.wrote == wrote &&
    decide (f.clockEdges[p.domain] ≤ p.edge + 1))

/-- Set a port's last access. -/
def FabDie.setPort (f : FabDie) (p : RamPort) : FabDie :=
  { f with ports := p :: f.ports.filter (fun q => !(q.ram == p.ram && q.port == p.port)) }

/-- One port of a RAM at an edge (R334): reads see the contents before the edge, of a LUT RAM those after it; what the spec leaves
undefined is a free value. -/
def FabDie.ramEdge (f0 : FabDie) (domain : Fin 16) (fresh : Nat) (all : List RamAccess) (f : FabDie) (a : RamAccess) : FabDie :=
  let free := (Config.freeWord (fresh + 2 * a.ram + a.port.val)).toNat
  let port := fun out => { ram := a.ram, port := a.port, addr := a.addr, domain := domain, edge := f0.clockEdges[domain]
                           wrote := a.write.isSome, out := out
                           corrected := a.ecc == .corrected, uncorrectable := a.ecc == .uncorrectable : RamPort }
  match a.write with
  | some v =>
    let both := all.any (fun b => b.ram == a.ram && b.port != a.port && b.addr == a.addr && b.write.isSome)
    let f := f.setRamCell a.ram a.addr (if both then free else v)
    let f := { f with ports := f.ports.map (fun (p : RamPort) =>
      if p.ram == a.ram && p.port != a.port && p.addr == a.addr && p.domain != domain && !p.wrote &&
          decide (f0.clockEdges[p.domain] ≤ p.edge + 1) then { p with out := free } else p) }
    f.setPort (port v)
  | none =>
    let v := if f0.clash a domain true || a.ecc == .uncorrectable then free
      else if firstLutRam ≤ a.ram then f.ramCell a.ram a.addr else f0.ramCell a.ram a.addr
    f.setPort (port v)

/-- One flip-flop at an edge (R329): reset and enable together clear it; reset without enable is left open. -/
def FabDie.flopEdge (fresh : Nat) (f : FabDie) (q : FlopInput) : FabDie :=
  let set := fun v => { f with flops := (q.flop, v) :: f.flops.filter (fun x => x.1 != q.flop) }
  if q.rst && q.en then set false
  else if q.rst then set ((Config.freeWord (fresh + q.flop)).getLsbD 0)
  else if q.en then set q.d
  else f

/-- How far a region of a die has been released: 0 nothing; 1 its outputs drive; 2 write enables as well; 3 its logic runs (R344, R349). A
region that is fenced runs until its clocks gate, and one that a capture has stopped runs in its other domains (R349, R353). -/
def FabDie.stage (f : FabDie) (now : Time) (i : Nat) : Nat :=
  if h : i < 16 then
    let x := f.regions[i]
    if x.state == 1 || x.state == 2 || x.state == 6 then 3
    else if x.state != 4 then 0
    else if x.load == .ungated then min 3 ((now - x.loadAt) / Time.fcc f.gap)
    else match f.release with | .none | .done => 0 | .outputs => 1 | .enables => 2 | .resets => 3
  else 0

/-- The pins of a region drive: its outputs are released, and it is neither fenced nor stopped by a capture (R336). -/
def FabDie.drives (f : FabDie) (now : Time) (i : Nat) : Bool :=
  decide (1 ≤ f.stage now i) && (if h : i < 16 then (f.regions[i]).state != 2 && (f.regions[i]).state != 6 else false)

/-- The fence of a region is asserted: from f0 until it lifts, and while the region is powered off (R346, R349, R350). -/
def FabDie.fenceUp (f : FabDie) (i : Fin 16) : Bool := (f.regions[i]).load != .none || (f.regions[i]).state == 5

/-- A border signal as the far side of the border sees it (R350). -/
def FabDie.borderSeen (f : FabDie) (i k : Fin 16) (j : Fin 64) : Bool :=
  let held := f.border.any (fun b => b.1 == (i, k, j) && b.2)
  let mode := bits (f.regions[i]).modes.toNat (2 * k.val + 1) (2 * k.val)
  if !f.fenceUp i || mode = 0 then held else mode == 2

/-- Region logic drives a border signal; while the fence is asserted it changes nothing (R350). -/
def FabDie.drive (f : FabDie) (q : BorderSignal) : FabDie :=
  if f.fenceUp q.region then f
  else
    let key := (q.region, q.group, q.signal)
    { f with border := (key, q.value) :: f.border.filter (fun b => b.1 != key) }

/-- One rising edge of a user clock domain (R329, R332 to R334, R353): every element of a region that runs steps together. -/
def FabDie.edge (f : FabDie) (domain : Fin 16) (now : Time) (fresh : Nat) (x : EdgeInputs) : FabDie :=
  let f := { f with
    clockEdges := vmod f.clockEdges domain (· + 1)
    capCount := if f.capArmed && domain.val == f.capDomain.toNat then f.capCount + 1 else f.capCount }
  let slices := x.slices.filter (fun q => f.stage now (q.slice / 128) == 3)
  let rams := (x.rams.filter (fun q => decide (2 ≤ f.stage now (ramRegion q.ram)))).map f.shaped
  let flops := x.flops.filter (fun q => f.stage now (q.flop / 153600) == 3)
  let g := slices.foldl (fun g q =>
    g.setSlice ((f.slice q.slice).edge (Config.sliceMode q.slice f.frames) (f.cascade (fresh + 2 * q.slice) q.slice) q)) f
  let g := (rams.filter (fun a => a.write.isSome)).foldl (FabDie.ramEdge f domain fresh rams) g
  let g := (rams.filter (fun a => a.write.isNone)).foldl (FabDie.ramEdge f domain fresh rams) g
  let g := flops.foldl (FabDie.flopEdge fresh) g
  let g := (x.border.filter (fun b => f.stage now b.region.val == 3)).foldl FabDie.drive g
  { g with pins := x.pins.foldl (fun ps p =>
      if f.drives now (pinRegion p.1) then p :: ps.filter (fun y => y.1 != p.1) else ps) g.pins }

end Sys2Proof.Machine
end

