-- ==== Sys2Proof/Machine/ImageOps.lean ====
section
/-!
DEFINITION. Personality images: header, records, the checks of R365, and what loading writes (R359 to R375).
-/
namespace Sys2Proof.Machine

/-- CFG_IDCODE (R360). -/
def cfgIdcode : Nat := 0x4B128C01

/-- The fields of an image header (R360). -/
structure ImgHeader where
  partialImg : Bool
  total : Nat
  body : Nat
  regions : BitVec 64
  basez : BitVec 64
  frameBytes : Nat
  keySlot : Nat
  sigKey : Nat
  iv : List Byte
  version : Word
  deriving DecidableEq, Repr

/-- Read an image header (R360). -/
def imgHeader (b : List Byte) : ImgHeader :=
  { partialImg := bit (field b 0x0C 4) 0, total := field b 0x10 8, body := field b 0x18 8
    regions := BitVec.ofNat 64 (field b 0x20 8), basez := BitVec.ofNat 64 (field b 0x28 8), frameBytes := field b 0x30 8
    keySlot := field b 0x38 1, sigKey := field b 0x39 1, iv := sliceBytes b 0x3C 12, version := BitVec.ofNat 32 (field b 0x48 4) }

/-- A code with the image offset of the field or record at fault; code 0 passes. -/
abbrev ImgFault := Code × Nat

/-- Checks 1 to 3 (R365): `area` is the longest image its flash area holds (R368). -/
def imgCheckForm (b : List Byte) (area : Nat) : ImgFault :=
  let h := imgHeader b
  let sig := sliceBytes b (0x98 + h.body) (h.total - (0x98 + h.body))
  let sigLen := field b (0x90 + h.body) 4
  if sliceBytes b 0 4 ≠ [0x59, 0x4B, 0x50, 0x49] then (0x0641, 0)
  else if field b 4 2 ≠ 2 then (0x0641, 4)
  else if field b 6 2 ≠ 0x80 then (0x0641, 6)
  else if 2 ≤ field b 0x0C 4 then (0x0641, 0x0C)
  else if field b 0x3A 2 ≠ 0 then (0x0641, 0x3A)
  else if !allZero (sliceBytes b 0x4C 52) then (0x0641, 0x4C)
  else if field b 8 4 ≠ cfgIdcode then (0x0642, 8)
  else if min 0x18000000 area < h.total ∨ h.total ≠ b.length then (0x0643, 0x10)
  else if h.body % 8 ≠ 0 then (0x0643, 0x18)
  else if h.total ≠ 0x98 + h.body + sigLen then (0x0643, 0x10)
  else if hssLength sig ≠ some sigLen then (0x0643, 0x90 + h.body)
  else (0, 0)

/-- The public key that a signer slot names (R364). -/
def State.signerKey (s : State) (sigKey : Nat) : Option (List Byte) :=
  if h : sigKey < 4 then (s.sec.installer[sigKey]).bind (fun k => if k.revoked then none else some k.key)
  else if sigKey = 0x0F then some (sliceBytes s.sec.running.image 0x18 60)
  else none

/-- Check 4 (R363, R365). -/
def State.imgCheckKeys (s : State) (b : List Byte) (golden : Bool) : ImgFault :=
  let h := imgHeader b
  if (s.sec.key h.keySlot).isNone then (0x0644, 0x38)
  else if (s.signerKey h.sigKey).isNone ∨ (golden ∧ h.sigKey ≠ 0x0F) then (0x0644, 0x39)
  else (0, 0)

/-- The digest that an image's signature covers (R364). -/
def imgDigest (b : List Byte) : List Byte := sha256 (b.take (0x90 + (imgHeader b).body))

/-- Checks 5 and 6: the signature and the GCM tag; the plain records when both pass (R363 to R366). -/
def State.imgAuthenticate (s : State) (b : List Byte) : ImgFault × List Byte :=
  let h := imgHeader b
  let sig := b.drop (0x98 + h.body)
  match s.signerKey h.sigKey, s.sec.key h.keySlot with
  | some k, some key =>
    if hssCheck k (imgDigest b) sig ≠ 0 then ((0x0645, 0x98 + h.body), [])
    else match gcmOpen key h.iv (b.take 0x80) (sliceBytes b 0x80 h.body) (sliceBytes b (0x80 + h.body) 16) with
      | some p => ((0, 0), p)
      | none => ((0x0646, 0x80 + h.body), [])
  | _, none => ((0x0644, 0x38), [])
  | none, _ => ((0x0644, 0x39), [])

/-- A configuration record (R361). -/
inductive CfgRec where
  | frames (addr : Nat) (data : List (List Byte))
  | rep (addrs : List Nat) (data : List Byte)
  | zero (addr n : Nat)
  | region (r clk modes : Nat)
  | clocks (die : Nat) (khz : List Nat)
  deriving DecidableEq, Repr

/-- The record that begins a byte list, by its type; none where it is malformed. `last` is the frame that a REPEAT repeats. -/
def cfgRec (b : List Byte) (last : Option (List Byte)) : Option CfgRec :=
  let len := field b 4 4
  let addr := field b 8 4
  let n := field b 12 4
  match field b 0 2 with
  | 0x0001 =>
    if len = 16 + 320 * n ∧ 1 ≤ n ∧ n ≤ 16384 ∧ addr % 16384 + n ≤ 16384 ∧ addr < 2 ^ 20 then
      some (.frames addr ((List.range n).map (fun i => sliceBytes b (16 + 320 * i) 320)))
    else none
  | 0x0002 =>
    let k := addr
    match last with
    | none => none
    | some d =>
      if len = (16 + 4 * k + 7) / 8 * 8 ∧ 1 ≤ k ∧ k ≤ 16384 ∧ n = 0 ∧ allZero (sliceBytes b (16 + 4 * k) (len - (16 + 4 * k))) then
        some (.rep ((List.range k).map (fun i => field b (16 + 4 * i) 4)) d)
      else none
  | 0x0003 => if len = 16 ∧ addr + n ≤ 2 ^ 20 then some (.zero addr n) else none
  | 0x0004 =>
    if len = 16 ∧ field b 8 1 < 64 ∧ field b 9 1 < 16 ∧ field b 10 2 = 0 then some (.region (field b 8 1) (field b 9 1) n) else none
  | 0x0005 =>
    if len = 80 ∧ field b 8 1 < 4 ∧ allZero (sliceBytes b 9 7) then
      some (.clocks (field b 8 1) ((List.range 16).map (fun i => field b (16 + 4 * i) 4)))
    else none
  | _ => none

/-- The frame that a REPEAT after this record repeats (R362). -/
def CfgRec.lastFrame (r : CfgRec) (last : Option (List Byte)) : Option (List Byte) :=
  match r with
  | .frames _ d => d.getLast?
  | .rep _ _ => last
  | _ => none

/-- Parse a record stream: its records with their offsets, and the offset where it fails (none when it ends well). -/
def cfgParse : Nat → Nat → List Byte → Option (List Byte) → List (Nat × CfgRec) × Option Nat
  | 0, off, _, _ => ([], some off)
  | fuel + 1, off, b, last =>
    if b.length < 8 then ([], some off)
    else
      let len := field b 4 4
      if field b 2 2 ≠ 0 ∨ len < 8 ∨ len % 8 ≠ 0 ∨ b.length < len then ([], some off)
      else if field b 0 2 = 0x00FF then
        (if len = 8 ∧ allZero (b.drop 8) then ([], none) else ([], some off))
      else match cfgRec b last with
        | none => ([], some off)
        | some r =>
          let (rs, e) := cfgParse fuel (off + len) (b.drop len) (r.lastFrame last)
          ((off, r) :: rs, e)

/-- The records of a decrypted body. -/
def cfgRecords (plain : List Byte) : List (Nat × CfgRec) × Option Nat := cfgParse plain.length 0 plain none

/-- Ranges of frames that a record names. -/
def CfgRec.ranges : CfgRec → List (Nat × Nat)
  | .frames a d => [(a, d.length)]
  | .rep as _ => as.map (fun a => (a, 1))
  | .zero a n => [(a, n)]
  | _ => []

/-- Frames that a record writes. -/
def CfgRec.written : CfgRec → List (Nat × List Byte)
  | .frames a d => d.zipIdx.map (fun p => (a + p.2, p.1))
  | .rep as d => as.map (fun a => (a, d))
  | _ => []

/-- A range of frames lies in regions of a mask. -/
def rangeIn (m : BitVec 64) (r : Nat × Nat) : Bool :=
  r.2 = 0 || (decide (r.1 + r.2 ≤ 2 ^ 20) &&
    (List.range ((r.1 + r.2 - 1) / 16384 - r.1 / 16384 + 1)).all (fun i => m.getLsbD (r.1 / 16384 + i)))

/-- Two ranges meet. -/
def rangesMeet (a b : Nat × Nat) : Bool := decide (a.1 < b.1 + b.2) && decide (b.1 < a.1 + a.2)

/-- The first record that names a frame twice or outside the mask, and the ranges seen (R362). -/
def badFrame (m : BitVec 64) : List (Nat × CfgRec) → List (Nat × Nat) → Option Nat × List (Nat × Nat)
  | [], seen => (none, seen)
  | (o, r) :: rs, seen =>
    let step := r.ranges.foldl (fun (acc : Bool × List (Nat × Nat)) x =>
      (acc.1 && rangeIn m x && !(acc.2.any (rangesMeet x)), x :: acc.2)) (true, seen)
    if step.1 then badFrame m rs step.2 else (some o, seen)

/-- Regions of a mask. -/
def regionsOf (m : BitVec 64) : List Region := (List.finRange 64).filter (fun r => m.getLsbD r.val)

/-- Check 7: the record stream meets R362. `free` stands for an offset that no single record decides. -/
def imgCheckRecords (b plain : List Byte) (free : Nat) : ImgFault :=
  let h := imgHeader b
  let (rs, e) := cfgRecords plain
  let recs := rs.map (·.2)
  let regionRecs := recs.filterMap (fun r => match r with | .region r _ _ => some r | _ => none)
  let clockRecs := recs.filterMap (fun r => match r with | .clocks d _ => some d | _ => none)
  let total := (recs.map (fun r => (r.ranges.map (·.2)).sum)).sum
  let wrote := (recs.map (fun r => r.written.length)).sum
  match e, (badFrame h.regions rs []).1 with
  | some o, _ => (0x0647, 0x80 + o)
  | none, some o => (0x0647, 0x80 + o)
  | none, none =>
    if h.frameBytes ≠ 320 * wrote then (0x0647, 0x30)
    else if total ≠ 16384 * ones64 h.regions then (0x0647, free)
    else if !(regionsOf h.regions).all (fun r => (regionRecs.filter (· == r.val)).length == 1) ||
        regionRecs.any (fun r => !h.regions.getLsbD r) then (0x0647, free)
    else if h.partialImg ∧ !clockRecs.isEmpty then (0x0647, free)
    else if !h.partialImg ∧ !((List.range 4).all (fun d => (clockRecs.filter (· == d)).length == 1)) then (0x0647, free)
    else if h.partialImg ∧ h.regions = 0 then (0x0647, 0x20)
    else if !h.partialImg ∧ h.regions ≠ BitVec.allOnes 64 then (0x0647, 0x20)
    else (0, 0)
where
  /-- the number of regions in a mask -/
  ones64 (m : BitVec 64) : Nat := (regionsOf m).length

/-- A border mode word holds no reserved code (R350). -/
def borderOk (modes : Nat) : Bool := (List.range 16).all (fun k => modes / 4 ^ k % 4 != 3)

/-- Check 8: the design rules. What the frames' own bits say of crossings, cascades, ports and pins comes with the event (R365, R519). -/
def imgCheckDesign (b plain : List Byte) (vccioOk designOk : Bool) (free : Nat) : ImgFault :=
  let h := imgHeader b
  let rs := (cfgRecords plain).1
  let bad := rs.find? (fun r => match r.2 with
    | .region _ _ modes => !borderOk modes
    | .clocks _ khz => khz.any (fun f => decide (f < 5000) || decide (750000 < f))
    | _ => false)
  match bad with
  | some (o, _) => (0x0648, 0x80 + o)
  | none =>
    if h.basez &&& ~~~h.regions ≠ 0 then (0x0648, 0x28)
    else if !vccioOk || !designOk then (0x0648, free)
    else (0, 0)

/-- The fabric regions that a pattern names: by an input region in an endpoint's window, or by a ring that a fabric port posts to
(R343, R424). -/
def State.patternRegions (s : State) (im : Image) : List Region :=
  let eps := (im.regions 9).filterMap (fun r =>
    if 0x280000000000 ≤ r.base ∧ r.base < 0x284000000000 then (s.fabricAt r.base).map (fun p => regionOf p.1 p.2) else none)
  let ports := (List.finRange 4).flatMap (fun (d : Die) =>
    (im.wiring ⟨4 * d.val, by omega⟩).filterMap (fun w =>
      if w.2.producer = 4 then some (regionOf d ⟨w.1 % 2, by omega⟩) else none))
  eps ++ ports

/-- Patterns that accepted or running jobs name, as the device holds them (R433, R434). -/
def State.jobPatterns (s : State) (all : Bool) : List Image :=
  let held := s.dist.active.toList ++ (s.dist.staged.map (·.image)).toList
  held.filter (fun im : Image => s.dist.jobs.any (fun j => j.pattern == im.id && (all || j.state == .running)))

/-- A job's pattern names a region. -/
def State.regionInUse (s : State) (all : Bool) (m : BitVec 64) : Bool :=
  (s.jobPatterns all).any (fun im => (s.patternRegions im).any (fun r => m.getLsbD r.val))

/-- A capture under way covers a region: its primary domain, or a domain its frames let it use (R348, R353). -/
def State.captureCovers (s : State) (r : Region) : Bool :=
  let f := s.fabric[regionDie r]
  (f.capArmed || f.capRead) &&
    ((s.region r).clkSel == f.capDomain || (Config.regionDomains (regionIdx r).val f.frames).getLsbD f.capDomain.toNat)

/-- Check 9: a partial image needs a configured fabric, regions that no running job names, and no capture over them (R348, R365). -/
def State.imgCheckPartial (s : State) (b : List Byte) : ImgFault :=
  let h := imgHeader b
  if !h.partialImg then (0, 0)
  else if (regionsOf h.regions).any (fun r => !(s.fabric[regionDie r]).configured) then (0x064A, 0x20)
  else if s.regionInUse false h.regions then (0x0604, 0x20)
  else if (regionsOf h.regions).any s.captureCovers then (0x0605, 0x20)
  else (0, 0)

/-- What the records of an image say of one region: primary domain, border modes, frames. -/
def regionRec (plain : List Byte) (r : Region) : Nat × Nat × List (Nat × List Byte) :=
  let recs := (cfgRecords plain).1.map (·.2)
  let reg := (recs.findSome? (fun x => match x with
    | .region n c m => if n = r.val then some (c, m) else none
    | _ => none)).getD (0, 0)
  (reg.1, reg.2, (recs.flatMap CfgRec.written).filter (fun f => frameOf r f.1))

/-- Write a region's frames and its REGION record: contents, primary domain, border modes and Basez mode (R349, R370, R375). -/
def State.writeRegion (s : State) (b plain : List Byte) (r : Region) : State :=
  let (clk, modes, frames) := regionRec plain r
  let basez := (imgHeader b).basez.getLsbD r.val
  let i := regionIdx r
  let s := s.modFab (regionDie r) (fun f =>
    let f := f.clearRegion r
    { f with frames := f.frames ++ frames })
  let s := s.modRegion r (fun x => { x with
    clkSel := BitVec.ofNat 4 clk, modes := BitVec.ofNat 32 modes, basez := basez, power := true, state := 3, fn := { x.fn with st := .on } })
  let s := s.modDie (regionDie r) (fun x => { x with
    basez := if basez then x.basez ||| (1#16 <<< i.val) else x.basez &&& ~~~(1#16 <<< i.val) })
  { s with cfg := { s.cfg with progress := s.cfg.progress + BitVec.ofNat 32 frames.length } }

/-- Record a configuration code (R378): the first one stays. -/
def CfgState.note (c : CfgState) (code : Code) : CfgState :=
  { c with err := true, code := if c.code = 0 then code else c.code }

/-- Start staging an image (R365, R367). -/
def State.stageImage (s : State) (img : StagedImage) : State :=
  { s with cfg := { s.cfg with staged := some { img with prior := s.cfg.state }, state := 1 } }

/-- Error and hold (R369): DONE stays low and the fabric stays empty. -/
def State.errorHold (s : State) : State := { s with cfg := { s.cfg with staged := none, state := 7, doneHeld := true } }

/-- The audit record of a FABRIC_LOAD (R454). -/
def State.logLoad (s : State) (img : StagedImage) (code : Code) : State :=
  match img.req with
  | some q =>
    if img.logged then s
    else s.audit { event := 0x0011, status := code, role := q.role, transport := q.transport.val, slot := q.slot
                   subject := imgDigest img.bytes }
  | none => s

/-- Log and answer a FABRIC_LOAD at its outcome (R434, R454). -/
def State.answerLoad (s : State) (img : StagedImage) (code : Code) (off : Nat) : State :=
  let s := s.logLoad img code
  match img.req with
  | none => s
  | some q => s.respond q.transport q.crossing q.header code 0 (leBytes 4 off ++ leBytes 4 0)

/-- Start staging the golden image (R369). -/
def State.stageGolden (s : State) : State := s.stageImage { source := .golden, bytes := [], pass := .staging }

/-- An image fails (R365, R369): a load leaves the fabric as it was and answers; a start-up image falls back or holds. -/
def State.imageFails (s : State) (img : StagedImage) (f : ImgFault) : State :=
  let s := { s with cfg := { s.cfg.note f.1 with failOffset := BitVec.ofNat 32 f.2 } }
  match img.source with
  | .load _ =>
    ({ s with cfg := { s.cfg with staged := none, state := img.prior } }).answerLoad img f.1 f.2
  | .primary => if s.cfg.failMode then s.stageGolden else s.errorHold
  | .golden =>
    let s := { s with cfg := s.cfg.note 0x064B }
    (s.report 0x064B).errorHold

/-- The longest image of a source's flash area (R368). -/
def State.imageArea (s : State) : ImageSource → Nat
  | .primary => 0x10000000 - s.cfg.primary.toNat
  | .golden => 0x10000000
  | .load _ => 0x18000000

/-- Where a source's image lies in flash. -/
def State.imageFlash (s : State) : ImageSource → Nat
  | .golden => 0x10000000
  | _ => s.cfg.primary.toNat

/-- The bytes of flash: an unlisted byte is erased (R452). -/
def State.flashRead (s : State) (a n : Nat) : List Byte := Cells.read 0xFF s.flash a n
/-- Write flash. -/
def State.flashWrite (s : State) (a : Nat) (bs : List Byte) : State := { s with flash := Cells.write 0xFF s.flash a bs }

/-- The start-up action of CFG_BOOT (R367, R371, R373). -/
def State.startUp (s : State) : State :=
  match s.cfg.boot.toNat with
  | 1 => s.stageImage { source := .primary, bytes := [], pass := .staging }
  | 2 => s
  | 0 => { s with cfg := { s.cfg with doneHeld := false } }
  | _ => { s with cfg := { s.cfg.note 0x064E with doneHeld := false } }

end Sys2Proof.Machine
end

