-- ==== Sys2Proof/Machine/Memory.lean ====
section
/-!
DEFINITION. The memory tiers' commands (chapter 09).
-/
namespace Sys2Proof.Machine

/-- Where the memory address of a packet lies at a controller. -/
def State.ctlPlace (s : State) (c : Ctl) (a : Nat) : Option (Nat × Fin 4 × Nat) :=
  match s.decodeAddr a with
  | .memory c' pc r loc => if c' = c then some (pc, r, loc) else none
  | _ => none

/-- The queue number of a request: its pseudo-channel, or its DDR5 subchannel, a free value of the address (R250, R253). -/
def queueOf (t : Tier) (pc a : Nat) : Nat :=
  match t with
  | .hbm => pc
  | .ddr => if Config.ddrSubchannel a then 1 else 0

/-- The controller whose channel serves a rank (R266). -/
def State.serving (s : State) (c : Ctl) (r : Fin 4) : Ctl := ⟨c.tier, (s.server c.tier ⟨c.n, r⟩).n⟩

/-- MEM_READ (R254, R258, R266): a read request enters the controller's queue, with the bytes that the writes accepted before it left. -/
def execMemRead (src dst : Endpoint) (vc : BitVec 2) (s : State) : Out :=
  match ctlAt dst with
  | none => .next s
  | some c =>
    match s.arrive .readReq src dst vc with
    | none => .next s
    | some (p, s) =>
      match s.ctlPlace c p.addr with
      | none => .next (s.send (p.answer .readResp 0x0981 [] false))
      | some (pc, r, _) =>
        if s.placeStatus c pc r ≠ 0 then .next (s.send (p.answer .readResp (s.placeStatus c pc r) [] false))
        else
          let s := s.wake (s.serving c r) pc
          let q : MemReq := { pkt := p, r := r, pc := queueOf c.tier pc p.addr, arrived := s.now, data := s.memRead p.addr p.bytes }
          .next (s.modCtl c (fun x => { x with queue := x.queue ++ [q] }))

/-- Accept a write that waits on nothing: a locked rank refuses it; otherwise it is performed and acknowledged (R254,
R260, R267). -/
def State.acceptWrite (s : State) (c : Ctl) (q : MemReq) : State :=
  let x := s.server c.tier ⟨c.n, q.r⟩
  let s := s.cmdDone ⟨c.tier, x.n⟩ q.pc
  if s.rankState c.tier x = 4 then s.send (q.pkt.answer .writeAck 0x0404 [] false)
  else
    let (s, status) := s.performWrite q.pkt.addr q.pkt.data q.pkt.poison
    s.ackWrite c q.pkt status

/-- MEM_WRITE (R254, R258, R265, R266): a write enters the queue; one to a line being copied waits for the copy, and one to a line that
an earlier write of the queue touches waits for that. -/
def execMemWrite (src dst : Endpoint) (vc : BitVec 2) (s : State) : Out :=
  match ctlAt dst with
  | none => .next s
  | some c =>
    match s.arrive .write src dst vc with
    | none => .next s
    | some (p, s) =>
      match s.ctlPlace c p.addr with
      | none => .next (s.send (p.answer .writeAck 0x0981 [] false))
      | some (pc, r, _) =>
        if s.placeStatus c pc r ≠ 0 then .next (s.send (p.answer .writeAck (s.placeStatus c pc r) [] false))
        else
          let s := s.wake (s.serving c r) pc
          let q : MemReq := { pkt := p, r := r, pc := queueOf c.tier pc p.addr, arrived := s.now }
          if (s.waitsCopy q).isSome || behindWrite (s.ctl c).queue q then .next (s.modCtl c (fun x => { x with queue := x.queue ++ [q] }))
          else .next (s.acceptWrite c q)

/-- The channel that a request needs is awake: an exit from self-refresh that it waited for has ended. -/
def State.awake (s : State) (c : Ctl) (q : MemReq) : Bool :=
  match s.ctlPlace c q.pkt.addr with
  | some (pc, r, _) => decide ((s.ctl (s.serving c r)).wakeAt[srIndex c.tier pc] ≤ s.now)
  | none => true

/-- What a line of a read met (R259, R260): its answer, with the state after it. A poisoned line answers 0x0402; an uncorrectable error
poisons the line, counts and retires the rank that served it. -/
def State.readLine (s : State) (t : Tier) (x : RankId) (pc line : Nat) (found : Ecc) : State × Code :=
  if s.poison.contains line then (s, 0x0402)
  else match found with
    | .clean => (s, 0)
    | .corrected => (s.countCorrected ⟨t, x.n⟩, 0)
    | .uncorrectable => ((s.poisonAt line).uncorrectable t x pc (256 * line) 0, 0x0401)

/-- MEM_READ_COMPLETE (R254, R259, R260): read i of the queue returns its data with the answer of its first line that has one; `found` is
what the code found in each line, clean past its end. A read behind a write to one of its lines, or of a line being copied, waits. -/
def execMemReadComplete (c : Ctl) (i : Nat) (found : List Ecc) (s : State) : Out := s.clocked <|
  match (s.ctl c).queue[i]? with
  | none => .next s
  | some q =>
    if q.pkt.kind != .readReq || (s.waitsCopy q).isSome || behindWrite ((s.ctl c).queue.take i) q || !s.awake c q then .next s
    else
      let s := s.modCtl c (fun x => { x with queue := x.queue.eraseIdx i })
      let x := s.server c.tier ⟨c.n, q.r⟩
      let s := s.cmdDone ⟨c.tier, x.n⟩ q.pc
      let (s, code) := ((linesOf q.pkt.addr q.pkt.bytes).zipIdx).foldl (fun (acc : State × Code) l =>
        let (t, code) := acc.1.readLine c.tier x q.pc l.1 (found[l.2]?.getD .clean)
        (t, if acc.2 = 0 then code else acc.2)) (s, 0)
      .next (s.send (q.pkt.answer .readResp code q.data (code != 0)))

/-- RETIREMENT_REQUEST (R263). -/
def execRetirementRequest (c : Ctl) (rank : Fin 4) (s : State) : Out := .next (s.retire c.tier ⟨c.n, rank⟩)

/-- COMMAND_PARITY_ERROR (R263): the command is retried; after two retries 0x0407 is recorded and the rank retires. A
command of the channel that succeeds starts the count anew (log 133). -/
def execCommandParityError (c : Ctl) (rank : Fin 4) (pc : Fin 64) (s : State) : Out := s.clocked <|
  let tries := match (s.ctl c).retry with
    | some t => if t.r = rank ∧ t.pc = pc.val then t.tries else 0
    | none => 0
  if tries < 2 then
    .next (s.modCtl c (fun x => { x with cmdRetry := satAdd 32 x.cmdRetry 1
                                         retry := some { r := rank, pc := pc.val, tries := tries + 1 } }))
  else
    let s := s.modCtl c (fun x => ({ x with cmdErr := true, retry := none }.note 0x0407).latch c.tier 0 pc.val rank 1)
    .next ((s.report 0x0407).retire c.tier ⟨c.n, rank⟩)

/-- REFRESH (R244, R258): the controller refreshes a bank of a channel that is awake. -/
def execRefresh (c : Ctl) (pc : Fin 64) (bank : Nat) (s : State) : Out := s.clocked <|
  if (s.ctl c).inSr.getLsbD pc.val then .next s
  else .next ((s.cmdDone c pc.val).modCtl c (fun x => { x with refreshes := vmod x.refreshes pc (· + 1), refBank := vmod x.refBank pc (fun _ => bank) }))

/-- Command clock period of a controller, in units of 1/17 ns × 1000 (R244, R245, R258). -/
def State.clockPeriod (s : State) (c : Ctl) : Nat :=
  match c.tier with
  | .hbm => 6800
  | .ddr => match (s.ddr[c.n]).speed.toNat with
    | 3 => 3864
    | 2 => 5313
    | 1 => 6071
    | _ => 7083

/-- A channel is idle-eligible at this moment: its section is not always awake and no window is open (R256). -/
def State.idleEligible (s : State) (c : Ctl) (pc : Nat) : Bool :=
  let scope := match c.tier with | .hbm => 64 * c.n.val + pc | .ddr => 768 + c.n.val
  match s.dist.active with
  | none => false
  | some im =>
    match im.find 6 scope with
    | none => false
    | some b =>
      let w := wakeOf b
      let t := s.now - s.tick.lastEdge
      !w.always && !(w.windows.any (fun x => decide (Time.ns x.1 ≤ t) && decide (t < Time.ns x.2)))

/-- SELF_REFRESH_ENTRY (R258). -/
def execSelfRefreshEntry (c : Ctl) (pc : Fin 64) (s : State) : Out := s.clocked <|
  let x := s.ctl c
  let bit := srIndex c.tier pc.val
  let idle := s.now - x.lastCmd[bit]
  if s.idleEligible c pc.val && x.srEn && decide (x.idleClocks.toNat * s.clockPeriod c ≤ 1000 * idle) then
    .next (s.modCtl c (fun x => { x with inSr := x.inSr ||| (1#64 <<< bit.val) }))
  else .next s

/-- SELF_REFRESH_EXIT (R258): the controller wakes a channel for a window that opens. -/
def execSelfRefreshExit (c : Ctl) (pc : Fin 64) (s : State) : Out := s.clocked <|
  let bit := srIndex c.tier pc.val
  if (s.ctl c).inSr.getLsbD bit.val then
    .next (s.modCtl c (fun x => { x with inSr := x.inSr &&& ~~~(1#64 <<< bit.val)
                                         wakeAt := vmod x.wakeAt bit (fun _ => s.now + exitTime c.tier)
                                         lastCmd := vmod x.lastCmd bit (fun _ => s.now) }))
  else .next s

/-- Ranks that are scrubbed: in service, spare or target (R262). -/
def scrubbed (state : Nat) : Bool := state == 0 || state == 1 || state == 5

/-- The last line of the last rank that a controller scrubs (R262). -/
def State.lastScrubbed (s : State) (c : Ctl) (r : Fin 4) (pc line : Nat) : Bool :=
  let later := (List.finRange 4).any (fun x => decide (r < x) && scrubbed (s.rankState c.tier ⟨c.n, x⟩))
  !later && (match c.tier with | .hbm => pc == 63 | .ddr => true) && decide (s.rankLines c.tier c.n ≤ line + 1)

/-- Serve the writes of a queue that waited, in the order they arrived (R254, R265, R268); a read behind one returns what it wrote. `kept`
is what stays of the queue so far, `done` what was served. -/
def State.serveQueue (s : State) (c : Ctl) (kept done : List MemReq) : List MemReq → State
  | [] => s.modCtl c (fun x => { x with queue := kept })
  | q :: rest =>
    if q.pkt.kind == .write && (s.waitsCopy q).isNone && !behindWrite kept q then (s.acceptWrite c q).serveQueue c kept (q :: done) rest
    else
      let q := if q.pkt.kind == .readReq && done.any q.meets then { q with data := s.memRead q.pkt.addr q.pkt.bytes } else q
      s.serveQueue c (kept ++ [q]) done rest

/-- Serve the writes that waited at every controller of a tier. -/
def State.serveWaiting (s : State) (t : Tier) : State :=
  (List.finRange 12).foldl (fun s n => s.serveQueue ⟨t, n⟩ [] [] (s.ctl ⟨t, n⟩).queue) s

/-- MEM_MIGRATING (R265): access i has waited more than 1,024 sc on a line copy: answered 0x0405, not performed, and what waited behind
it goes on. -/
def execMemMigrating (c : Ctl) (i : Nat) (s : State) : Out := s.clocked <|
  match (s.ctl c).queue[i]? with
  | none => .next s
  | some q =>
    match s.waitsCopy q with
    | none => .next s
    | some t =>
      if s.now ≤ t + Time.sc 1024 then .next s
      else
        let s := s.modCtl c (fun x => { x with queue := x.queue.eraseIdx i })
        let s := s.send (q.pkt.answer (if q.pkt.kind == .readReq then .readResp else .writeAck) 0x0405 [] false)
        .next (s.serveQueue c [] [] (s.ctl c).queue)

/-- A migration's state at its start, or at a restart: every channel copies its first line (R264, R268). -/
def State.startCopy (s : State) (t : Tier) (src tgt : RankId) : State :=
  let used := fun (i : Fin 64) => match t with | .hbm => true | .ddr => i == 0
  let s := s.modCtl ⟨t, src.n⟩ (fun c => { c with migLines := 0 })
  s.modTier t (fun ts => { ts with
    mig := some { src := src, tgt := tgt, lines := s.rankLines t src.n, since := Vector.ofFn (fun i => if used i then some s.now else none) } })

/-- MIGRATION_START (R263): the first waiting rank that has a spare becomes retiring and its spare the target. -/
def execMigrationStart (t : Tier) (s : State) : Out := s.clocked <|
  let ts := s.tier t
  if ts.mig.isSome then .next s
  else match ts.waiting.find? (fun w => w.2.isSome) with
    | some (x, some y) =>
      let s := (s.setRank t x 2).setRank t y 5
      .next ((s.modTier t (fun ts => { ts with waiting := ts.waiting.filter (fun w => w.1 != x) })).startCopy t x y)
    | _ => .next s

/-- A pool change takes effect once no migration of the tier runs (R248): a new entry in service that no region covers becomes a spare; an
entry that leaves is out of service, but for a target and for a spare reserved for a retirement, which stay. -/
def State.applyPool (s : State) (t : Tier) : State :=
  if !(s.tier t).poolPending || (s.tier t).mig.isSome then s
  else
    let ts := s.tier t
    let mapped := fun (x : RankId) => s.dist.map.any (fun g => g.tier == t && g.members.getLsbD x.n.val && g.ranks.getLsbD x.r.val)
    let leaving := ts.pool.filter (fun x => !ts.poolNext.contains x)
    let stays := fun (x : RankId) => s.rankState t x == 5 || ts.waiting.any (fun w => w.2 == some x)
    let s := ts.poolNext.foldl (fun s x => if s.rankState t x == 0 && !mapped x then s.setRank t x 1 else s) s
    let s := leaving.foldl (fun s x => if s.rankState t x == 1 && !stays x then s.setRank t x 6 else s) s
    (s.modTier t (fun ts => { ts with pool := ts.poolNext ++ leaving.filter stays, poolPending := false })).serveLocked t

/-- The target of a migration fails: it becomes not present, and the copy starts again into the next spare, or the
source locks, which ends the migration (R248, R263, R268). -/
def State.targetFailed (s : State) (t : Tier) (m : Migration) : State :=
  let s := s.setRank t m.tgt 6
  let s := (s.modCtl ⟨t, m.tgt.n⟩ (·.note 0x0403)).report 0x0403
  match s.pickSpare t m.src with
  | some y => (s.setRank t y 5).startCopy t m.src y
  | none =>
    let s := s.modTier t (fun ts => { ts with mig := none, waiting := ts.waiting ++ [(m.src, none)] })
    ((s.lockRank t m.src).applyPool t).serveWaiting t

/-- A spare with an uncorrectable error is not present any more; a rank that it was reserved for takes another, or locks (R263, R268;
DEDUCED, log 134). -/
def State.spareFailed (s : State) (t : Tier) (x : RankId) : State :=
  let s := ((s.setRank t x 6).modCtl ⟨t, x.n⟩ (·.note 0x0403)).report 0x0403
  match (s.tier t).waiting.find? (fun w => w.2 == some x) with
  | none => s
  | some w =>
    let give := fun (y : Option RankId) (s : State) =>
      s.modTier t (fun ts => { ts with waiting := ts.waiting.map (fun v => if v.1 == w.1 then (v.1, y) else v) })
    match s.pickSpare t w.1 with
    | some y => give (some y) s
    | none => (give none s).lockRank t w.1

/-- A free address: what ERR_ADDR holds where an error has no device address (log 134). -/
def freeAddr (i : Nat) : Nat := (Config.freeWord i).toNat % 2 ^ 16 * 2 ^ 32 + (Config.freeWord (i + 1)).toNat

/-- SCRUB (R258, R259, R262): the controller scrubs a line of one of its ranks in service, spare or target, waking the channel. -/
def execScrub (c : Ctl) (rank : Fin 4) (pc : Fin 64) (line : Nat) (ecc : Ecc) (s : State) : Out := s.clocked <|
  let x : RankId := ⟨c.n, rank⟩
  let state := s.rankState c.tier x
  if !scrubbed state || decide (s.rankLines c.tier c.n ≤ line) || srIndex c.tier pc.val != pc then .next s
  else
    let a := s.physAddr c.tier x pc.val (256 * line)
    let s := (s.wake c pc.val).cmdDone c pc.val
    let s := match ecc with
      | .clean => s
      | .corrected => s.countCorrected c
      | .uncorrectable =>
        match state, a, (s.tier c.tier).mig with
        | 5, _, some m =>
          let a := s.physAddr c.tier m.src pc.val (256 * line)
          ({ s.countUncorr c rank pc.val (a.getD (freeAddr s.fresh)) 2 with fresh := s.fresh + 2 }).targetFailed c.tier m
        | 0, some a, _ => (s.poisonAt (a / 256)).uncorrectable c.tier x pc.val a 2
        | 0, none, _ => { s.uncorrectable c.tier x pc.val (freeAddr s.fresh) 2 with fresh := s.fresh + 2 }
        | _, _, _ => ({ s.countUncorr c rank pc.val (freeAddr s.fresh) 2 with fresh := s.fresh + 2 }).spareFailed c.tier x
    .next (if s.lastScrubbed c rank pc.val line then s.modCtl c (fun x => { x with scrubs := satAdd 16 x.scrubs 1 }) else s)

/-- LINE_COPY (R258, R259, R264, R265, R268): the line under copy of a pseudo-channel or of the channel reaches the target; a line read
uncorrectable, or already poisoned, is written poisoned. Both channels wake. -/
def execLineCopy (t : Tier) (pc : Fin 64) (source target : Ecc) (s : State) : Out := s.clocked <|
  match (s.tier t).mig with
  | none => .next s
  | some m =>
    if decide (m.lines ≤ m.line[pc]) || srIndex t pc.val != pc then .next s
    else
      let c : Ctl := ⟨t, m.src.n⟩
      let g : Ctl := ⟨t, m.tgt.n⟩
      let s := (((s.wake c pc.val).wake g pc.val).cmdDone c pc.val).cmdDone g pc.val
      let a := s.physAddr t m.src pc.val (256 * m.line[pc])
      let at_ := a.getD (freeAddr s.fresh)
      let wasPoison := a.any (fun a => s.poison.contains (a / 256))
      let s := match source with
        | .clean => s
        | .corrected => s.countCorrected c
        | .uncorrectable => (match a with | some a => s.poisonAt (a / 256) | none => s).countUncorr c m.src.r pc.val at_ 3
      let bad := wasPoison || source == .uncorrectable
      let s := if bad then s.modCtl c (fun x => { x with migPoisoned := satAdd 32 x.migPoisoned 1 }) else s
      let s := match target with
        | .clean => s
        | .corrected => s.countCorrected g
        | .uncorrectable => s.countUncorr g m.tgt.r pc.val at_ 3
      let s := if a.isNone then { s with fresh := s.fresh + 2 } else s
      if target == .uncorrectable then .next (s.targetFailed t m)
      else
        let next := m.line[pc] + 1
        let s := s.modTier t (fun ts => { ts with mig := some { m with
          line := vmod m.line pc (fun _ => next), since := vmod m.since pc (fun _ => if next < m.lines then some s.now else none) } })
        let s := s.modCtl c (fun x => { x with migLines := satAdd 32 x.migLines 1 })
        .next (s.serveWaiting t)

/-- MIGRATION_COMPLETE (R264, R266): the source is retired and forwards every access to the target, which takes its
place; waiting pool changes apply. -/
def execMigrationComplete (t : Tier) (s : State) : Out := s.clocked <|
  match (s.tier t).mig with
  | none => .next s
  | some m =>
    if (List.finRange 64).any (fun i => srIndex t i.val == i && decide (m.line[i] < m.lines)) then .next s
    else
      let s := (s.setRank t m.src 3).setRank t m.tgt 0
      let byte : Word := BitVec.ofNat 32 (packFields [(4, m.tgt.n.val), (2, m.tgt.r.val), (1, 0), (1, 1)])
      let s := s.modCtl ⟨t, m.src.n⟩ (fun x => { x with
        remap := (x.remap &&& ~~~(0xFF#32 <<< (8 * m.src.r.val))) ||| (byte <<< (8 * m.src.r.val)) })
      let s := s.modTier t (fun ts => { ts with mig := none })
      .next (s.applyPool t)

end Sys2Proof.Machine
end

