-- ==== Sys2Proof/Machine/Boot.lean ====
section
/-!
DEFINITION. The full device reset: what it clears and keeps, memory training, the interleave map, and the boot that ends it
(R245 to R252, R266, R321, R476 to R481, R530).
-/
namespace Sys2Proof.Machine

/-- The retirement journal as a full device reset finds it: retired and locked ranks, and a migration under way, which counts as
complete (R266). -/
def State.retirements (s : State) (t : Tier) : List (RankId × Option RankId) :=
  let old := (s.tier t).record
  let now := allRanks.filterMap (fun x =>
    let c := s.ctl ⟨t, x.n⟩
    match (s.rankState t x) with
    | 2 => ((s.tier t).mig.bind (fun m => if m.src == x then some (x, some m.tgt) else none))
    | 3 => some (x, remapTarget (bits (c.remap.toNat) (8 * x.r.val + 5) (8 * x.r.val)))
    | 4 => some (x, none)
    | _ => none)
  now ++ old.filter (fun e => !(now.any (fun n => n.1 == e.1)) && !(s.ctl ⟨t, e.1.n⟩).trained)

/-- The fitted modules of a channel as training finds them. -/
def fitOf (f : Training) (n : Fin 12) : DdrFit :=
  (f.ddr[n.val]?).getD
    { modules := 0, mrdimm := false, mixed := false, badType := false, differ := false, ranks := 0, rankGib := 0, speed := 0
      trained := false }

/-- The modules of the device break a rule that puts every DDR5 channel out of service (R246). -/
def populationBad (f : Training) : Bool :=
  let fits := ((List.finRange 12).map (fitOf f)).filter (fun x => x.modules.val != 0)
  fits.any (fun x => x.badType || x.mixed) || (fits.any (·.mrdimm) && fits.any (fun x => !x.mrdimm))

/-- A population that the table of R245 holds: kind of module, ranks of each, size of a rank, rated speed. -/
def populationOk (x : DdrFit) : Bool :=
  let m := x.modules.val
  if x.mrdimm then
    m == 1 && x.speed == 3 &&
      ((x.ranks.val == 2 && decide (x.rankGib.toNat ≤ 128)) || (x.ranks.val == 4 && decide (x.rankGib.toNat ≤ 64)))
  else (x.ranks.val == m || x.ranks.val == 2 * m) && decide (x.rankGib.toNat ≤ 128) && x.speed == 2

/-- The modules of a populated channel break a rule that puts the channel alone out of service: they differ (R246), or the table of R245
holds no such population (DEDUCED, log 132). -/
def channelBad (f : Training) (n : Fin 12) : Bool :=
  (fitOf f n).modules.val != 0 && ((fitOf f n).differ || !populationOk (fitOf f n))

/-- A DDR5 channel is fit to train (R245, R246). -/
def channelFit (f : Training) (n : Fin 12) : Bool :=
  !populationBad f && (fitOf f n).modules.val != 0 && !channelBad f n

/-- The codes of the training report (R246). -/
def trainingCodes (f : Training) : List Code :=
  (if populationBad f then [0x0421] else []) ++
  ((List.finRange 12).filter (fun n => !populationBad f && channelBad f n)).map (fun _ => 0x0421) ++
  ((List.finRange 12).filter (fun n => !f.stackSet.getLsbD n.val)).map (fun _ => 0x0422) ++
  ((List.finRange 12).filter (fun n => channelFit f n && !(fitOf f n).trained)).map (fun _ => 0x0422)

/-- A rank trained at this reset (R246). -/
def rankTrained (f : Training) (t : Tier) (x : RankId) : Bool :=
  match t with
  | .hbm => f.stackSet.getLsbD x.n.val
  | .ddr => channelFit f x.n && (fitOf f x.n).trained && decide (x.r.val < (fitOf f x.n).ranks.val)

/-- Size of a rank in GiB (R247). -/
def rankGibOf (f : Training) (t : Tier) (x : RankId) : Nat :=
  match t with
  | .hbm => 16
  | .ddr => (fitOf f x.n).rankGib.toNat

/-- The default spare pool (R248). -/
def defaultPool (f : Training) : Tier → List RankId
  | .hbm => [⟨0, 3⟩, ⟨6, 3⟩]
  | .ddr =>
    match (List.finRange 12).reverse.find? (fun n => (fitOf f n).modules.val != 0 && (fitOf f n).ranks.val != 0) with
    | some n => [⟨n, ⟨((fitOf f n).ranks.val - 1) % 4, by omega⟩⟩]
    | none => []

/-- Insert a size into a rising list. -/
def insertSize (x : Nat) : List Nat → List Nat
  | [] => [x]
  | y :: ys => if x < y then x :: y :: ys else if x = y then y :: ys else y :: insertSize x ys

/-- Groups of rank indices with the same member set and rank size, in the order of R252. -/
def rankGroups (size : RankId → Option Nat) : List (Nat × BitVec 12 × BitVec 4) :=
  (List.finRange 4).foldl (fun gs r =>
    let sizes := ((List.finRange 12).filterMap (fun n => size ⟨n, r⟩)).foldl (fun l x => insertSize x l) []
    sizes.foldl (fun gs z =>
      let mask : BitVec 12 := (List.finRange 12).foldl (fun m n => if size ⟨n, r⟩ = some z then m ||| (1#12 <<< n.val) else m) 0
      if gs.any (fun g => g.1 == z && g.2.1 == mask) then
        gs.map (fun g => if g.1 == z && g.2.1 == mask then (g.1, g.2.1, g.2.2 ||| (1#4 <<< r.val)) else g)
      else gs ++ [(z, mask, 1#4 <<< r.val)]) gs) []

/-- The number of ones of a mask. -/
def ones {w : Nat} (x : BitVec w) : Nat := ((List.range w).filter (x.getLsbD ·)).length

/-- Place the groups one after another (R252). -/
def placeGroups (t : Tier) (base : Nat) : List (Nat × BitVec 12 × BitVec 4) → List MapRegion
  | [] => []
  | (z, m, r) :: gs =>
    let size := ones m * ones r * z * 2 ^ 30
    { tier := t, base := base, size := size, g := 4, members := m, ranks := r } :: placeGroups t (base + size) gs

/-- Base of a tier's window (R526). -/
def tierBase : Tier → Nat
  | .hbm => 0
  | .ddr => 0x100000000000

/-- The default map of a tier, before its limit of 16 regions (R252). -/
def defaultRegions (f : Training) (t : Tier) (out : RankId → Bool) : List MapRegion :=
  placeGroups t (tierBase t) (rankGroups (fun x => if rankTrained f t x && !out x then some (rankGibOf f t x) else none))

/-- What a tier's ranks are at training: the journal and the pool. -/
structure TierPlan where
  record : List (RankId × Option RankId)
  pool : List RankId
  deriving DecidableEq, Repr

/-- A rank serves as the replacement of a retired rank (R266). -/
def TierPlan.replaces (p : TierPlan) (x : RankId) : Bool := p.record.any (fun e => e.2 == some x)
/-- A rank is retired or locked. -/
def TierPlan.retired (p : TierPlan) (x : RankId) : Bool := p.record.any (fun e => e.1 == x)
/-- A rank is a spare. -/
def TierPlan.spare (p : TierPlan) (x : RankId) : Bool := p.pool.contains x && !p.replaces x && !p.retired x

/-- The plan of a tier at a full device reset (R248, R266). -/
def State.tierPlan (s : State) (f : Training) (t : Tier) : TierPlan :=
  let ts := s.tier t
  { record := ts.record
    pool := if !ts.custom then defaultPool f t else if ts.poolPending then ts.poolNext else ts.pool }

/-- A region of the map covers a rank. -/
def mapCovers (m : List MapRegion) (t : Tier) (x : RankId) : Bool :=
  m.any (fun g => g.tier == t && g.members.getLsbD x.n.val && g.ranks.getLsbD x.r.val)

/-- State code of a rank after training (R247, R248, R266). -/
def plannedState (f : Training) (t : Tier) (p : TierPlan) (m : List MapRegion) (x : RankId) : BitVec 4 :=
  if !rankTrained f t x then 6
  else match p.record.find? (fun e => e.1 == x) with
    | some (_, some _) => 3
    | some (_, none) => 4
    | none => if p.replaces x then 0 else if p.spare x then 1 else if mapCovers m t x then 0 else 6

/-- The remap register of a member (R270). -/
def plannedRemap (p : TierPlan) (n : Fin 12) : Word :=
  (List.finRange 4).foldl (fun w r =>
    match p.record.find? (fun e => e.1 == ⟨n, r⟩) with
    | some (_, some y) => w ||| (BitVec.ofNat 32 (packFields [(4, y.n.val), (2, y.r.val), (1, 0), (1, 1)]) <<< (8 * r.val))
    | _ => w) 0

/-- The map registers of a tier's controllers: its regions in order (R249, R270; DEDUCED, log 50). -/
def mapRegs (m : List MapRegion) (t : Tier) : Vector (Word × Word × Word) 16 :=
  let rs := m.filter (fun g => g.tier == t)
  Vector.ofFn (fun n => match rs[n.val]? with
    | none => (0, 0, 0)
    | some g => (BitVec.ofNat 32 (g.base / 2 ^ 20), BitVec.ofNat 32 (g.size / 2 ^ 20),
        BitVec.ofNat 32 (packFields [(12, g.members.toNat), (4, g.ranks.toNat), (4, g.g)])))

/-- A controller after training. -/
def trainCtl (f : Training) (t : Tier) (p : TierPlan) (m : List MapRegion) (n : Fin 12) (c : CtlState) : CtlState :=
  let x := fitOf f n
  let base : CtlState := { c with
    rank := Vector.ofFn (fun r => plannedState f t p m ⟨n, r⟩), remap := plannedRemap p n, map := mapRegs m t }
  match t with
  | .hbm => { base with trained := f.stackSet.getLsbD n.val }
  | .ddr => { base with
      trained := channelFit f n && x.trained, modules := BitVec.ofNat 2 x.modules.val, mrdimm := x.mrdimm
      ranks := BitVec.ofNat 3 x.ranks.val, rankGib := x.rankGib
      speed := if c.speedCap.toNat < x.speed.toNat then c.speedCap else x.speed }

/-- The tops of HBM region 0 that firmware keeps: job area, image staging, pattern store, crash area (R472, R530). -/
def firmwareBytes : Nat := 0x5A000000

/-- Top of HBM region 0 of a map (R530). -/
def hbmTop (m : List MapRegion) : Option Nat :=
  match m.find? (fun g => g.tier == Tier.hbm) with
  | some g => if firmwareBytes ≤ g.size then some (g.base + g.size) else none
  | none => none

/-- Memory training: which ranks serve, the pools, and the map in effect; spares that the pool gains go to locked ranks (R246 to R252,
R267). -/
def State.trainMemory (s : State) (f : Training) : State :=
  let hp := s.tierPlan f .hbm
  let dp := s.tierPlan f .ddr
  let out := fun (p : TierPlan) x => p.spare x || p.replaces x
  let hbm := defaultRegions f .hbm (out hp)
  let ddr := defaultRegions f .ddr (out dp)
  let named := fun (g : MapRegion) => g.memberList.all (fun n =>
    match g.tier with | .hbm => f.stackSet.getLsbD n.val | .ddr => channelFit f n && (fitOf f n).trained)
  let map := match s.dist.mapNext with
    | some m => m.filter named
    | none => hbm.take 16 ++ ddr.take 16
  let long := s.dist.mapNext.isNone && (decide (16 < hbm.length) || decide (16 < ddr.length))
  let tier := fun (ts : TierState) (p : TierPlan) => { ts with pool := p.pool, poolNext := [], poolPending := false, mig := none }
  let s := { s with
    hbm := vall s.hbm (trainCtl f .hbm hp map)
    ddr := vall s.ddr (trainCtl f .ddr dp map)
    dist := { s.dist with
      hbm := tier s.dist.hbm hp, ddr := tier s.dist.ddr dp, map := map
      training := trainingCodes f ++ (if long then [0x0420] else []) }
    flt := { s.flt with
      trained := true
      crashBase := match hbmTop map with | some top => BitVec.ofNat 48 (top - firmwareBytes) | none => 0 } }
  (s.serveLocked .hbm).serveLocked .ddr

/-- The spindles that stay marked failed: the self-test clears the mark of a spindle that passes, which is a free value
(R480). -/
def State.stillFailed (s : State) : BitVec 128 :=
  let w := fun i => Config.freeWord (s.fresh + i)
  s.flt.failed &&& (w 3 ++ w 2 ++ w 1 ++ w 0)

/-- A controller at the start of a full device reset: all of it resets but the installer's speed cap (R245, R478). -/
def CtlState.fullReset (c : CtlState) : CtlState := { speedCap := c.speedCap }

/-- The tier state that a full device reset keeps: the pool the installer named, the journal, and retirements that wait
(R248, R263, R266). -/
def State.keepTier (s : State) (t : Tier) : TierState :=
  let ts := s.tier t
  { pool := ts.pool, poolNext := ts.poolNext, poolPending := ts.poolPending, custom := ts.custom
    waiting := ts.waiting, record := s.retirements t }

/-- Thermal and supply state at a full device reset: registers reset; pins, the trip and the rails do not (R478, R523, R525). -/
def PwrState.fullReset (p : PwrState) : PwrState :=
  { trip := p.trip, alertPin := p.alertPin, stage2 := p.stage2, stage3 := p.stage3, stage4 := p.stage4
    tripTemp := p.tripTemp, tripSensor := p.tripSensor, tripDie := p.tripDie, rails := p.rails
    therm := p.therm.map (fun x => { temp := x.temp, junction := x.junction, readAt := x.readAt, below95 := x.below95 })
    sysRstLow := p.sysRstLow, sysRstSince := p.sysRstSince, thermtripLow := p.thermtripLow, progLow := p.progLow
    progSince := p.progSince, tap := p.tap, inst := p.inst, irShift := p.irShift, drShift := p.drShift, boundary := p.boundary, tdo := p.tdo
    refCoreBad := p.refCoreBad, refWarpBad := p.refWarpBad }

/-- The role state that a full device reset drops (R443). -/
def SecState.fullReset (x : SecState) : SecState :=
  { x with roles := Vector.replicate 9 {}, testMode := false, attest := [], attestBy := none, lockRefused := Vector.replicate 9 0 }

/-- Rung 7 starts: everything but the selvedge, flash, fuses and the battery-backed store clears (R478, R481, R487). -/
def State.fullReset (s : State) (cause : Code) : State :=
  let s := s.barrierDown
  let r := State.reset
  { r with
    pending := s.pending, now := s.now, fresh := s.fresh + 4, rank := s.rank, devices := s.devices, dTick := s.dTick
    lHop := s.lHop, slv := s.slv, flash := s.flash, sec := s.sec.fullReset, pwr := s.pwr.fullReset
    hbm := s.hbm.map CtlState.fullReset, ddr := s.ddr.map CtlState.fullReset
    spindles := Vector.ofFn (fun i => if s.stillFailed.getLsbD i.val then { power := .failed } else {})
    dist := { r.dist with
      topology := s.dist.topologyNext.getD s.dist.topology, mapNext := s.dist.mapNext
      hbm := s.keepTier .hbm, ddr := s.keepTier .ddr }
    cfg := { r.cfg with
      primary := s.cfg.primary, failMode := s.cfg.failMode, boot := s.cfg.boot
      err := s.cfg.staged.isSome, code := if s.cfg.staged.isSome then 0x064F else 0 }
    flt := { r.flt with
      lastRung := 7, lastCode := cause, statusCode := cause, failed := s.stillFailed, alert := s.pwr.alertPin, dead := s.flt.dead
      rungs := [{ unit := .device, rung := 7, cause := cause, startedAt := s.now, boundFrom := s.now }] } }

/-- A rung 7 runs. -/
def State.inFullReset (s : State) : Bool := s.flt.rungs.any (fun r => r.rung == 7)

/-- Start any rung; a rung without a cause of its own carries 0x0814 (R477, R479, R481, R539). -/
def State.startAny (s : State) (u : ResetUnit) (rung : Nat) (cause : Code) (escalated : Bool) : State :=
  let cause := if cause = 0 then 0x0814 else cause
  if rung = 7 then (if s.flt.dead || s.inFullReset then s else s.fullReset cause)
  else s.startRung u rung cause escalated

/-- The links as the installer's topology configures them at a full device reset (R321). -/
def State.loadTopology (s : State) : State :=
  { s with links := vall s.links (fun l x =>
      match s.dist.topology.find? (fun e => e.link == l.val) with
      | none => x
      | some e => { x with
          enable := bit e.ctl 0, autoRetrain := bit e.ctl 1, tickDown := bit e.ctl 2, peerCheck := bit e.ctl 3
          maxRate := BitVec.ofNat 2 (bits e.ctl 5 4), peerRank := BitVec.ofNat 16 e.peerRank
          peerLink := BitVec.ofNat 7 e.peerLink }) }

/-- Set an edge and its bits in the WFT_ blocks of its two dies: edges 0-1 and 2-3 join a row, 0-2 and 1-3 a column (R4). -/
def State.setEdge (s : State) (e : Fin 4) (f : Edge → Edge) : State :=
  let s := { s with edges := vmod s.edges e f }
  let up := (s.edges[e]).up
  let dies : List Die := match e.val with | 0 => [0, 1] | 1 => [2, 3] | 2 => [0, 2] | _ => [1, 3]
  dies.foldl (fun s d => s.modDie d (fun x => if e.val < 2 then { x with edgeRowUp := up } else { x with edgeColUp := up })) s

/-- The links at a full device reset: they take the installer's topology, and each enabled one whose peer answers starts bring-up (R298,
R321). -/
def State.trainLinks (s : State) (f : Training) : State :=
  let s := s.loadTopology
  f.peers.foldl (fun s p =>
    if (s.links[p.1]).enable && (s.links[p.1]).phase == .down && !s.pwr.refWarpBad.getLsbD (linkDie p.1).val then
      s.bringUp p.1 p.2
    else s) s

/-- Rung 7 completes: the distaff boots, the edges are up, and no power cap of the operator holds (R462, R478; the cap is log 49). -/
def State.bootDevice (s : State) : State :=
  let s := { s with
    flt := { s.flt with rungs := [], trained := false, asked := none }
    cfg := { s.cfg with bootDue := true }
    pwr := { s.pwr with capW := s.pwr.limitW }
    slv := { s.slv with trainDue := true } }
  ((List.finRange 4).foldl (fun s e => s.setEdge e (fun _ => { up := true })) s).romBoot

end Sys2Proof.Machine
end

