-- ==== Sys2Proof/Machine/PatForm.lean ====
section
/-!
DEFINITION. Verification of a pattern, the checks of form: header, digest, sections, system, mask, tick fit, energy, region tables, creel
windows, staple lists, wiring entries, DMA lists, slot tables and wake windows (R31 to R33, R48, R108, R193, R194, R210, R234, R256,
R257, R292, R315, R422 to R424).
-/
namespace Sys2Proof.Machine

/-- What a failed verification answers: the code, the section, its scope, and the image offset of the field at fault (R421). -/
structure PatFault where
  code : Code
  sec : Nat := 0xFFFF
  scope : Nat := 0
  off : Nat := 0
  deriving DecidableEq, Repr

/-- The first of a list of checks that fails. -/
def firstFault (l : List (Option PatFault)) : Option PatFault := l.findSome? id

/-- A fault where a condition holds. -/
def faultIf (c : Bool) (f : PatFault) : Option PatFault := if c then some f else none

/-- A fault in the header or the whole image. -/
def wholeFault (code : Code) (off : Nat) : PatFault := { code := code, off := off }

/-- A fault in a section, at an offset of it. -/
def Section.fault (x : Section) (code : Code) (o : Nat) : PatFault := { code := code, sec := x.index, scope := x.scope, off := x.off + o }

/-- The sections of a type, in the order of the table. -/
def Image.all (im : Image) (kind : Nat) : List Section := im.sections.filter (fun x => x.kind == kind)

/-- A reserved range of a byte list is zero. -/
def zeroAt (b : List Byte) (o n : Nat) : Bool := allZero (sliceBytes b o n)

/-- Check 1: the header (R32). -/
def Image.checkHeader (im : Image) : Option PatFault :=
  firstFault [
    faultIf (sliceBytes im 0 4 != [0x59, 0x4B, 0x50, 0x54]) (wholeFault 0x0201 0),
    faultIf (field im 4 2 != 3) (wholeFault 0x0201 4),
    faultIf (field im 6 2 != 0x100) (wholeFault 0x0201 6),
    faultIf (decide (4 ≤ im.flags)) (wholeFault 0x0201 0x4A),
    faultIf (!zeroAt im 0x50 176) (wholeFault 0x0201 0x50)]

/-- The bytes before the digest. -/
def Image.bodyEnd (im : Image) : Nat := im.length - 32

/-- Check 2: the digest (R32). -/
def Image.checkDigest (im : Image) : Option PatFault :=
  faultIf (sha256 (im.take im.bodyEnd) != im.drop im.bodyEnd) (wholeFault 0x0202 im.bodyEnd)

/-- Largest scope of a section type; none for an unknown type (R33). -/
def scopeMax : Nat → Option Nat
  | 1 => some 127 | 2 => some 15 | 3 => some 15 | 4 => some 15 | 5 => some 95 | 6 => some 779 | 7 => some 0 | 8 => some 0 | 9 => some 0
  | _ => none

/-- An entry of the section table against the entries before it (R33). -/
def Image.checkSection (im : Image) (x : Section) : Option PatFault :=
  let o := 0x100 + 16 * x.index
  let at_ := fun k => ({ code := 0x0204, sec := x.index, scope := x.scope, off := o + k } : PatFault)
  let before := im.sections.take x.index
  firstFault [
    faultIf (scopeMax x.kind).isNone (at_ 0),
    faultIf (before.any (fun y => y.kind == x.kind && y.scope == x.scope)) (at_ 0),
    faultIf (decide ((scopeMax x.kind).getD 0 < x.scope)) (at_ 2),
    faultIf (x.kind == 1 && (x.len == 0 || x.len % 8 != 0)) (at_ 4),
    faultIf (x.off % 256 != 0 || decide (x.off < 0x100 + 16 * field im 0x48 2) || decide (im.bodyEnd < x.off + x.len)) (at_ 8),
    faultIf (before.any (fun y => y.len != 0 && x.len != 0 && decide (x.off < y.off + y.len) && decide (y.off < x.off + x.len))) (at_ 8)]

/-- A section that R33 demands is missing. -/
def Image.missing (im : Image) : Bool :=
  let has := fun kind scope => im.sections.any (fun x => x.kind == kind && x.scope == scope)
  !has 8 0 || !has 9 0 || (im.all 6).isEmpty || (bit im.flags 1 && (im.all 5).isEmpty) ||
  (im.all 2).any (fun x => !has 3 x.scope || (List.range 8).any (fun l => !has 1 (8 * x.scope + l)))

/-- Check 3: the section table (R33). -/
def Image.checkSections (im : Image) : Option PatFault :=
  if im.bodyEnd < 0x100 + 16 * field im 0x48 2 then some (wholeFault 0x0204 0x48)
  else match im.sections.findSome? im.checkSection with
    | some f => some f
    | none => faultIf im.missing (wholeFault 0x0204 0x48)

/-- Check 4: the system (R32, R422). -/
def State.checkSystem (s : State) (im : Image) : Option PatFault :=
  firstFault [
    faultIf (field im 0x2C 4 != s.devices) (wholeFault 0x0209 0x2C),
    faultIf (field im 0x30 4 != s.rank.toNat) (wholeFault 0x0209 0x30)]

/-- Links that a pattern's slot tables name. -/
def Image.links (im : Image) : List Link :=
  (List.finRange 96).filter (fun l => im.sections.any (fun x => x.kind == 5 && x.scope == l.val))

/-- Check 6: the tick fit (R31); half the measured round trip, in units of 1/16 ns, is the hop latency of a link (R297, R300). -/
def State.checkTick (s : State) (im : Image) : Option PatFault :=
  firstFault [
    faultIf (decide (s.tick.periodNs.toNat < im.minTick)) (wholeFault 0x0206 0x20),
    faultIf (decide (im.commitHold < s.tick.holdNs.toNat)) (wholeFault 0x0206 0x24),
    faultIf (bit im.flags 1 && im.links.any (fun l => decide (32 * im.hopLatency < (s.links[l]).rtt.toNat))) (wholeFault 0x0206 0x28)]

/-- µJ that a pattern declares per tick over the four dies. -/
def Image.energySum (im : Image) : Nat := ((List.finRange 4).map im.energy).sum

/-- A power cap, in W, covers a pattern's declared energy over a tick of so many ns (R48). -/
def Image.fitsCap (im : Image) (period cap : Nat) : Bool := decide (im.energySum * 1000 ≤ cap * period)

/-- Check 7, energy against the cap and the floor (R48); the charges of the passes are checked with the code. -/
def State.checkEnergy (s : State) (im : Image) : Option PatFault :=
  firstFault [
    faultIf (!im.fitsCap s.tick.periodNs.toNat s.pwr.capW.toNat) (wholeFault 0x0207 0x38),
    (List.finRange 4).findSome? (fun d =>
      faultIf (decide (im.energy d < s.tick.floorUj.eff.toNat)) (wholeFault 0x0208 (0x38 + 4 * d.val)))]

/-- The firmware areas: the crash area and the private areas above it (R413, R472, R530). -/
def State.inFirmware (s : State) (a n : Nat) : Bool :=
  let base := s.flt.crashBase.toNat
  base != 0 && decide (a < base + firmwareBytes) && decide (base < a + n)

/-- A range inside one region of the map in effect. -/
def State.inOneRegion (s : State) (a n : Nat) : Bool :=
  s.dist.map.any (fun g => decide (g.base ≤ a) && decide (a + n ≤ g.base + g.size))

/-- A range inside the inbound window of one fabric endpoint. -/
def State.inOneWindow (s : State) (a n : Nat) : Bool :=
  match s.fabricAt a with
  | some (d, e) => decide ((a + n - 1) / 65536 ≤ ((s.fabric[d]).eps[e]).inLimit.toNat)
  | none => false

/-- The range of an entry of a region table: both halves of an output region. -/
def RegionEntry.span (e : RegionEntry) (out : Bool) : Nat × Nat := (e.base, if out then 2 * e.bytes else e.bytes)

/-- Two ranges share a byte. -/
def spansMeet (a b : Nat × Nat) : Bool := decide (a.1 < b.1 + b.2) && decide (b.1 < a.1 + a.2)

/-- Entry i of a region table fails R423 or R424; `earlier` are the entries that it may not meet. -/
def State.regionBad (s : State) (out : Bool) (raw : List Byte) (e : RegionEntry) (before : List RegionEntry) (earlier : List (Nat × Nat)) :
    Bool :=
  let r := e.span out
  let fabric := inAperture r.1 1
  !zeroAt raw 2 6 || !zeroAt raw 0x18 8 || (if out then e.cls != 0 else decide (2 < e.cls)) || e.base % 4096 != 0 || e.bytes % 4096 != 0 ||
  e.bytes == 0 || before.any (fun y => y.num == e.num) || s.inFirmware r.1 r.2 || earlier.any (spansMeet r) ||
  (if fabric then out || e.cls != 0 || !s.inOneWindow r.1 r.2 else !s.inOneRegion r.1 r.2)

/-- A region table fails check 8. -/
def State.checkTable (s : State) (im : Image) (kind : Nat) : Option PatFault :=
  match (im.all kind).head? with
  | none => none
  | some x =>
    let b := im.body x
    let es := im.regions kind
    let out := kind == 8
    if !zeroAt b 2 14 then some (x.fault 0x020B 2)
    else if x.len < 16 + 32 * es.length then some (x.fault 0x020B 0)
    else es.zipIdx.findSome? (fun (e, i) =>
      let before := es.take i
      let mine := if out then before.map (RegionEntry.span · true) else []
      let others := if out then (im.regions 9).map (RegionEntry.span · false) else (im.regions 8).map (RegionEntry.span · true)
      faultIf (s.regionBad out (sliceBytes b (16 + 32 * i) 32) e before (mine ++ others)) (x.fault 0x020B (16 + 32 * i)))

/-- Check 8: the region tables, in the order of the section table (R423, R424). -/
def State.checkRegions (s : State) (im : Image) : Option PatFault :=
  (im.sections.filter (fun x => x.kind == 8 || x.kind == 9)).findSome? (fun x => s.checkTable im x.kind)

/-- Check 9: the creel windows (R234, R424). -/
def Image.checkCreel (im : Image) : Option PatFault :=
  match (im.all 9).head? with
  | none => none
  | some x =>
    let es := (im.regions 9).zipIdx.filter (fun e => e.1.cls != 0)
    let win := fun (e : RegionEntry) => (e.base / 65536, (e.base + e.bytes - 1) / 65536)
    if 16 < es.length then some (x.fault 0x0989 0)
    else es.findSome? (fun e => faultIf (es.any (fun f => decide (f.2 < e.2) && decide ((win f.1).1 ≤ (win e.1).2) &&
      decide ((win e.1).1 ≤ (win f.1).2))) (x.fault 0x0989 (16 + 32 * e.2)))

/-- The staples of a staple-list section in order, with their index. -/
def boardStaples (b : List Byte) : List (Nat × Staple) := (List.range (field b 6 2)).map (fun i => (i, stapleEntry b i))

/-- The phase of entry i of a staple-list section. -/
def phaseOf (b : List Byte) (i : Nat) : Nat :=
  ((List.range (field b 4 2)).find? (fun p =>
    decide (field b (0x40 + 8 * p) 2 ≤ i) && decide (i < field b (0x40 + 8 * p) 2 + field b (0x42 + 8 * p) 2))).getD 0

/-- The phases of a staple-list section follow one another and hold every entry (R193). -/
def phasesOk (b : List Byte) : Bool :=
  let n := field b 4 2
  let step := fun (next : Option Nat) p => match next with
    | some k => if field b (0x40 + 8 * p) 2 = k then some (k + field b (0x42 + 8 * p) 2) else none
    | none => none
  (List.range n).foldl step (some 0) == some (field b 6 2) &&
  (List.range (16 - n)).all (fun j => zeroAt b (0x40 + 8 * (n + j)) 8)

/-- Where a staple-list section is malformed: an offset in it (R193, R194, R215); `size` is the program length of a lane. -/
def boardFault (b : List Byte) (size : Nat → Nat) : Option Nat :=
  let n := field b 6 2
  let es := boardStaples b
  if sliceBytes b 0 4 ≠ [0x59, 0x4B, 0x53, 0x42] then some 0
  else if field b 4 2 = 0 ∨ 16 < field b 4 2 then some 4
  else if n = 0 ∨ 1024 < n ∨ b.length < 0xC0 + 16 * n then some 6
  else if !zeroAt b 0x0A 54 then some 0x0A
  else if !phasesOk b then some 0x40
  else (es.find? (fun (i, t) =>
    let o := 0xC0 + 16 * i
    decide (8 ≤ field b (o + 8) 1) || decide (2 ≤ field b (o + 9) 1) || !zeroAt b (o + 10) 6 ||
    (es.take i).any (fun y => y.2.id == t.id) ||
    (decide (0 < i) && phaseOf b (i - 1) == phaseOf b i && decide (t.owner < (stapleEntry b (i - 1)).owner)) ||
    decide (size t.owner.val ≤ field b 8 2 + t.entry))).map (fun e => 0xC0 + 16 * e.1)

/-- Where R203 refuses a staple-list section. -/
def provisionFault (b : List Byte) (minTick : Nat) : Option Nat :=
  let phases := boardPhases b
  let tight := fun (p : Nat × List Staple) =>
    let sum := (p.2.map (fun t => t.budget + 60)).sum
    let top := (p.2.map (·.budget)).foldl max 0
    decide (p.1 < ceilDiv sum 7 + 2 * top + 4422)
  match phases.findIdx? tight with
  | some p => some (0x44 + 8 * p)
  | none => if minTick * 17 < 10 * ((phases.map (fun p => p.1 + 4)).sum) then some 0x40 else none

/-- A wiring entry that breaks its layout (R210, R343). -/
def wiringBad (k : Nat) (raw : List Byte) : Bool :=
  let producer := field raw 2 1
  let consumer := field raw 3 1
  decide (31 < field raw 0 1) || decide (16 ≤ field raw 1 1) || decide (5 < producer) || !([0, 2, 3].contains consumer) ||
  decide (15 < field raw 4 1) || (producer != 1 && field raw 4 1 != 0) || decide (64 < field raw 5 1) ||
  decide (field raw 6 2 < 1) || decide (4096 < field raw 6 2) || field raw 0x10 4 % 256 != 0 || !zeroAt raw 0x18 8 ||
  (producer == 4 && k % 4 != 0)

/-- Where a wiring section is malformed: an entry breaks its layout, or names a ring a second time. -/
def wiringFault (k : Nat) (b : List Byte) : Option Nat :=
  if b.length % 32 ≠ 0 then some (b.length / 32 * 32)
  else ((List.range (b.length / 32)).find? (fun i =>
    wiringBad k (sliceBytes b (32 * i) 32) || (List.range i).any (fun j => field b (32 * j) 1 == field b (32 * i) 1))).map (32 * ·)

/-- The runs of a strided descriptor side in a lane's memory lie in valid ranges (R275, R278). -/
def laneRunsOk (addr : Nat) (s1 s2 : Int) (c1 c2 len : Nat) : Bool :=
  (List.range c2).all (fun j => (List.range c1).all (fun i =>
    let a : Int := addr + i * s1 + j * s2
    decide (0 ≤ a) && laneRangeOk a.toNat len))

/-- A region byte that names an output region where its space uses one, and 0 elsewhere. -/
def regionByteOk (outs : List Nat) (space region : Nat) : Bool := if 2 ≤ space then outs.contains region else region == 0

/-- Lengths, counts, strides and alignment of a strided, linear or multicast descriptor (R278, R282, R283). -/
def stridedOk (d : DmaDesc) : Bool :=
  let al := fun (x : Int) => decide (x % 32 = 0)
  (if d.pop then d.srcAddr == 0 && d.len0 == 0 else d.len0 != 0 && d.len0 % 32 == 0 && d.srcAddr % 32 == 0) &&
  (d.kind != 0 || (d.count1 == 1 && d.count2 == 1 && d.srcStride1 == 0 && d.dstStride1 == 0 && d.srcStride2 == 0 && d.dstStride2 == 0)) &&
  d.dstAddr % 32 == 0 && al d.srcStride1 && al d.srcStride2 && al d.dstStride1 && al d.dstStride2 && d.idxCount == 0 &&
  d.idxSpace == 0 && d.idxRegion == 0 &&
  (d.kind != 4 || (d.dstStride1 == 0 && d.dstStride2 == 0 && decide (d.dstAddr + d.count1 * d.count2 * d.len0 ≤ 0x600000) &&
    decide (d.group < 64) && decide (d.aux < 256)))

/-- The same of a gather or scatter (R279 to R281). -/
def indexedOk (d : DmaDesc) : Bool :=
  let al := fun (x : Int) => decide (x % 32 = 0)
  let whole := d.len0 != 0 && d.len0 % 32 == 0 && d.srcAddr % 32 == 0 && d.dstAddr % 32 == 0 && al d.srcStride1 && al d.dstStride1
  d.count2 == 1 && d.srcStride2 == 0 && d.dstStride2 == 0 && d.idxCount != 0 && decide (d.idxCount ≤ 2 ^ 24) &&
  (if d.pool then whole && decide (d.len0 ≤ 16384) && d.count1 != 0 && d.idxCount % d.count1 == 0
   else if d.kind == 2 && [4, 8, 16].contains d.len0 then
     d.count1 == 1 && decide (pitch d.dstStride1 = d.len0) && d.dstAddr % 32 == 0 && d.idxCount * d.len0 % 32 == 0 &&
     d.srcAddr % d.len0 == 0 && decide (pitch d.srcStride1 % (d.len0 : Int) = 0)
   else d.count1 == 1 && whole && decide (d.len0 ≤ 65536))

/-- Lane-relative ranges that the descriptor alone fixes stay in valid ranges (R292). -/
def laneSidesOk (d : DmaDesc) : Bool :=
  let src := if d.srcSpace != 1 || d.pop then true
    else if d.kind == 2 then true
    else if d.kind == 3 then laneRunsOk d.srcAddr (pitch d.srcStride1) 0 d.idxCount 1 d.len0
    else laneRunsOk d.srcAddr d.srcStride1 d.srcStride2 d.count1 d.count2 d.len0
  let dst := if d.dstSpace != 1 || d.kind == 4 || d.pop then true
    else if d.kind == 3 then true
    else if d.kind == 2 then laneRunsOk d.dstAddr (pitch d.dstStride1) 0 (d.idxCount / max 1 (if d.pool then d.count1 else 1)) 1 d.len0
    else laneRunsOk d.dstAddr d.dstStride1 d.dstStride2 d.count1 d.count2 d.len0
  let idx := if d.idxSpace != 1 || (d.kind != 2 && d.kind != 3) then true
    else laneRangeOk d.idxAddr (d.idxCount * d.idxBytes)
  src && dst && idx

/-- A descriptor that verification accepts (R277 to R283, R292). -/
def descriptorOk (outs : List Nat) (raw : List Byte) : Bool :=
  let d := dmaDesc raw
  let indexed := d.kind == 2 || d.kind == 3
  decide (field raw 0 1 ≤ 4) && decide (field raw 1 1 < 64) && decide (field raw 2 1 < 3) && decide (field raw 3 1 < 4) &&
  field raw 3 1 != 2 && decide (field raw 6 1 < 3) && decide (field raw 0x3C 1 < 32) &&
  (!d.pool || d.kind == 2) && (!d.pop || d.kind == 0) && (d.kind != 4 || (!d.push && !d.pop)) &&
  regionByteOk outs d.srcSpace d.srcRegion && regionByteOk outs d.dstSpace d.dstRegion &&
  (!indexed || regionByteOk outs d.idxSpace d.idxRegion) && (d.kind == 4 || d.group == 0) &&
  (if indexed then indexedOk d else stridedOk d) && laneSidesOk d

/-- Where a DMA list section's header or list table is malformed (R291, R292). -/
def dmaFormFault (b : List Byte) : Option Nat :=
  let n := field b 4 2
  let m := field b 6 2
  if sliceBytes b 0 4 ≠ [0x59, 0x4B, 0x44, 0x4C] then some 0
  else if n = 0 ∨ 4096 < n then some 4
  else if m = 0 ∨ 4096 < m then some 6
  else if 64 < field b 8 2 then some 8
  else if !zeroAt b 0x0A 54 then some 0x0A
  else if b.length < dmaArray b + 64 * m + 32 * field b 8 2 then some 4
  else ((List.range n).find? (fun i =>
    field b (0x42 + 8 * i) 2 == 0 || decide (m < field b (0x40 + 8 * i) 2 + field b (0x42 + 8 * i) 2) || !zeroAt b (0x44 + 8 * i) 4)).map
      (0x40 + 8 * ·)

/-- Where a DMA list section's multicast groups break R292; `others` are groups of the sections before it. -/
def dmaGroupFault (b : List Byte) (others : List Nat) : Option Nat :=
  let g := dmaArray b + 64 * field b 6 2
  let num := fun i => field b (g + 32 * i) 1
  ((List.range (field b 8 2)).find? (fun i =>
    decide (63 < num i) || !zeroAt b (g + 32 * i + 1) 15 || zeroAt b (g + 32 * i + 16) 16 || others.contains (num i) ||
    (List.range i).any (fun j => num j == num i))).map (fun i => g + 32 * i)

/-- Slot period of a rate, in units of 1/100 ns (R296). -/
def slotCns (rate : Nat) : Nat := 512 * 2 ^ (3 - rate)

/-- A stream entry of a slot table that breaks its layout (R313, R314). -/
def streamBad (outs : List Nat) (tx : Bool) (raw : List Byte) (rings : List (Nat × RingWiring)) : Bool :=
  let cls := field raw 2 1
  let ring := field raw 3 1
  let wired := rings.any (fun w => w.1 == ring && (if tx then w.2.consumer == 3 else w.2.producer == 3))
  decide (4096 ≤ field raw 0 2) || decide (1 < cls) || decide (32 ≤ ring) || !zeroAt raw 0x19 3 || !wired ||
  (if tx then false else decide (field raw 0x0C 2 < 1) || decide (2048 < field raw 0x0C 2)) ||
  (if cls = 0 then field raw 0x0E 2 != 0
   else field raw 0x14 4 % 16 != 0 || decide (field raw 0x14 4 < 16) || decide (65536 < field raw 0x14 4) ||
     (tx && !outs.contains (field raw 0x18 1)))

/-- Where a slot table is malformed or disagrees with the topology or the link (R314, R315, R321). -/
def State.slotFormFault (s : State) (im : Image) (l : Link) (b : List Byte) : Option Nat :=
  let ntx := field b 4 2
  let nrx := field b 6 2
  let t := slotTable b
  let outs := (im.regions 8).map (·.num)
  let rings := im.wiring (linkSkein l)
  let raw := fun i => sliceBytes b (32 + 32 * i) 32
  let used := ((List.range ntx).map (fun i => field (raw i) 4 4 + field (raw i) 8 4)).foldl max 0
  if sliceBytes b 0 4 ≠ [0x59, 0x4B, 0x57, 0x53] then some 0
  else if 256 < ntx then some 4
  else if 256 < nrx then some 6
  else if !zeroAt b 0x10 16 then some 0x10
  else if b.length < 32 + 32 * (ntx + nrx) then some 4
  else if !s.dist.topology.any (fun e => e.link == l.val && bit e.ctl 0 && e.peerRank == t.peerRank && e.peerLink == t.peerLink) then some 8
  else if t.rate ≠ (s.links[l]).rate.toNat ∨ (s.links[l]).phase ≠ .up then some 0x0B
  else if t.slots ≠ used then some 0x0C
  else ((List.range (ntx + nrx)).find? (fun i =>
    let tx := decide (i < ntx)
    streamBad outs tx (raw i) rings ||
    (List.range i).any (fun j => decide (j < ntx) == tx && field (raw j) 0 2 == field (raw i) 0 2))).map (32 + 32 * ·)

/-- Where a slot table passes the capacity of its link (R315). -/
def State.slotCapacityFault (s : State) (b : List Byte) : Option Nat :=
  let ntx := field b 4 2
  let raw := fun i => sliceBytes b (32 + 32 * i) 32
  let span := fun i => (field (raw i) 4 4, field (raw i) 8 4)
  let staging := ((List.range (field b 6 2)).map (fun i => field (raw (ntx + i)) 0x0C 2)).sum
  let slots := (s.tick.periodNs.toNat - s.guardNs) * 100 / slotCns (field b 0x0B 1)
  match (List.range ntx).find? (fun i => (List.range i).any (fun j => spansMeet (span i) (span j))) with
  | some i => some (32 + 32 * i)
  | none =>
    if 2048 < staging then some 6
    else if slots < field b 0x0C 4 + 320 + ceilDiv slots 4096 then some 0x0C
    else none

/-- Check 17: the slot tables (R315). -/
def State.checkSlots (s : State) (im : Image) : Option PatFault :=
  (im.all 5).findSome? (fun x =>
    if h : x.scope < 96 then
      let b := im.body x
      match s.slotFormFault im ⟨x.scope, h⟩ b with
      | some o => some (x.fault 0x0505 o)
      | none => (s.slotCapacityFault b).map (x.fault 0x0506)
    else none)

/-- Where a wake-window section is malformed (R256, R257). -/
def wakeFault (period : Nat) (b : List Byte) : Option Nat :=
  let n := field b 0 2
  let start := fun i => field b (0x10 + 8 * i) 4
  let stop := fun i => field b (0x14 + 8 * i) 4
  if 15 < n ∨ b.length < 16 + 8 * n then some 0
  else if 2 ≤ field b 2 2 then some 2
  else if !zeroAt b 4 4 then some 4
  else ((List.range n).find? (fun i =>
    decide (stop i ≤ start i) || decide (period < stop i) || (decide (0 < i) && decide (start i < stop (i - 1))))).map (0x10 + 8 * ·)

/-- B_eff of a channel in tenths of GB/s (R257); an unpopulated channel carries nothing. -/
def State.rateTenths (s : State) (chan : Nat) : Nat :=
  if chan < 768 then 368
  else if h : chan - 768 < 12 then
    let c := s.ddr[chan - 768]
    if !c.trained then 0
    else match c.speed.toNat with | 0 => 353 | 1 => 412 | 2 => 471 | _ => 648
  else 0

/-- Check 18: wake windows and the maintenance share (R256, R257). -/
def State.checkWake (s : State) (im : Image) : Option PatFault :=
  (im.all 6).findSome? (fun x =>
    let b := im.body x
    match wakeFault s.tick.periodNs.toNat b with
    | some o => some (x.fault 0x0410 o)
    | none => faultIf (decide (96 * s.rateTenths x.scope * s.tick.periodNs.toNat < 1000 * field b 8 8)) (x.fault 0x0411 8))

end Sys2Proof.Machine
end

