-- ==== Sys2Proof/Machine/ConfigSet.lean ====
section
/-!
DEFINITION. The items of CONFIG_SET: their entries, their checks and their effects (R245, R248, R251, R321, R337, R346, R368, R433,
R443).
-/
namespace Sys2Proof.Machine

/-- Bytes of an entry of an item; 0 for an item outside 1 to 9 (R433). -/
def itemSize : Nat → Nat
  | 1 => 8 | 2 => 32 | 3 => 4 | 4 => 48 | 5 => 4 | 6 => 4 | 7 => 4 | 8 => 4 | 9 => 4 | _ => 0

/-- Patterns that are active, armed or named by an accepted job (R433, R435). -/
def State.boundPatterns (s : State) : List Image :=
  s.dist.active.toList ++ ((s.dist.staged.toList.filter (fun x =>
    x.armedAt.isSome || s.dist.jobs.any (fun j => j.pattern == Image.id x.image))).map (·.image))

/-- A cap covers every pattern that is active, armed or accepted (R433, R435). -/
def State.capCovers (s : State) (cap : Nat) : Bool :=
  s.boundPatterns.all (fun im => Image.fitsCap im s.tick.periodNs.toNat cap)

/-- Set the power cap in effect; vector 36 tells of a change (R432). -/
def State.setCap (s : State) (cap : BitVec 16) : State :=
  if s.pwr.capW = cap then s else ({ s with pwr := { s.pwr with capW := cap } }).raiseVector 36

/-- Item 1: a link entry. -/
def topoOf (e : List Byte) : TopoEntry := { link := field e 0 1, ctl := field e 1 1, peerRank := field e 2 2, peerLink := field e 4 1 }

/-- Item 1, topology (R321): 0x050C for a link that names itself, or that is named twice, or two that name one peer link. -/
def State.setTopology (s : State) (es : List (List Byte)) : State × Code :=
  let ts := es.map topoOf
  if es.any (fun e => decide (64 ≤ field e 1 1) || !zeroAt e 5 3) then (s, 0x0105)
  else if ts.zipIdx.any (fun (t, i) =>
      decide (96 ≤ t.link) || decide (96 ≤ t.peerLink) || (t.peerRank == s.rank.toNat && t.peerLink == t.link) ||
      (ts.take i).any (fun u => u.link == t.link || (u.peerRank == t.peerRank && u.peerLink == t.peerLink))) then (s, 0x050C)
  else ({ s with dist := { s.dist with topologyNext := some ts } }, 0)

/-- Item 2: a region entry. -/
def mapOf (e : List Byte) : MapRegion :=
  { tier := if field e 0 1 = 0 then .hbm else .ddr, g := field e 1 1, ranks := BitVec.ofNat 4 (field e 2 1)
    members := BitVec.ofNat 12 (field e 4 4), base := field e 8 8, size := field e 16 8 }

/-- Size of the window of a tier (R526). -/
def tierWindow : Tier → Nat
  | .hbm => 0xC000000000
  | .ddr => 0x80000000000

/-- The ranks that a region claims. -/
def MapRegion.claims (g : MapRegion) : List RankId := g.memberList.flatMap (fun n => g.rankList.map (fun r => ⟨n, r⟩))

/-- The ranks that are spares when the map takes effect. -/
def State.sparesNext (s : State) (t : Tier) : List RankId :=
  (if (s.tier t).poolPending then (s.tier t).poolNext else (s.tier t).pool) ++ allRanks.filter (fun x => s.rankState t x == 1)

/-- A rank serves a retired rank's addresses (R266). -/
def State.isReplacement (s : State) (t : Tier) (x : RankId) : Bool := (s.retirements t).any (fun e => e.2 == some x)

/-- Rank size in bytes of an interleave target (R251). -/
def State.regionRankBytes (s : State) (g : MapRegion) : Nat :=
  match g.memberList.head? with | some n => s.rankBytes g.tier n | none => 0

/-- A region that R249 or R251 refuses by itself. -/
def State.mapEntryBad (s : State) (e : List Byte) : Bool :=
  let g := mapOf e
  let ranks := g.claims
  decide (1 < field e 0 1) || decide (8 < field e 1 1) || decide (16 ≤ field e 2 1) || decide (4096 ≤ field e 4 4) ||
  g.base % 2 ^ 20 != 0 || g.size % 2 ^ 20 != 0 || ranks.isEmpty || g.base < tierBase g.tier ||
  decide (tierBase g.tier + tierWindow g.tier < g.base + g.size) ||
  ranks.any (fun x => (s.sparesNext g.tier).contains x || s.rankState g.tier x == 6 || s.isReplacement g.tier x) ||
  (match g.tier with
   | .hbm => false
   | .ddr => g.memberList.any (fun n => (s.ddr[n]).modules == 0 || s.rankBytes .ddr n != s.regionRankBytes g)) ||
  g.size != g.targets * g.rankList.length * s.regionRankBytes g

/-- Two regions overlap in address or claim the same rank (R251). -/
def regionsClash (a b : MapRegion) : Bool :=
  spansMeet (a.base, a.size) (b.base, b.size) || (a.tier == b.tier && a.claims.any (b.claims.contains ·))

/-- Item 2, the interleave map (R249, R251, R530). -/
def State.setMap (s : State) (es : List (List Byte)) : State × Code :=
  let m := es.map mapOf
  if es.any (fun e => !zeroAt e 3 1 || !zeroAt e 24 8) then (s, 0x0105)
  else if es.isEmpty then ({ s with dist := { s.dist with mapNext := none } }, 0)
  else if es.any s.mapEntryBad || m.zipIdx.any (fun (g, i) => (m.take i).any (regionsClash g)) ||
      decide (16 < (m.filter (fun g => g.tier == Tier.hbm)).length) || decide (16 < (m.filter (fun g => g.tier == Tier.ddr)).length) ||
      (match m.find? (fun g => g.tier == Tier.hbm) with | some g => decide (g.size < firmwareBytes) | none => true) then (s, 0x0420)
  else ({ s with dist := { s.dist with mapNext := some m } }, 0)

/-- Item 3: a spare entry. -/
def spareOfEntry (e : List Byte) : Option (Tier × RankId) :=
  if h : field e 0 1 ≤ 1 ∧ field e 1 1 < 12 ∧ field e 2 1 < 4 then
    some (if field e 0 1 = 0 then .hbm else .ddr, ⟨⟨field e 1 1, h.2.1⟩, ⟨field e 2 1, h.2.2⟩⟩)
  else none

/-- A pool entry that R248 refuses. -/
def State.spareBad (s : State) (t : Tier) (x : RankId) : Bool :=
  let st := s.rankState t x
  st == 2 || st == 3 || st == 4 || st == 5 || st == 6 || (s.tier t).waiting.any (fun w => w.1 == x) || s.isReplacement t x ||
  (s.dist.mapNext.any (fun m => mapCovers m t x)) ||
  (match t with
   | .hbm => false
   | .ddr => !(allRanks.any (fun y => mapCovers s.dist.map .ddr y && (s.ddr[y.n]).rankGib == (s.ddr[x.n]).rankGib)))

/-- The default pool of a tier by what is fitted; a rank that is retired, locked or a replacement is none of it (R248). -/
def State.poolNow (s : State) (t : Tier) : List RankId :=
  let all : List RankId := match t with
    | .hbm => [⟨0, 3⟩, ⟨6, 3⟩]
    | .ddr =>
      match (List.finRange 12).reverse.find? (fun n => (s.ddr[n]).modules != 0 && (s.ddr[n]).ranks != 0) with
      | some n => [⟨n, ⟨((s.ddr[n]).ranks.toNat - 1) % 4, by omega⟩⟩]
      | none => []
  all.filter (fun x => let st := s.rankState t x; (st == 0 || st == 1 || st == 6) && !s.isReplacement t x)

/-- Take a pool into use as R248 states. -/
def State.takePool (s : State) (t : Tier) (custom : Bool) (pool : List RankId) : State :=
  (s.modTier t (fun x => { x with custom := custom, poolNext := pool, poolPending := true })).applyPool t

/-- Item 3, the spare pool (R248). -/
def State.setPool (s : State) (es : List (List Byte)) : State × Code :=
  let ps := es.filterMap spareOfEntry
  if es.any (fun e => !zeroAt e 3 1) then (s, 0x0105)
  else if es.isEmpty then ((s.takePool .hbm false (s.poolNow .hbm)).takePool .ddr false (s.poolNow .ddr), 0)
  else if ps.length ≠ es.length ∨ ps.any (fun p => s.spareBad p.1 p.2) then (s, 0x0423)
  else
    let of_ := fun (t : Tier) => (ps.filter (fun p => p.1 == t)).map (·.2)
    ((s.takePool .hbm true (of_ .hbm)).takePool .ddr true (of_ .ddr), 0)

/-- An endpoint as an entry of item 4 sets it. -/
def windowOf (e : List Byte) (x : FabEp) : FabEp :=
  { x with
    perm := BitVec.ofNat 8 (field e 2 1), inBase := BitVec.ofNat 32 (field e 8 4), inLimit := BitVec.ofNat 32 (field e 12 4)
    outBase := Vector.ofFn (fun w => BitVec.ofNat 32 (field e (16 + 8 * w.val) 4))
    outLimit := Vector.ofFn (fun w => BitVec.ofNat 32 (field e (20 + 8 * w.val) 4)) }

/-- An endpoint window is set up: an endpoint whose window registers read 0 has none. -/
def FabEp.hasInbound (x : FabEp) : Bool := x.inBase != 0 || x.inLimit != 0

/-- The inbound window of an endpoint lies inside the aperture, is at most 4 GiB long and is not below its base (R337). -/
def FabEp.inboundOk (x : FabEp) : Bool :=
  !x.hasInbound ||
  (decide (0x28000000 ≤ x.inBase.toNat) && decide (x.inLimit.toNat < 0x28400000) && decide (x.inBase.toNat ≤ x.inLimit.toNat) &&
   decide (x.inLimit.toNat - x.inBase.toNat < 65536))

/-- The ranges of the device address map that are not reserved and not control space (R526): base and size. -/
def openRanges : List (Nat × Nat) :=
  [(0, 0xC000000000), (0x100000000000, 0x80000000000), (0x200000000000, 0x80000000), (0x280000000000, 0x4000000000)]

/-- An outbound window has a limit not below its base, and reaches neither a reserved range, nor the control space, nor the firmware
areas (R337, R529). -/
def State.outboundOk (s : State) (x : FabEp) : Bool :=
  (List.finRange 4).all (fun w =>
    let b := (x.outBase[w]).toNat * 65536
    let n := ((x.outLimit[w]).toNat + 1) * 65536 - b
    decide ((x.outBase[w]).toNat ≤ (x.outLimit[w]).toNat) && openRanges.any (fun r => within b n r.1 r.2) && !s.inFirmware b n)

/-- Item 4, fabric windows (R337). -/
def State.setWindows (s : State) (es : List (List Byte)) : State × Code :=
  let t := es.foldl (fun t e =>
    if h : field e 0 1 < 4 ∧ field e 1 1 < 16 then State.modEp t ⟨field e 0 1, h.1⟩ ⟨field e 1 1, h.2⟩ (windowOf e) else t) s
  let eps := (List.finRange 4).flatMap (fun d => (List.finRange 16).map (fun i => (t.fabric[d]).eps[i]))
  let inb := eps.filter FabEp.hasInbound
  let named := fun (e : List Byte) => s.regionInUse false (1#64 <<< (16 * field e 0 1 + field e 1 1))
  if es.any (fun e => !zeroAt e 3 5 || decide (4 ≤ field e 0 1) || decide (16 ≤ field e 1 1)) then (s, 0x0105)
  else if eps.any (fun x => !x.inboundOk) || es.any (fun e => !s.outboundOk (windowOf e {})) || inb.zipIdx.any (fun (x, i) => (inb.take i).any (fun y =>
      decide (y.inBase.toNat ≤ x.inLimit.toNat) && decide (x.inBase.toNat ≤ y.inLimit.toNat))) then (s, 0x0606)
  else if es.any named then (s, 0x0604)
  else (t, 0)

/-- Item 5, the power limit (R433, R435). -/
def State.setLimit (s : State) (e : List Byte) : State × Code :=
  let w := field e 0 2
  if !zeroAt e 2 2 then (s, 0x0105)
  else if !s.capCovers w then (s, 0x0251)
  else
    let s := { s with pwr := { s.pwr with limitW := BitVec.ofNat 16 w } }
    (if w < s.pwr.capW.toNat then s.setCap (BitVec.ofNat 16 w) else s, 0)

/-- Item 6, the DDR5 speed cap of every channel (R245). -/
def State.setSpeedCap (s : State) (e : List Byte) : State × Code :=
  if !zeroAt e 1 3 || decide (3 < field e 0 1) then (s, 0x0105)
  else ({ s with ddr := s.ddr.map (fun c => { c with speedCap := BitVec.ofNat 4 (field e 0 1) }) }, 0)

/-- Item 7, region power (R346, R433, R440): power comes back with a partial image. -/
def State.setRegionPower (s : State) (e : List Byte) : State × Code :=
  if h : field e 0 1 < 64 ∧ field e 1 1 ≤ 1 ∧ zeroAt e 2 2 = true then
    let r : Region := ⟨field e 0 1, h.1⟩
    if field e 1 1 = 1 then (s.modRegion r (fun x => { x with power := true }), 0)
    else if s.regionInUse true (1#64 <<< r.val) then (s, 0x0604)
    else if s.boundPatterns.any (fun im => (s.patternRegions im).contains r) then (s, 0x0251)
    else (s.startPowerOff r, 0)
  else (s, 0x0105)

/-- Item 8, the role idle limit (R443). -/
def State.setIdle (s : State) (e : List Byte) : State × Code :=
  if field e 0 2 = 0 || !zeroAt e 2 2 then (s, 0x0105)
  else ({ s with sec := { s.sec with idleS := BitVec.ofNat 16 (field e 0 2) } }, 0)

/-- Item 9, the primary image offset (R368). -/
def State.setPrimary (s : State) (e : List Byte) : State × Code :=
  let o := field e 0 4
  if o % 65536 ≠ 0 ∨ o < 0x04000000 ∨ 0x0FFF0000 < o then (s, 0x0650)
  else ({ s with cfg := { s.cfg with primary := BitVec.ofNat 29 o } }, 0)

/-- Apply the entries of an item in order, or none (R433). -/
def applyAll (f : State → List Byte → State × Code) : List (List Byte) → State → State × Code
  | [], s => (s, 0)
  | e :: es, s => match f s e with
    | (t, 0) => applyAll f es t
    | (_, c) => (s, c)

/-- A CONFIG_SET item, applied whole or refused (R433). -/
def State.configItem (s : State) (item : Nat) (es : List (List Byte)) : State × Code :=
  let keep := fun (r : State × Code) => if r.2 = 0 then r else (s, r.2)
  match item with
  | 1 => s.setTopology es
  | 2 => s.setMap es
  | 3 => s.setPool es
  | 4 => s.setWindows es
  | 5 => keep (applyAll State.setLimit es s)
  | 6 => keep (applyAll State.setSpeedCap es s)
  | 7 => keep (applyAll State.setRegionPower es s)
  | 8 => if es.length = 1 then keep (applyAll State.setIdle es s) else (s, 0x0105)
  | 9 => if es.length = 1 then keep (applyAll State.setPrimary es s) else (s, 0x0105)
  | _ => (s, 0x0105)

end Sys2Proof.Machine
end

