-- ==== Sys2Proof/Machine/Fabric.lean ====
section
/-!
DEFINITION. The commands of the logic fabric (chapter 12).
-/
namespace Sys2Proof.Machine

/-- FABRIC_INBOUND_REQUEST (R227, R337, R351): a request reaches an endpoint. A fenced endpoint answers 0x0982, an offline region
0x0601; else the region holds it. -/
def execFabricInboundRequest (src dst : Endpoint) (vc : BitVec 2) (s : State) : Out :=
  match fabricAtEp dst with
  | none => .next s
  | some i =>
    match s.takePacket (fun p => (p.kind == .readReq || p.kind == .write) && p.src == src && p.dst == dst && p.vc == vc) with
    | none => .next s
    | some (p, s) =>
      let s := s.sliverSeen p
      let d := dst.die
      if s.epFenced d i then .next (s.send (p.reply 0x0982 []))
      else if (s.region (regionOf d i)).state != 1 then .next (s.refuseEp d i p 0x0601)
      else .next (s.modEp d i (fun e => { e with inFlight := e.inFlight ++ [{ pkt := p, since := s.now }] }))

/-- Take the i-th request that a region holds. -/
def State.takeInFlight (s : State) (d : Die) (ep : Fin 16) (i : Nat) : Option (Packet × Time × State) :=
  match ((s.fabric[d]).eps[ep]).inFlight[i]? with
  | none => none
  | some q => some (q.pkt, q.since, s.modEp d ep (fun e => { e with inFlight := e.inFlight.eraseIdx i }))

/-- FABRIC_INBOUND_ANSWER (R339): the region answers a request it holds. -/
def execFabricInboundAnswer (d : Die) (ep : Fin 16) (i : Nat) (data : List Byte) (s : State) : Out := s.clocked <|
  match s.takeInFlight d ep i with
  | none => .next s
  | some (p, _, t) => .next (t.send (p.reply 0 (if p.kind == .readReq then sliceBytes data 0 p.bytes else [])))

/-- FAB_EP_TIMEOUT (R339): a request held for FAB_EP_TIMEOUT µs is answered 0x0603. -/
def execFabEpTimeout (d : Die) (ep : Fin 16) (i : Nat) (s : State) : Out := s.clocked <|
  match s.takeInFlight d ep i with
  | none => .next s
  | some (p, since, t) =>
    if s.now < since + Time.us (s.fabric[d]).epTimeoutUs.toNat then .next s else .next (t.refuseEp d ep p 0x0603)

/-- Some outbound window covers a range with the permission it needs (R337, R338). -/
def FabEp.reaches (e : FabEp) (write : Bool) (a n : Nat) : Bool :=
  (List.finRange 4).any (fun w =>
    decide ((e.outBase[w]).toNat * 65536 ≤ a) && decide (a + n ≤ ((e.outLimit[w]).toNat + 1) * 65536) &&
    e.perm.getLsbD (2 * w.val + (if write then 1 else 0)))

/-- FABRIC_OUTBOUND_REQUEST (R221, R222, R338): region logic sends a read or a write of 32 B to 4 KiB in units of 32 B; outside its windows it is answered
0x0602 and never enters the weft. -/
def execFabricOutboundRequest (d : Die) (ep : Fin 16) (write : Option (List Byte)) (addr : BitVec 64) (bytes : Nat)
    (tag : BitVec 12) (s : State) : Out := s.clocked <|
  let e := (s.fabric[d]).eps[ep]
  let n := match write with | some b => b.length | none => bytes
  let reads := (e.outstanding.filter (fun o => !o.write)).length
  if (s.region (regionOf d ep)).state != 1 || s.epFenced d ep || decide (n < 32) || decide (4096 < n) || n % 32 != 0 ||
      e.outstanding.any (fun o => o.tag == tag) || (write.isNone && decide (64 ≤ reads)) then .next s
  else if !e.reaches write.isSome addr.toNat n then
    .next (s.modEp d ep (fun e => { e with refused := satAdd 32 e.refused 1, answers := e.answers ++ [(tag, 0x0602, [])] }))
  else
    let s := s.modEp d ep (fun e => { e with outstanding := e.outstanding ++ [{ tag := tag, write := write.isSome, addr := addr, bytes := n }] })
    let a := addr.toNat
    match (s.decodeAddr a).endpoint with
    | none => .next (s.fabricDeliver (fabEndpoint d ep) tag.toNat 0x0981 [])
    | some dst =>
      let mem := decide (dst.loc.toNat < 42) && decide (36 ≤ dst.loc.toNat)
      let slice := write.isNone && mem && s.creelServes d a
      .next (s.send { kind := if write.isSome then .write else .readReq, src := fabEndpoint d ep
                      dst := if slice then sliceEndpoint d (homeSlice (a / 256)) else dst
                      vc := if 256 < n then 0 else 1, owner := .fabric, tag := tag.toNat, addr := a, bytes := n
                      data := write.getD [] })

/-- The region of an ingest port (R341). -/
def ingestRegion (d : Die) (j : Fin 2) : Region := ⟨16 * d.val + j.val, by omega⟩
/-- The ingest spindle of a port (R341). -/
def ingestSpindle (d : Die) (j : Fin 2) : Spindle := ⟨32 * d.val + j.val, by omega⟩

/-- A port takes beats and posts: its region is online and its spindle is not in reset (R342). -/
def State.ingestReady (s : State) (d : Die) (j : Fin 2) : Bool :=
  (s.region (ingestRegion d j)).state == 1 && !((s.fabric[d]).ingest[j]).validHeld && !s.spDown (ingestSpindle d j)

/-- Change a port. -/
def State.modIngest (s : State) (d : Die) (j : Fin 2) (f : Ingest → Ingest) : State :=
  s.modFab d (fun x => { x with ingest := vmod x.ingest j f })

/-- A beat joins the open access when it falls into its block in the next clock cycle and the access has fewer than 4 beats (R342);
else it opens an access. -/
def Ingest.beat (g : Ingest) (block edge : Nat) : Ingest :=
  match g.open_ with
  | some (b, n, e) =>
    if b = block ∧ n < 4 ∧ edge = e + 1 then { g with open_ := some (b, n + 1, edge) }
    else { g with open_ := some (block, 1, edge), writes := satAdd 32 g.writes 1 }
  | none => { g with open_ := some (block, 1, edge), writes := satAdd 32 g.writes 1 }

/-- INGEST_BEAT (R75, R341, R342): a beat's enabled bytes go into the ingest spindle's memory; an address past the memory is
dropped and seen, and a write to protected bytes is dropped with cause 7. -/
def execIngestBeat (d : Die) (j : Fin 2) (addr : BitVec 17) (data : List Byte) (be : BitVec 64) (s : State) : Out := s.clocked <|
  if !s.ingestReady d j then .next s
  else
    let o := 64 * addr.toNat
    let i := ingestSpindle d j
    if 0x600000 ≤ o then .next (s.modIngest d j (fun g => { g with dropSeen := true, open_ := none }))
    else
      let edge := (s.fabric[d]).clockEdges[(s.region (ingestRegion d j)).clkSel.toFin]
      let on := (List.range 64).filter (be.getLsbD ·)
      if on.any (fun k => (s.spindles[i]).protects (o + k) 1) then .next (s.protectedHit i (on.map (fun k => (o + k, 1))))
      else
        let s := s.modSp i (fun x => on.foldl (fun x k => (x.putBytes (o + k) (sliceBytes data k 1)).noteBad (o + k) 1 false) x)
        .next (s.modIngest d j (·.beat (o / 256) edge))

/-- INGEST_POST (R343): a handle fills the next producer position of its ring; on a ring that is not the port's it is discarded
and seen, and without space it waits. -/
def execIngestPost (d : Die) (j : Fin 2) (ring : BitVec 5) (handle : BitVec 32) (s : State) : Out := s.clocked <|
  if !s.ingestReady d j then .next s
  else
    let k : Skein := ⟨4 * d.val, by omega⟩
    let r := (s.skeins[k]).ring ring.toNat
    if ring.toNat % 2 ≠ j.val || !(r.wiring.any (fun w => w.producer == 4)) then .next (s.modIngest d j (fun g => { g with dropSeen := true }))
    else if !r.space r.nextPost then .next s
    else .next (s.modSk k (·.modRing ring.toNat (fun g => { g.fill g.nextPost handle with nextPost := g.nextPost + 1 })))

/-- DONE_HIGH (R344, R371, R372): the die samples DONE high; once per full load its release sequence starts. -/
def execDoneHigh (d : Die) (s : State) : Out :=
  if s.cfg.doneHeld then .next s
  else
    let s := { s with cfg := { s.cfg with doneLine := true } }
    let f := s.fabric[d]
    if f.configured && f.release == .none && !f.released then
      let s := s.modFab d (fun f => { f with release := .done, releaseAt := s.now })
      .next ((List.finRange 16).foldl (fun s i =>
        s.modRegion (regionOf d i) (fun x => if x.state == 3 then { x with state := 4 } else x)) s)
    else .next s

/-- A release stage follows the one before at its time (R344). -/
def State.releaseStage (s : State) (d : Die) (from_ next : Release) (gaps : Nat) : Option State :=
  let f := s.fabric[d]
  if f.release == from_ && decide (f.releaseAt + Time.fcc (gaps * f.gap) ≤ s.now) then some (s.modFab d (fun f => { f with release := next })) else none

/-- RELEASE_OUTPUTS (R344). -/
def execReleaseOutputs (d : Die) (s : State) : Out := .next ((s.releaseStage d .done .outputs 1).getD s)
/-- RELEASE_WRITE_ENABLES (R344). -/
def execReleaseWriteEnables (d : Die) (s : State) : Out := .next ((s.releaseStage d .outputs .enables 2).getD s)
/-- RELEASE_RESETS (R344): user reset is deasserted, every region comes online and released is set; a Basez endpoint is released. -/
def execReleaseResets (d : Die) (s : State) : Out :=
  match s.releaseStage d .enables .resets 3 with
  | none => .next s
  | some s =>
    let s := (List.finRange 16).foldl (fun s i =>
      if (s.region (regionOf d i)).state == 4 then (s.openRegion (regionOf d i)).fenceRel d i else s) s
    let s := s.modFab d (fun f => { f with released := true })
    .next (if s.fabric.all (·.released) then { s with cfg := { s.cfg with state := 6 } } else s)

/-- REGION_CLOCK_SWITCH (R345): native mode switches at once; Basez mode after the endpoint's fence. -/
def execRegionClockSwitch (r : Region) (clk : BitVec 4) (s : State) : Out :=
  let d := regionDie r
  let i := regionIdx r
  if !(s.dies[d]).basez.getLsbD i.val then .next (s.modRegion r (fun x => { x with clkSel := clk }))
  else if (s.dies[d]).fenced.getLsbD i.val then
    .next ((s.modRegion r (fun x => { x with clkSel := clk, switching := none })).fenceRel d i)
  else .next ((s.modRegion r (fun x => { x with switching := some clk })).fenceReq d i)

/-- REGION_POWER_OFF (R346, R489): the region drains, passes the fence and powers off. -/
def execRegionPowerOff (r : Region) (s : State) : Out :=
  let x := s.region r
  if x.state == 5 || x.poweringOff then .next s
  else
    let fn := if x.fn.st == .on then { x.fn with st := .draining, since := s.now } else x.fn
    .next ((s.modRegion r (fun x => { x with fn := fn })).startPowerOff r)

/-- The partial image under way names a region that has not ended its sequence (R375). -/
def State.loading (s : State) (r : Region) : Bool :=
  s.cfg.staged.any (fun img => img.pass == .written && img.left.getLsbD r.val)

/-- REGION_FENCE_ASSERT (R346, R349, R351, R375): a partial image powers a region on here. -/
def execRegionFenceAssert (r : Region) (s : State) : Out :=
  let x := s.region r
  if x.load != .none || !(s.loading r || (x.poweringOff && x.state != 5)) || (s.needsDrain r && x.state == 1) then .next s
  else .next ((s.fenceRegion r).modRegion r (fun x => { x with power := x.power || s.loading r }))

/-- REGION_CLOCK_GATE (R346, R349): two fcc after the fence; a region that powers off loses its contents here. -/
def execRegionClockGate (r : Region) (s : State) : Out :=
  let x := s.region r
  if x.load != .fenced || decide (s.now < x.loadAt + Time.fcc 2) then .next s
  else if x.poweringOff && !s.loading r then
    let s := s.modFab (regionDie r) (·.clearRegion r)
    let s := s.modRegion r (fun x => { x with state := 5, load := .none, poweringOff := false })
    .next { s with cfg := { s.cfg with loaded := s.cfg.loaded &&& ~~~(1#64 <<< r.val) } }
  else .next (s.modRegion r (fun x => { x with state := 3, load := .gated, loadAt := s.now, poweringOff := false }))

/-- REGION_FRAMES_WRITTEN (R331, R349, R375): after L, at 4 bytes per sc, the region's frames and its REGION record are in effect. -/
def execRegionFramesWritten (r : Region) (s : State) : Out :=
  match s.cfg.staged with
  | none => .next s
  | some img =>
    let x := s.region r
    let frames := (regionRec img.plain r).2.2.length
    if x.load != .gated || !s.loading r || decide (s.now < x.loadAt + Time.sc (80 * frames)) then .next s
    else
      let s' := (s.writeRegion img.bytes img.plain r).modRegion r (fun x => { x with load := .written, loadAt := s.now })
      .next { s' with cfg := { s'.cfg with loaded := s'.cfg.loaded ||| (1#64 <<< r.val) } }

/-- REGION_CLOCK_UNGATE (R349): two fcc after the last frame. -/
def execRegionClockUngate (r : Region) (s : State) : Out :=
  let x := s.region r
  if x.load != .written || decide (s.now < x.loadAt + Time.fcc 2) then .next s
  else .next (s.modRegion r (fun x => { x with state := 4, load := .ungated, loadAt := s.now }))

/-- REGION_FENCE_LIFT (R349, R375): 4g fcc after ungating the region is online; the last region of a partial image ends its load. -/
def execRegionFenceLift (r : Region) (s : State) : Out :=
  let x := s.region r
  let d := regionDie r
  if x.load != .ungated || decide (s.now < x.loadAt + Time.fcc (4 * (s.fabric[d]).gap)) then .next s
  else
    let s := (s.modRegion r (fun x => { x with load := .none })).openRegion r
    let s := s.fenceRel d (regionIdx r)
    match s.cfg.staged with
    | none => .next s
    | some img =>
      let img := { img with left := img.left &&& ~~~(1#64 <<< r.val) }
      if img.left = 0 then
        let s := { s with cfg := { s.cfg with
          staged := none, state := img.prior, loadsPartial := satAdd 16 s.cfg.loadsPartial 1 } }
        .next (s.answerLoad img 0 0)
      else .next { s with cfg := { s.cfg with staged := some img } }

/-- Arm a capture (R353). -/
def State.armCapture (s : State) (d : Die) : State :=
  s.modFab d (fun f => if f.capArmed || f.capRead || f.capStopped then f
    else { f with capArmed := true, capCount := 0, capBytes := 0 })

/-- CAPTURE_ARM (R353). -/
def execCaptureArm (d : Die) (s : State) : Out := .next (s.armCapture d)

/-- Regions of a die whose primary domain a capture stops (R353). -/
def State.captureRegions (s : State) (d : Die) (st : BitVec 3) : List Region :=
  (((List.finRange 16).map (regionOf d)).filter (fun r => (s.region r).clkSel == (s.fabric[d]).capDomain && (s.region r).state == st))

/-- CAPTURE_STOP (R353): after the domain's e-th edge it stops, and its regions go offline. -/
def execCaptureStop (d : Die) (s : State) : Out :=
  let f := s.fabric[d]
  if !f.capArmed || decide (f.capCount < max 1 f.capEdge.toNat) then .next s
  else
    let s := (s.captureRegions d 1).foldl (fun s r => (s.settleRegion r).modRegion r (fun x => { x with state := 6 })) s
    .next (s.modFab d (fun f => { f with capArmed := false, capRead := true }))

/-- The stopped domain runs again and its regions come online (R354). -/
def State.restartDomain (s : State) (d : Die) : State :=
  let s := (s.captureRegions d 6).foldl State.openRegion s
  s.modFab d (fun f => { f with capRead := false, capStopped := false })

/-- A range lies in device memory (R354). -/
def State.inMemory (s : State) (a n : Nat) : Bool :=
  match s.regionAt a with
  | some g => decide (a + n ≤ g.base + g.size)
  | none => false

/-- CAPTURE_READOUT_COMPLETE (R354, R361): the frame records, whose bits' places the spec does not give, come with the event and go to
the destination; one outside device memory ends the capture with 0x0606. -/
def execCaptureReadoutComplete (d : Die) (frames : List Byte) (s : State) : Out :=
  let f := s.fabric[d]
  if !f.capRead then .next s
  else
    let a := f.capDst.toNat
    if !s.inMemory a (max 1 frames.length) || (f.capLen ≠ 0 && decide (f.capLen < frames.length)) then
      .next (s.modFab d (fun f => { f.note 0x0606 with capRead := false, capStopped := true }))
    else
      let s := (s.deviceWrite a frames).1
      let s := s.modFab d (fun f => { f with capBytes := BitVec.ofNat 32 frames.length })
      if f.capResume then .next (s.restartDomain d)
      else .next (s.modFab d (fun f => { f with capRead := false, capStopped := true }))

/-- CAPTURE_GO (R354): a stopped domain restarts. -/
def execCaptureGo (d : Die) (s : State) : Out := if (s.fabric[d]).capStopped then .next (s.restartDomain d) else .next s

/-- USER_CLOCK_EDGE (R329, R332 to R335, R353): a domain that a capture has stopped, and a device whose clocks a trip has stopped, has no
edges. -/
def execUserClockEdge (d : Die) (domain : Fin 16) (x : EdgeInputs) (s : State) : Out :=
  let f := s.fabric[d]
  let stopped := f.capDomain.toNat == domain.val &&
    (f.capRead || f.capStopped || (f.capArmed && decide (max 1 f.capEdge.toNat ≤ f.capCount)))
  if stopped || s.pwr.thermtripLow then .next s
  else .next { s.modFab d (·.edge domain s.now s.fresh x) with fresh := s.fresh + 2 ^ 25 }

end Sys2Proof.Machine
end

