-- ==== Sys2Proof/Machine/PatCode.lean ====
section
/-!
DEFINITION. Verification of a pattern, the checks of code: the words that sequencers and vector engines can reach, staple code and the ring
positions it derives, the wait graph, DMA words and lists (R34, R37, R38, R164, R166, R200, R209, R210, R213, R283, R292, R422, R538).
-/
namespace Sys2Proof.Machine

/-- A point of a path of the sequencer: the word, whether it stands outside a staple (0), at a jump-table word (1), behind its JMP (2) or in
a staple (3), and the loops under way, innermost first: first and last word, and whether they repeat. -/
structure PathPt where
  pc : Nat
  mode : Nat
  loops : List (Nat × Nat × Nat) := []
  deriving DecidableEq, Repr

/-- What the paths of a program show. -/
structure Paths where
  seen : List PathPt := []
  /-- the word at fault (R538) -/
  bad : Option Nat := none
  deriving DecidableEq, Repr

/-- Loops that a jump to a word stays in (R538). -/
def loopsAt (target : Nat) (l : List (Nat × Nat × Nat)) : List (Nat × Nat × Nat) :=
  l.filter (fun x => decide (x.1 ≤ target) && decide (target ≤ x.2.1))

/-- The points after the word at `pc` is done: loops that end there repeat or end. -/
def pathAfter (mode pc : Nat) : List (Nat × Nat × Nat) → List PathPt
  | [] => [{ pc := pc + 1, mode := mode }]
  | x :: rest =>
    if x.2.1 = pc then
      (if 1 < x.2.2 then [{ pc := x.1, mode := mode, loops := x :: rest }] else []) ++ pathAfter mode pc rest
    else [{ pc := pc + 1, mode := mode, loops := x :: rest }]

/-- A LOOP word that R538 calls a bad field. -/
def loopBad (pc count body : Nat) (loops : List (Nat × Nat × Nat)) : Bool :=
  count == 0 || body == 0 || decide (2 ≤ loops.length) || (loops.head?.any (fun x => decide (x.2.1 < pc + body)))

/-- A field that is bad wherever the word stands: a VEC address past the bank, an event that is none (R37, R164). -/
def fieldBad (w : Word64) : Bool :=
  match wbits w 63 58 with
  | 5 => decide (8192 ≤ wbits w 15 0)
  | 7 => decide (36 < wbits w 7 0)
  | op => op == 0 || decide (13 < op)

/-- The points that follow one (R37, R422, R538); none where the word is bad. `entries` are the jump-table indices of the board. -/
def pathStep (w : Word64) (entries : List Nat) (p : PathPt) : Option (List PathPt) :=
  let op := wbits w 63 58
  let next := pathAfter p.mode p.pc p.loops
  if fieldBad w then none
  else if p.mode = 1 ∨ p.mode = 2 then
    if op = 2 then some (pathAfter 3 p.pc p.loops)
    else if op = 0xB ∧ p.mode = 1 then some [{ pc := wbits w 12 0, mode := 2, loops := loopsAt (wbits w 12 0) p.loops }]
    else some []
  else
    let inside := p.mode == 3
    match op with
    | 1 => if inside then none
           else some (entries.map (fun e => { pc := wbits w 15 0 + e, mode := 1, loops := loopsAt (wbits w 15 0 + e) p.loops }) ++ next)
    | 2 => none
    | 3 => if !inside then none else some (pathAfter 0 p.pc p.loops)
    | 7 => if !inside && decide (wbits w 7 0 < 32) then none else some next
    | 8 => if inside then some next else none
    | 9 => if inside then some next else none
    | 0xA => if loopBad p.pc (wbits w 15 0) (wbits w 28 16) p.loops then none
             else some [{ p with pc := p.pc + 1, loops := (p.pc + 1, p.pc + wbits w 28 16, wbits w 15 0) :: p.loops }]
    | 0xB => some [{ p with pc := wbits w 12 0, loops := loopsAt (wbits w 12 0) p.loops }]
    | 0xC => if inside then none else some []
    | _ => some next

/-- Search every path from the points in `work`. -/
def walkPaths (prog : List Word64) (entries : List Nat) : Nat → List PathPt → Paths → Paths
  | 0, _, r => r
  | _, [], r => r
  | k + 1, p :: work, r =>
    if r.bad.isSome then r
    else if r.seen.contains p then walkPaths prog entries k work r
    else match prog[p.pc]? with
      | none => { r with bad := some p.pc }
      | some w => match pathStep w entries p with
        | none => { r with bad := some p.pc }
        | some l => walkPaths prog entries k (l ++ work) { r with seen := p :: r.seen }

/-- The paths of a spindle's program: from word 0 and from every jump-table word of its board (R422, R538). -/
def Image.paths (im : Image) (i : Nat) : Paths :=
  let (base, entries) := match im.find 2 (i / 8) with
    | some b => (field b 8 2, (boardStaples b).map (fun e => e.2.entry))
    | none => (0, [])
  walkPaths (im.prog i) entries (2 ^ 24) ({ pc := 0, mode := 0 } :: entries.map (fun e => { pc := base + e, mode := 1 })) {}

/-- The words of a vector routine, up to its HALT; none where a word is one that the engine does not execute (R164, R166). -/
def routineWords (prog : List Word64) : Nat → Nat → Option (List Nat)
  | 0, _ => none
  | k + 1, pc => match prog[pc]? with
    | none => none
    | some w =>
      if !(parseVec w).ok then none
      else if wbits w 63 58 = 0x31 then some [pc]
      else (routineWords prog k (pc + 1)).map (pc :: ·)

/-- Check 10 for a spindle's program (R34, R37, R164, R166, R422, R538): the word at fault. -/
def Image.programFault (im : Image) (i : Nat) : Option Nat :=
  let prog := im.prog i
  let r := im.paths i
  match r.bad with
  | some pc => some pc
  | none =>
    let reached := r.seen.map (·.pc)
    let starts := reached.filter (fun pc => (prog[pc]?).any (fun w => wbits w 63 58 == 5))
    starts.findSome? (fun pc => match routineWords prog 8193 (wbits ((prog[pc]?).getD 0) 15 0) with
      | none => some (wbits ((prog[pc]?).getD 0) 15 0)
      | some ws => ws.find? (reached.contains ·))

/-- The words of an opcode that a spindle's sequencer can reach. -/
def Image.reached (im : Image) (i op : Nat) : List Nat :=
  ((im.paths i).seen.map (·.pc)).reverse.filter (fun pc => ((im.prog i)[pc]?).any (fun w => wbits w 63 58 == op))

/-- The words of an opcode that a spindle's vector engine can reach. -/
def Image.reachedVec (im : Image) (i op : Nat) : List Nat :=
  let prog := im.prog i
  ((im.reached i 5).flatMap (fun pc => (routineWords prog 8193 (wbits ((prog[pc]?).getD 0) 15 0)).getD [])).filter (fun pc =>
    (prog[pc]?).any (fun w => wbits w 63 58 == op))

/-- The pass and the chain that a PASS word names break R88 or R147. -/
def Image.passBad (im : Image) (i pc : Nat) : Bool :=
  let (d, ch) := im.plannedPass i pc
  let trig := ch.any (·.trigger)
  let trigW := ch.any (·.trigW)
  let at_ := wbits (((im.prog i)[pc]?).getD 0) 22 3 * 8
  !({ d with reuse := false }.ok at_ none none (decide (i % 32 < 2)) (trig && !trigW) (trig && trigW)) ||
  (d.reuse && Config.reuseRefused im i pc) || ch.any (fun c => !c.ok d)

/-- The store descriptor that an LDSD word names breaks R94 or R172. -/
def Image.storeBad (im : Image) (i pc : Nat) : Bool :=
  let b := im.planned i pc 0 64
  let q : StoreSlot := { raw := b, row := field b 0x30 4, col := field b 0x34 4 }
  !q.ok || !q.formatOk

/-- The ply descriptor that a PLYCOMB word names breaks R133, or its pair passes break R127. -/
def Image.plyBad (im : Image) (i pc : Nat) : Bool := !(parsePly (im.planned i pc 0 64)).ok || Config.plyTooLong im i pc

/-- Check 11 for a spindle's program: the word that names a bad descriptor. -/
def Image.descriptorFault (im : Image) (i : Nat) : Option Nat :=
  match (im.reached i 4).find? (im.passBad i) with
  | some pc => some pc
  | none => match (im.reachedVec i 0x24).find? (im.storeBad i) with
    | some pc => some pc
    | none => (im.reachedVec i 0x2E).find? (im.plyBad i)

/-- Check 11: the descriptors that the programs name (R88, R94, R133, R147, R172). -/
def Image.checkDescriptors (im : Image) : Option PatFault :=
  (im.all 1).findSome? (fun x => (im.descriptorFault x.scope).map (fun pc => x.fault 0x020C (8 * pc)))

/-- The rest of check 7: a pass whose charge, at the coefficients in effect, its die's bucket could never cover (R48, R89). -/
def State.checkCharges (s : State) (im : Image) : Option PatFault :=
  (im.all 1).findSome? (fun x =>
    let cap := if h : x.scope / 32 < 4 then im.energy ⟨x.scope / 32, h⟩ * 1000 else 0
    ((im.reached x.scope 4).find? (fun pc => decide (cap < 16 * (im.plannedPass x.scope pc).1.charge s.paceCoef))).map (fun pc =>
      x.fault 0x0208 (8 * pc)))

/-- The rest of check 3: a DMA word without its skein's list section, a reduction across spindles or devices without the order table
(R33). -/
def Image.checkUse (im : Image) : Option PatFault :=
  let has := fun kind scope => im.sections.any (fun x => x.kind == kind && x.scope == scope)
  faultIf ((im.all 1).any (fun x => !(im.reached x.scope 6).isEmpty && !has 4 (x.scope / 8)) || (!has 7 0 && Config.crossReduction im))
    (wholeFault 0x0204 0x48)

/-- What a staple's code derives (R38, R200, R209). -/
structure Derived where
  /-- 0, or the code that refuses the staple -/
  code : Code := 0
  words : List Nat := []
  uses : List RingUse := []
  /-- DMA lists started: list index and how often -/
  lists : List (Nat × Nat) := []
  deriving DecidableEq, Repr

/-- Walk a staple from the word after its SBEGIN; `set` are the handle registers written so far, `trig` the ring on which a PASS word
arms its pass. -/
def deriveFrom (prog : List Word64) (trig : Nat → Option Nat) : Nat → Nat → List (Nat × Nat × Nat) → List Nat → Derived → Derived
  | 0, _, _, _, d => { d with code := 0x0902 }
  | k + 1, pc, loops, set, d => match prog[pc]? with
    | none => { d with code := 0x020A }
    | some w =>
      let op := wbits w 63 58
      let d := { d with words := d.words ++ [pc] }
      let mult := loops.foldl (fun m x => m * x.2.2) 1
      let left := loops.filter (fun x => x.2.1 != pc)
      if fieldBad w ∨ op = 1 ∨ op = 2 ∨ op = 0xC then { d with code := 0x020A }
      else match op with
        | 4 =>
          let armed := match trig pc with | some r => [(r, false, mult)] | none => []
          deriveFrom prog trig k (pc + 1) left set { d with uses := d.uses ++ armed }
        | 3 => if loops.isEmpty then d else { d with code := 0x0902 }
        | 0xB =>
          let t := wbits w 12 0
          if t ≤ pc ∨ loops.any (fun x => decide (x.2.1 < t)) then { d with code := 0x0902 }
          else deriveFrom prog trig k t loops set d
        | 0xA =>
          if loopBad pc (wbits w 15 0) (wbits w 28 16) loops then { d with code := 0x020A }
          else deriveFrom prog trig k (pc + 1) ((pc + 1, pc + wbits w 28 16, wbits w 15 0) :: loops) set d
        | 8 =>
          if !set.contains (wbits w 12 8) then { d with code := 0x020A }
          else deriveFrom prog trig k (pc + 1) left set { d with uses := d.uses ++ [(wbits w 4 0, true, mult)] }
        | 9 => deriveFrom prog trig k (pc + 1) left (wbits w 12 8 :: set) { d with uses := d.uses ++ [(wbits w 4 0, false, mult)] }
        | 0xD => deriveFrom prog trig k (pc + 1) left (wbits w 4 0 :: set) d
        | 6 => deriveFrom prog trig k (pc + 1) left set { d with lists := d.lists ++ [(wbits w 31 16, mult)] }
        | 5 =>
          let ws := (routineWords prog 8193 (wbits w 15 0)).getD []
          deriveFrom prog trig k (pc + 1) left set { d with words := d.words ++ ws }
        | _ => deriveFrom prog trig k (pc + 1) left set d

/-- Derive a staple of a board from the program of its owner lane (R200). -/
def deriveStaple (prog : List Word64) (trig : Nat → Option Nat) (base : Nat) (t : Staple) : Derived :=
  let start := base + t.entry
  let at_ := fun pc => ((prog[pc]?).getD 0)
  let begins := fun pc => wbits (at_ pc) 63 58 == 2 && wbits (at_ pc) 31 0 == t.budget && wbits (at_ pc) 47 32 == t.id.toNat
  let jmp := wbits (at_ start) 63 58 == 0xB
  let pc := if jmp then wbits (at_ start) 12 0 else start
  if begins pc then deriveFrom prog trig 8193 (pc + 1) [] [] { words := if jmp then [start, pc] else [pc] }
  else { code := 0x0905, words := [start] }

/-- A staple with what its code derives: skein, entry index, phase. -/
structure StapleRec where
  skein : Skein
  index : Nat
  staple : Staple
  phase : Nat
  d : Derived
  deriving DecidableEq, Repr

/-- Every staple of the pattern, skein by skein. -/
def Image.staples (im : Image) : List StapleRec :=
  (List.finRange 16).flatMap (fun k => match im.find 2 k.val with
    | none => []
    | some b => (boardStaples b).map (fun (i, t) =>
        { skein := k, index := i, staple := t, phase := phaseOf b i
          d := deriveStaple (im.prog (8 * k.val + t.owner.val)) (im.triggerRing (8 * k.val + t.owner.val)) (field b 8 2) t }))

/-- The section of a type for a skein. -/
def Image.secOf (im : Image) (kind scope : Nat) : Option Section := im.sections.find? (fun x => x.kind == kind && x.scope == scope)

/-- A fault at a staple's entry. -/
def Image.stapleFault (im : Image) (code : Code) (t : StapleRec) : PatFault :=
  match im.secOf 2 t.skein.val with
  | some x => x.fault code (0xC0 + 16 * t.index)
  | none => wholeFault code 0

/-- A staple's words are not the same on every lane of its skein (R200). -/
def Image.lanesDiffer (im : Image) (t : StapleRec) : Bool :=
  let own := im.prog (8 * t.skein.val + t.staple.owner.val)
  (List.range 8).any (fun l => t.d.words.any (fun pc => (im.prog (8 * t.skein.val + l))[pc]? != own[pc]?))

/-- Check 10: program sizes, reachable words, staple code (R34, R38, R200, R422). -/
def Image.checkPrograms (im : Image) (st : List StapleRec) : Option PatFault :=
  firstFault [
    (im.all 1).findSome? (fun x => faultIf (decide (65536 < x.len)) (x.fault 0x0205 0)),
    (im.all 1).findSome? (fun x => (im.programFault x.scope).map (fun pc => x.fault 0x020A (8 * pc))),
    st.findSome? (fun t => faultIf (t.d.code == 0x020A || im.lanesDiffer t) (im.stapleFault 0x020A t))]

/-- Check 12: boards, budgets, provisioning (R193, R200, R203, R215). -/
def Image.checkBoards (im : Image) (st : List StapleRec) : Option PatFault :=
  firstFault [
    (im.all 2).findSome? (fun x => (boardFault (im.body x) (fun l => (im.prog (8 * x.scope + l)).length)).map (x.fault 0x0901)),
    st.findSome? (fun t => faultIf (t.d.code == 0x0905) (im.stapleFault 0x0905 t)),
    (im.all 2).findSome? (fun x => (provisionFault (im.body x) im.minTick).map (x.fault 0x0904))]

/-- The wiring of every skein. -/
abbrev Wires := Vector (List (Nat × RingWiring)) 16

/-- The wiring entry of a skein's ring. -/
def wireOf (w : Wires) (k : Skein) (ring : Nat) : Option RingWiring := ((w[k]).find? (fun x => x.1 == ring)).map (·.2)

/-- The skein whose ring a PUSH on skein j reaches (R210). -/
def pushHome (w : Wires) (j : Skein) (ring : Nat) : Option Skein :=
  if (wireOf w j ring).any (fun x => x.producer == 0) then some j
  else (List.finRange 16).find? (fun k => (wireOf w k ring).any (fun x => x.producer == 1 && x.src == j))

/-- A lane-local ring used by a staple that is not pinned to its home lane, or of another skein (R210). -/
def localMisuse (w : RingWiring) (same : Bool) (t : Staple) : Bool := w.laneLocal && !(same && t.pinned && t.owner == w.home)

/-- A ring use of a staple that R210 refuses. -/
def useBad (w : Wires) (t : StapleRec) (u : RingUse) : Bool :=
  if u.2.1 then
    match pushHome w t.skein u.1 with
    | none => true
    | some k => (wireOf w k u.1).any (fun x => localMisuse x (k == t.skein) t.staple)
  else match wireOf w t.skein u.1 with
    | none => true
    | some x => x.consumer != 0 || localMisuse x true t.staple

/-- A wiring entry of producer 1 that R210 refuses: two skeins wire the same ring and src, or src's own ring is its own. -/
def crossBad (w : Wires) (k : Skein) (e : Nat × RingWiring) : Bool :=
  e.2.producer == 1 &&
  ((wireOf w e.2.src e.1).any (fun x => x.producer == 0) ||
   (List.finRange 16).any (fun j => decide (j < k) && (wireOf w j e.1).any (fun x => x.producer == 1 && x.src == e.2.src)))

/-- How often a staple uses a ring one way. -/
def StapleRec.count (t : StapleRec) (ring : Nat) (push : Bool) : Nat := useCount t.d.uses ring push

/-- Staples of a skein in ascending staple_id, with their uses of a ring. -/
def ringUsers (st : List StapleRec) (k : Skein) (ring : Nat) (push : Bool) : List (BitVec 16 × Nat) :=
  let mine := (st.filter (fun t => t.skein == k)).map (fun t => (t.staple.id, [(ring, push, t.count ring push)]))
  (mine.foldr insertUse []).map (fun x => (x.1, useCount x.2 ring push))

/-- The positions that producing and consuming staples of a ring get (R209). -/
def ringShares (st : List StapleRec) (k : Skein) (ring : Nat) (w : RingWiring) : List RingShare × List RingShare :=
  (if w.producer ≤ 1 then assignShares w.preload (ringUsers st (if w.producer = 1 then w.src else k) ring true) else [],
   if w.consumer = 0 then assignShares 0 (ringUsers st k ring false) else [])

/-- The positions of a list of shares. -/
def shareTotal (l : List RingShare) : Nat := (l.map (·.count)).sum

/-- Check 13: wiring, ring uses and balance (R209, R210, R343). -/
def Image.checkWiring (im : Image) (st : List StapleRec) (w : Wires) : Option PatFault :=
  firstFault [
    (im.all 3).findSome? (fun x => (wiringFault x.scope (im.body x)).map (x.fault 0x0902)),
    st.findSome? (fun t => faultIf (t.d.code == 0x0902) (im.stapleFault 0x0902 t)),
    (List.finRange 16).findSome? (fun k => (w[k]).zipIdx.findSome? (fun (e, i) =>
      match im.secOf 3 k.val with
      | none => none
      | some x =>
        let sh := ringShares st k e.1 e.2
        faultIf (crossBad w k e || (decide (e.2.producer ≤ 1) && decide (e.2.preload + shareTotal sh.1 < shareTotal sh.2)))
          (x.fault 0x0902 (32 * i)))),
    st.findSome? (fun t => faultIf (t.d.uses.any (useBad w t)) (im.stapleFault 0x0902 t))]

/-- Check 14: a ring on which a pass is armed has one producer (R157). -/
def Image.checkTriggers (im : Image) (st : List StapleRec) (w : Wires) : Option PatFault :=
  (List.finRange 16).findSome? (fun k => (w[k]).zipIdx.findSome? (fun (e, i) =>
    match im.secOf 3 k.val with
    | none => none
    | some x =>
      let armed := (List.range 8).any (fun l => (im.reached (8 * k.val + l) 4).any (fun pc => im.triggerRing (8 * k.val + l) pc == some e.1))
      faultIf (armed && decide (1 < (ringShares st k e.1 e.2).1.length)) (x.fault 0x020D (32 * i))))

/-- A staple of the wait graph. -/
abbrev Node := Skein × BitVec 16

/-- The data and space edges of a ring (R213): who waits on whom. -/
def ringEdges (st : List StapleRec) (k : Skein) (ring : Nat) (w : RingWiring) : List (Node × Node) :=
  let (ps, cs) := ringShares st k ring w
  let from_ : Skein := if w.producer = 1 then w.src else k
  cs.flatMap (fun c => ps.flatMap (fun p =>
    let lo := max (max c.first p.first) w.preload
    let hi := min (c.first + c.count) (p.first + p.count)
    let slo := max (max p.first 64) (c.first + 64)
    let shi := min (p.first + p.count) (c.first + c.count + 64)
    (if lo < hi then [((k, c.staple), (from_, p.staple))] else []) ++
    (if slo < shi then [((from_, p.staple), (k, c.staple))] else [])))

/-- Remove nodes that wait on no node that is left, so often; nodes that stay lie on a cycle or wait on one. -/
def pruneGraph (edges : List (Node × Node)) : Nat → List Node → List Node
  | 0, l => l
  | k + 1, l => pruneGraph edges k (l.filter (fun n => edges.any (fun e => e.1 == n && l.contains e.2)))

/-- Check 15: the wait graph (R213). -/
def Image.checkGraph (im : Image) (st : List StapleRec) (w : Wires) : Option PatFault :=
  let phase := fun (n : Node) => ((st.find? (fun t => t.skein == n.1 && t.staple.id == n.2)).map (·.phase)).getD 0
  let ringFault := (List.finRange 16).findSome? (fun k => (w[k]).zipIdx.findSome? (fun (e, i) =>
    match im.secOf 3 k.val with
    | none => none
    | some x => faultIf ((ringEdges st k e.1 e.2).any (fun d => d.1.1 == d.2.1 && phase d.1 == phase d.2)) (x.fault 0x0903 (32 * i))))
  match ringFault with
  | some f => some f
  | none =>
    let rings := (List.finRange 16).flatMap (fun k => (w[k]).flatMap (fun e => ringEdges st k e.1 e.2))
    let phases := st.flatMap (fun t => (st.filter (fun u => u.skein == t.skein && u.phase + 1 == t.phase)).map (fun u =>
      ((t.skein, t.staple.id), (u.skein, u.staple.id))))
    let nodes : List Node := st.map (fun t => (t.skein, t.staple.id))
    faultIf (!(pruneGraph (rings ++ phases) (nodes.length + 1) nodes).isEmpty) (wholeFault 0x0903 0)

/-- DMA words that a spindle's sequencer can reach outside staples: list index and how often loops repeat it. -/
def Image.laneStarts (im : Image) (i : Nat) : List (Nat × Nat) :=
  let prog := im.prog i
  let outside := (im.paths i).seen.filter (fun p => p.mode == 0 && (prog[p.pc]?).any (fun w => wbits w 63 58 == 6))
  outside.map (fun p => (wbits ((prog[p.pc]?).getD 0) 31 16, p.loops.foldl (fun m x => m * x.2.2) 1))

/-- How often a step starts a list of a skein, by its sequencer code (R283). -/
def Image.listStarts (im : Image) (st : List StapleRec) (k : Nat) (list : Nat) : Nat :=
  let staples := (st.filter (fun t => t.skein.val == k)).flatMap (fun t => t.d.lists)
  let lanes := (List.range 8).flatMap (fun l => im.laneStarts (8 * k + l))
  (((staples ++ lanes).filter (fun x => x.1 == list)).map (·.2)).sum

/-- A DMA word of a spindle's program that names no list (R292). -/
def Image.dmaWordFault (im : Image) (i : Nat) : Option Nat :=
  let lists := match im.find 4 (i / 8) with | some b => field b 4 2 | none => 0
  (im.reached i 6).find? (fun pc => decide (lists ≤ wbits (((im.prog i)[pc]?).getD 0) 31 16))

/-- Ring use of a DMA list section that breaks R283 or R210: the descriptor at fault. -/
def Image.dmaRingFault (im : Image) (st : List StapleRec) (w : Wires) (k : Nat) (b : List Byte) : Option Nat :=
  let lists := (dmaLists b).zipIdx
  let listsOf := fun i => (lists.filter (fun l => decide (l.1.1 ≤ i) && decide (i < l.1.1 + l.1.2))).map (·.2)
  let descs := (dmaDescs b).zipIdx
  let users := fun (push : Bool) ring => descs.flatMap (fun d => if (if push then d.1.push else d.1.pop) && d.1.ring == ring then listsOf d.2 else [])
  let bad := fun (push : Bool) (d : DmaDesc) =>
    let e := if h : k < 16 then wireOf w ⟨k, h⟩ d.ring else none
    let ls := users push d.ring
    !(e.any (fun x => if push then x.producer == 2 else x.consumer == 2 && x.bufferBase % 32 == 0)) ||
    ls.any (fun l => ls.any (· != l)) || ls.any (fun l => decide (1 < im.listStarts st k l))
  (descs.find? (fun d => (d.1.push && bad true d.1) || (d.1.pop && bad false d.1))).map (·.2)

/-- Check 16: DMA lists (R283, R291, R292). -/
def Image.checkDma (im : Image) (st : List StapleRec) (w : Wires) : Option PatFault :=
  let outs := (im.regions 8).map (·.num)
  let secs := im.all 4
  let defined := secs.flatMap (fun x => (dmaGroups (im.body x)).map (·.1))
  firstFault [
    secs.findSome? (fun x => (dmaFormFault (im.body x)).map (x.fault 0x0483)),
    (im.all 1).findSome? (fun x => (im.dmaWordFault x.scope).map (fun pc => x.fault 0x0483 (8 * pc))),
    secs.findSome? (fun x =>
      let b := im.body x
      ((List.range (field b 6 2)).find? (fun i => !descriptorOk outs (sliceBytes b (dmaArray b + 64 * i) 64))).map (fun i =>
        x.fault 0x0482 (dmaArray b + 64 * i))),
    secs.findSome? (fun x => (im.dmaRingFault st w x.scope (im.body x)).map (fun i => x.fault 0x0487 (dmaArray (im.body x) + 64 * i))),
    secs.findSome? (fun x =>
      let others := (secs.filter (fun y => decide (y.index < x.index))).flatMap (fun y => (dmaGroups (im.body y)).map (·.1))
      (dmaGroupFault (im.body x) others).map (x.fault 0x0488)),
    secs.findSome? (fun x =>
      let b := im.body x
      ((List.range (field b 6 2)).find? (fun i =>
        let d := dmaDesc (sliceBytes b (dmaArray b + 64 * i) 64)
        d.kind == 4 && !defined.contains d.group)).map (fun i => x.fault 0x0488 (dmaArray b + 64 * i)))]

/-- The checks of R422 in their order: the first that fails. -/
def State.verifyPattern (s : State) (im : Image) : Option PatFault :=
  match firstFault [im.checkHeader, im.checkDigest, im.checkSections, im.checkUse, s.checkSystem im,
      faultIf (decide (128 ≤ im.numericMask)) (wholeFault 0x0310 0x4C), s.checkTick im, s.checkEnergy im, s.checkCharges im,
      s.checkRegions im, im.checkCreel] with
  | some f => some f
  | none =>
    let st := im.staples
    let w : Wires := Vector.ofFn (fun k => im.wiring k)
    firstFault [im.checkPrograms st, im.checkDescriptors, im.checkBoards st, im.checkWiring st w,
      im.checkTriggers st w, im.checkGraph st w, im.checkDma st w, s.checkSlots im, s.checkWake im]

end Sys2Proof.Machine
end

