-- ==== Sys2Proof/Machine/Distaff.lean ====
section
/-!
DEFINITION. The operator's and installer's messages of the distaff (chapter 15), but for TELEMETRY_READ, which reads registers.
-/
namespace Sys2Proof.Machine

/-- QUERY_STATUS's payload (R417). -/
def State.statusBytes (s : State) : List Byte :=
  let id := fun (im : Option Image) => leBytes 8 ((im.map (fun x => (Image.id x).toNat)).getD 0)
  let st := match s.dist.staged with
    | none => 0
    | some x => if x.armedAt.isSome then 3 else if x.verified then 2 else 1
  s.mirrorBytes ++ id s.dist.active ++ id (s.dist.staged.map (·.image)) ++ leBytes 1 st ++ leBytes 7 0 ++
  leBytes 8 ((s.dist.staged.bind (·.armedAt)).getD 0) ++
  (List.range 4).flatMap (fun c => leBytes 4 (s.dist.queue.filter (fun h => h.core == c)).length)

/-- QUERY_STATUS (R417). -/
def execQueryStatus (req : Request) (s : State) : Out :=
  .next (s.message req 0x0001 (fun s => (s, { payload := s.statusBytes })))

/-- The open grant region that a message names (R419, R426). -/
def State.grantOf (s : State) (b : List Byte) : Option Grant := s.dist.grants.find? (fun g => g.id == field b 0x20 2 && !g.closing)

/-- The check of a range block against its grant region: the region, or the code (R419). -/
def State.rangeCheck (s : State) (b : List Byte) : Except Code Grant :=
  match s.grantOf b with
  | none => .error 0x0241
  | some g => if g.bytes < field b 0x28 8 + field b 0x30 8 then .error 0x0242 else .ok g

/-- µs from now to the edge of a tick, rounded up (R420). -/
def State.usToTick (s : State) (t : Nat) : Nat :=
  ceilDiv (s.tick.lastEdge + Time.ns ((t - s.tick.count.toNat) * s.tick.periodNs.toNat) - s.now) 17000

/-- PATTERN_STAGE (R36, R420). -/
def State.patternStage (b : List Byte) (s : State) : State × Reply :=
  match s.dist.staged.bind (·.armedAt), s.rangeCheck b with
  | some t, _ => (s, { status := 0x0101, retry := s.usToTick t })
  | none, .error c => (s, refuse c)
  | none, .ok g =>
    let n := field b 0x30 8
    if n < 288 ∨ 2 ^ 30 < n then (s, refuse 0x0203)
    else
      let (s, bytes, _) := s.readRange 0 (g.base + field b 0x28 8) n
      let im : Image := bytes
      if field im 0x18 8 ≠ n then (s, refuse 0x0203)
      else if s.dist.active.any (fun a => Image.id a == Image.id im) then (s, refuse 0x0214)
      else ({ s with dist := { s.dist with staged := some { image := im } } },
            { payload := leBytes 8 (Image.id im).toNat ++ leBytes 8 n })

/-- PATTERN_STAGE (R420). -/
def execPatternStage (req : Request) (s : State) : Out := .next (s.message req 0x0010 (State.patternStage req.bytes))

/-- The staged pattern that a message names (R421). -/
def State.stagedNamed (s : State) (b : List Byte) : Option Staged :=
  s.dist.staged.filter (fun x => (Image.id x.image).toNat == field b 0x20 8)

/-- The programs of a verified pattern go into every spindle's inactive bank; the words beyond a program are 0 (R34, R422, R538). -/
def State.writeBanks (s : State) (im : Image) : State :=
  { s with spindles := vall s.spindles (fun i x =>
      let bank := bankOf ((im.find 1 i.val).getD [])
      { x with seq := if x.seq.activeBank then { x.seq with bank0 := bank } else { x.seq with bank1 := bank } }) }

/-- PATTERN_VERIFY (R36, R421, R422): an armed pattern's banks are not written again. -/
def State.patternVerify (b : List Byte) (s : State) : State × Reply :=
  match s.stagedNamed b with
  | none => (s, refuse 0x0215)
  | some x => match s.verifyPattern x.image with
    | some f => (s, { status := f.code, payload := leBytes 2 f.sec ++ leBytes 2 f.scope ++ leBytes 4 0 ++ leBytes 8 f.off })
    | none =>
      let s := if x.armedAt.isSome then s
        else ({ s with dist := { s.dist with staged := some { x with verified := true } } }).writeBanks x.image
      (s, { payload := leBytes 2 0xFFFF ++ leBytes 2 0 ++ leBytes 4 0 ++ leBytes 8 0 })

/-- PATTERN_VERIFY (R422). -/
def execPatternVerify (req : Request) (s : State) : Out := .next (s.message req 0x0011 (State.patternVerify req.bytes))

/-- PATTERN_ARM (R31, R35, R48, R421, R422, R440). -/
def State.patternArm (b : List Byte) (s : State) : State × Reply :=
  let sw := field b 0x28 8
  match s.stagedNamed b with
  | none => (s, refuse 0x0215)
  | some x =>
    let conflict := fun (j : Job) =>
      if j.pattern == Image.id x.image then decide (j.accept < sw) else decide (sw ≤ j.promise)
    if !x.verified then (s, refuse 0x0213)
    else if sw < s.tick.count.toNat + 2 then (s, refuse 0x0211)
    else if s.dist.jobs.any conflict then (s, refuse 0x0212)
    else match firstFault [s.checkTick x.image, s.checkEnergy x.image] with
      | some f => (s, refuse f.code)
      | none => ({ s with dist := { s.dist with staged := some { x with armedAt := some sw } } }, {})

/-- PATTERN_ARM (R35). -/
def execPatternArm (req : Request) (s : State) : Out := .next (s.message req 0x0012 (State.patternArm req.bytes))

/-- PATTERN_DISCARD (R421). -/
def State.patternDiscard (b : List Byte) (s : State) : State × Reply :=
  match s.stagedNamed b with
  | none => (s, refuse 0x0215)
  | some x =>
    if x.armedAt.isSome && s.dist.jobs.any (fun j => j.pattern == Image.id x.image) then (s, refuse 0x0212)
    else ({ s with dist := { s.dist with staged := none } }, {})

/-- PATTERN_DISCARD (R421). -/
def execPatternDiscard (req : Request) (s : State) : Out := .next (s.message req 0x0013 (State.patternDiscard req.bytes))

/-- The pattern a job may run: the active one, or an armed one with its switch tick (R427). -/
def State.jobPattern (s : State) (id : Nat) : Option (Image × Option Nat) :=
  if s.dist.active.any (fun im => (Image.id im).toNat == id) then s.dist.active.map (fun im => (im, none))
  else match s.dist.staged with
    | some x => if (Image.id x.image).toNat = id then x.armedAt.map (fun t => (x.image, some t)) else none
    | none => none

/-- A fabric region that a pattern names keeps the job out: fencing, loading, releasing, powered off or stopped by a capture (R427). -/
def State.fabricBusy (s : State) (im : Image) : Bool :=
  (s.patternRegions im).any (fun r => decide (2 ≤ (s.region r).state.toNat))

/-- JOB_SUBMIT (R425, R427 to R429, R440); in manufacturing test there is no pattern to run (R463). -/
def State.jobSubmit (b : List Byte) (s : State) : State × Reply :=
  let id := field b 0x20 8
  let n := field b 0x30 8
  let want := field b 0x38 8
  let r := field b 0x40 2
  let used := fun (j : Job) => j.id.toNat == id
  if s.sec.testMode then (s, refuse 0x0220)
  else if n = 0 ∨ 2 ^ 40 < n ∨ 1024 < r then (s, refuse 0x0226)
  else if id = 0 ∨ s.dist.jobs.any used ∨ s.dist.ended.any used then (s, refuse 0x0227)
  else if 16 ≤ s.dist.jobs.length then (s, refuse 0x0222)
  else match s.jobPattern (field b 0x28 8) with
    | none => (s, refuse 0x0220)
    | some (im, sw) =>
      let a := max (max want (s.tick.count.toNat + 2)) (max ((s.dist.jobs.map (·.promise)).foldl max 0) (sw.getD 0))
      let p := a + n + r
      if s.fabricBusy im then (s, refuse 0x0224)
      else if sw.isNone && (s.dist.staged.bind (·.armedAt)).any (fun t => decide (t ≤ p)) then (s, refuse 0x0223)
      else if 1 < s.devices ∧ want ≠ 0 ∧ a ≠ want then (s, refuse 0x0223)
      else
        let job : Job := { id := BitVec.ofNat 64 id, pattern := Image.id im, steps := n, reruns := r, notify := bit (field b 0x42 1) 0
                           accept := a, promise := p, commit := { jobId := BitVec.ofNat 64 id } }
        ({ s with dist := { s.dist with jobs := s.dist.jobs ++ [job] } }, { payload := leBytes 8 id ++ leBytes 8 a ++ leBytes 8 p })

/-- JOB_SUBMIT (R427). -/
def execJobSubmit (req : Request) (s : State) : Out := .next (s.message req 0x0020 (State.jobSubmit req.bytes))

/-- JOB_CANCEL (R428): a job of which no step can begin any more ends at once. -/
def State.jobCancel (b : List Byte) (s : State) : State × Reply :=
  let id := field b 0x20 8
  let at_ := if field b 0x28 8 = 0 then s.tick.count.toNat + 2 else field b 0x28 8
  match s.dist.jobs.find? (fun j => j.id.toNat == id) with
  | none => (s, refuse 0x0225)
  | some j =>
    if at_ < s.tick.count.toNat + 2 then (s, refuse 0x0223)
    else if j.state == .queued && decide (at_ ≤ j.accept) then (s.endJob j.id .cancelled 0x0231, {})
    else (s.modJob j.id (fun j => { j with cancelAt := some at_ }), {})

/-- JOB_CANCEL (R428). -/
def execJobCancel (req : Request) (s : State) : Out := .next (s.message req 0x0021 (State.jobCancel req.bytes))

/-- The bytes of a commit record (R40). -/
def CommitRec.bytes (c : CommitRec) : List Byte :=
  leBytes 8 c.jobId.toNat ++ leBytes 32 c.currentHalf.toNat ++ leBytes 8 0 ++ leBytes 8 c.committedTick.toNat ++
  leBytes 8 c.committedStep.toNat

/-- The end report of a job (R431). -/
def Job.endReport (j : Job) : List Byte :=
  leBytes 8 j.id.toNat ++ leBytes 2 j.endCode.toNat ++ leBytes 2 j.firstCause.toNat ++ leBytes 2 j.origin.toNat ++
  leBytes 2 j.unit.toNat ++ leBytes 8 j.lastStep ++ leBytes 8 j.lastTick ++ leBytes 8 j.commit.committedStep.toNat ++
  leBytes 4 j.discarded ++ leBytes 4 j.aux0.toNat ++ leBytes 4 j.aux1.toNat ++ leBytes 4 0 ++ leBytes 8 j.addr.toNat ++
  sliceBytes j.resume 0 32 ++ leBytes 32 0

/-- Code of a job's state (R428). -/
def JobState.code : JobState → Nat
  | .queued => 0 | .running => 1 | .delivered => 2 | .endedEarly => 3 | .cancelled => 4

/-- JOB_STATUS (R428). -/
def State.jobStatus (b : List Byte) (s : State) : State × Reply :=
  match (s.dist.jobs ++ s.dist.ended).find? (fun j => j.id.toNat == field b 0x20 8) with
  | none => (s, refuse 0x0225)
  | some j =>
    let report := if j.state.code < 2 then List.replicate 128 0 else j.endReport
    (s, { payload := leBytes 1 j.state.code ++ leBytes 7 0 ++ leBytes 8 j.accept ++ leBytes 8 j.promise ++ j.commit.bytes ++ report })

/-- JOB_STATUS (R428). -/
def execJobStatus (req : Request) (s : State) : Out := .next (s.message req 0x0022 (State.jobStatus req.bytes))

/-- Every byte of a range lies in a region of the map in effect; the first argument bounds the regions that it may span. -/
def State.mapped (s : State) : Nat → Nat → Nat → Bool
  | 0, _, n => n == 0
  | k + 1, a, n =>
    if n = 0 then true
    else match s.regionAt a with
      | none => false
      | some g => s.mapped k (g.base + g.size) (n - (g.base + g.size - a))

/-- A grant may cover a range with a direction: mapped memory, no firmware area, and the crash area for reading alone (R413, R426,
R472). -/
def State.grantable (s : State) (a n dir : Nat) : Bool :=
  let crash := s.flt.crashBase.toNat
  a % 4096 == 0 && n % 4096 == 0 && n != 0 && s.mapped (s.dist.map.length + 1) a n &&
  (crash == 0 || (!spansMeet (a, n) (crash + 0x1000000, firmwareBytes - 0x1000000) &&
    !(bit dir 0 && spansMeet (a, n) (crash, 0x1000000))))

/-- GRANT_OPEN (R426): the lowest free identifier is taken (log 52). -/
def State.grantOpen (b : List Byte) (s : State) : State × Reply :=
  let a := field b 0x20 8
  let n := field b 0x28 8
  let dir := field b 0x30 1
  if dir = 0 then (s, refuse 0x0105)
  else if !s.grantable a n dir then (s, refuse 0x0240)
  else match (List.range 64).find? (fun i => !s.dist.grants.any (fun g => g.id == i)) with
    | none => (s, refuse 0x0243)
    | some id =>
      let g : Grant := { id := id, base := a, bytes := n, dirIn := bit dir 0, dirOut := bit dir 1 }
      ({ s with dist := { s.dist with grants := s.dist.grants ++ [g] } }, { payload := leBytes 2 id ++ leBytes 6 0 })

/-- GRANT_OPEN (R426). -/
def execGrantOpen (req : Request) (s : State) : Out := .next (s.message req 0x0030 (State.grantOpen req.bytes))

/-- GRANT_CLOSE (R406, R426): no new check passes; the region closes with its last transfer. -/
def State.grantClose (b : List Byte) (s : State) : State × Reply :=
  match s.grantOf b with
  | none => (s, refuse 0x0241)
  | some g =>
    let gs := s.dist.grants.map (fun x => if x.id = g.id then { x with closing := true } else x)
    ({ s with dist := { s.dist with grants := gs.filter (fun x => !(x.closing && x.transfers == 0)) } },
     { payload := leBytes 4 g.transfers ++ leBytes 4 0 })

/-- GRANT_CLOSE (R426). -/
def execGrantClose (req : Request) (s : State) : Out := .next (s.message req 0x0031 (State.grantClose req.bytes))

/-- A transfer or staging on a grant region begins. -/
def State.beginCopy (s : State) (id : Nat) : State :=
  { s with dist := { s.dist with grants := s.dist.grants.map (fun g => if g.id = id then { g with transfers := g.transfers + 1 } else g) } }

/-- A bulk message (R401 to R403, R419): the agent checks the whole range and its direction; the engine runs it later. -/
def State.bulkMessage (q : Request) (toDevice : Bool) (s : State) : State × Reply :=
  let b := q.bytes
  let stop := fun (c : Code) => (s, ({ status := c, payload := leBytes 8 0 } : Reply))
  match s.rangeCheck b with
  | .error c => stop c
  | .ok g =>
    let total := field b 0x30 8
    let entries := field b 0x40 4
    if !(if toDevice then g.dirIn else g.dirOut) then stop 0x0242
    else if total = 0 ∨ 2 ^ 36 < total ∨ entries = 0 ∨ 65536 < entries ∨ field b 0x38 8 % 16 ≠ 0 then stop 0x0244
    else if h : q.transport.val < 8 then
      if (s.slv.bulk[q.transport.val]).isSome then stop 0x0101
      else
        let x : Bulk := { toDevice := toDevice, grant := g.id, base := g.base, offset := field b 0x28 8, total := total
                          listAddr := field b 0x38 8, entries := entries, crossing := q.crossing, reqHeader := b.take 32, arrived := s.now }
        let s := s.beginCopy g.id
        ({ s with slv := { s.slv with bulk := vmod s.slv.bulk ⟨q.transport.val, h⟩ (fun _ => some x) } }, { later := true })
    else stop 0x0102

/-- BULK_IN (R403). -/
def execBulkIn (req : Request) (s : State) : Out := .next (s.message req 0x0032 (State.bulkMessage req true))
/-- BULK_OUT (R403). -/
def execBulkOut (req : Request) (s : State) : Out := .next (s.message req 0x0033 (State.bulkMessage req false))

/-- POWER_CAP_SET (R435). -/
def State.powerCapSet (b : List Byte) (s : State) : State × Reply :=
  let w := field b 0x20 2
  if s.pwr.limitW.toNat < w then (s, refuse 0x0250)
  else if !s.capCovers w then (s, refuse 0x0251)
  else (s.setCap (BitVec.ofNat 16 w), {})

/-- POWER_CAP_SET (R435). -/
def execPowerCapSet (req : Request) (s : State) : Out := .next (s.message req 0x0040 (State.powerCapSet req.bytes))

/-- RESET (R435, R481): rung 6 starts; rung 7 is asked for, and FULL_DEVICE_RESET starts it once the answer has left. -/
def State.resetMessage (b : List Byte) (s : State) : State × Reply :=
  match field b 0x20 1 with
  | 6 => (s.startAny .device 6 0x0813 false, {})
  | 7 => ({ s with flt := { s.flt with asked := some s.now } }, {})
  | _ => (s, refuse 0x0105)

/-- RESET (R435, R481). -/
def execMsgReset (req : Request) (s : State) : Out := .next (s.message req 0x0050 (State.resetMessage req.bytes))

/-- CONFIG_SET (R433): items with their entries; the bytes that pad the last one are reserved. -/
def State.configSet (b : List Byte) (s : State) : State × Reply :=
  let item := field b 0x20 2
  let n := field b 0x28 4
  let size := itemSize item
  let used := 0x30 + n * size
  if size = 0 then (s, refuse 0x0105)
  else if b.length ≠ ceilDiv used 8 * 8 then (s, refuse 0x0103)
  else if !zeroAt b used (b.length - used) then (s, refuse 0x0105)
  else
    let (s, c) := s.configItem item ((List.range n).map (fun i => sliceBytes b (0x30 + size * i) size))
    (s, { status := c })

/-- CONFIG_SET (R433). -/
def execConfigSet (req : Request) (s : State) : Out := .next (s.message req 0x0120 (State.configSet req.bytes))

/-- FABRIC_LOAD (R348, R365, R368, R374, R376, R434): the image is copied to the staging area, and answered at its outcome. -/
def State.fabricLoad (q : Request) (s : State) : State × Reply :=
  let b := q.bytes
  let n := field b 0x30 8
  let store := bit (field b 0x22 1) 0
  let stop := fun (s : State) (c : Code) => (s, ({ status := c, payload := leBytes 8 0 } : Reply))
  match s.rangeCheck b with
  | .error c => stop s c
  | .ok g =>
    let (s, bytes, _) := s.readRange 0 (g.base + field b 0x28 8) n
    let h := imgHeader bytes
    let named := if h.partialImg then h.regions else BitVec.allOnes 64
    if s.cfg.staged.isSome then stop s 0x0649
    else if !store && (regionsOf named).any s.captureCovers then stop s 0x0605
    else if s.fabric.any (fun f => f.capArmed || f.capRead) then stop s 0x0649
    else if store && decide (0x10000000 - s.cfg.primary.toNat < h.total) then stop s 0x0650
    else if !store && s.regionInUse true named then stop s 0x0604
    else
      let req : LoadReq := { transport := q.transport, crossing := q.crossing, header := b.take 32, role := s.roleNumber q.transport
                             slot := s.roleSlot q.transport }
      ((s.beginCopy g.id).stageImage { source := .load store, bytes := bytes, req := some req, grant := g.id },
       { later := true, logged := true })

/-- FABRIC_LOAD (R434). -/
def execFabricLoad (req : Request) (s : State) : Out := .next (s.message req 0x0110 (State.fabricLoad req))

/-- Regions of a die that use a clock domain (R353). -/
def State.domainRegions (s : State) (d : Die) (c : BitVec 4) : List Region :=
  ((List.finRange 16).map (regionOf d)).filter (fun r =>
    (s.region r).clkSel == c || (Config.regionDomains (regionIdx r).val (s.fabric[d]).frames).getLsbD c.toNat)

/-- FABRIC_CAPTURE (R353, R434). -/
def State.fabricCapture (b : List Byte) (s : State) : State × Reply :=
  if h : field b 0x20 1 < 4 then
    let d : Die := ⟨field b 0x20 1, h⟩
    let c := BitVec.ofNat 4 (field b 0x21 1)
    let f := s.fabric[d]
    let rs := s.domainRegions d c
    if 16 ≤ field b 0x21 1 ∨ 2 ≤ field b 0x22 1 ∨ field b 0x28 4 = 0 then (s, refuse 0x0105)
    else if (s.jobPatterns false).any (fun im => (s.patternRegions im).any (rs.contains ·)) then (s, refuse 0x0604)
    else if f.capArmed || f.capRead || f.capStopped || rs.any (fun r => (s.region r).state == 3 || (s.region r).load != .none) then
      (s, refuse 0x0605)
    else
      ((s.modFab d (fun f => { f with
        capDomain := c, capResume := field b 0x22 1 == 1, capEdge := BitVec.ofNat 32 (field b 0x28 4)
        capDst := BitVec.ofNat 48 (field b 0x30 8), capLen := field b 0x38 8 })).armCapture d, {})
  else (s, refuse 0x0105)

/-- FABRIC_CAPTURE (R434). -/
def execFabricCapture (req : Request) (s : State) : Out := .next (s.message req 0x0111 (State.fabricCapture req.bytes))

/-- The patterns that a test loop may carry: PRBS13Q, PRBS31Q and SSPRQ in the serial and far-end loops, the flit PRBS in the parallel one
(R303). -/
def loopPattern (mode pattern : Nat) : Bool :=
  match mode with
  | 0 => decide (pattern < 4)
  | 2 => pattern == 3
  | _ => decide (pattern < 3)

/-- The checker of a running loop counts the bit errors it met (R303). -/
def LinkState.countErrors (x : LinkState) (errors : Word) : LinkState :=
  if x.testRun && x.testMode != 0 then { x with testErr := satAdd 32 x.testErr errors.toNat } else x

/-- LINK_TEST (R303, R434): a loop runs only on a link that is not in use. -/
def State.linkTest (errors : Word) (b : List Byte) (s : State) : State × Reply :=
  if h : field b 0x20 1 < 96 then
    let l : Link := ⟨field b 0x20 1, h⟩
    if 4 ≤ field b 0x21 1 ∨ 2 ≤ field b 0x23 1 ∨ !loopPattern (field b 0x21 1) (field b 0x22 1) then (s, refuse 0x0105)
    else if field b 0x21 1 ≠ 0 ∧ s.linkInUse l then (s, refuse 0x0509)
    else
      let s := s.modLink l (fun x => { x.countErrors errors with
        testMode := BitVec.ofNat 2 (field b 0x21 1), testPattern := BitVec.ofNat 2 (field b 0x22 1), testRun := field b 0x23 1 == 1 })
      (s, { payload := leBytes 4 (s.links[l]).testErr.toNat ++ leBytes 4 0 })
  else (s, refuse 0x0105)

/-- LINK_TEST (R434). -/
def execLinkTest (req : Request) (errors : Word) (s : State) : Out := .next (s.message req 0x0112 (State.linkTest errors req.bytes))

end Sys2Proof.Machine
end

