-- ==== Sys2Proof/Machine/Dma.lean ====
section
/-!
DEFINITION. The DMA channel's commands: DMA_REQUEST_ISSUE, DMA_POP_FILL, DMA_LIST_COMPLETE, DMA_RESUME (R272 to R290).
-/
namespace Sys2Proof.Machine

/-- The lane's spindle of a run. -/
def DmaRun.spindle (r : DmaRun) (k : Skein) : Spindle := spindleOf k r.lane

/-- A failed check of R276 halts the channel with 0x0481, naming the unresolved address (R287, R289). -/
def State.grantFail (s : State) (c : Chan) (unit piece : Nat) (write : Bool) (a : Int) : State :=
  let s := s.modChan c (fun ch => { ch with run := ch.run.map (fun r =>
    r.noteFail { desc := r.desc, unit := unit, piece := piece, code := 0x0481, write := write, addr := a.toNat }) })
  s.settleChan c

/-- After a write: the next piece, the counters, and the landed data of a finished unit dropped. -/
def Channel.wrote (ch : Channel) (d : DmaDesc) (bytes : Nat) : Channel :=
  match ch.run with
  | none => ch
  | some r =>
    let lastPiece := d.small || decide (d.pieces ≤ r.wPiece + 1)
    let r' := { r with
      bytes := r.bytes + bytes, descBytes := r.descBytes + bytes
      wUnit := if lastPiece then r.wUnit + 1 else r.wUnit
      wPiece := if lastPiece then 0 else r.wPiece + 1
      landed := if lastPiece then r.landed.filter (fun x => x.1.unit != r.wUnit) else r.landed }
    { ch with run := some r', bytes := satAdd 32 ch.bytes bytes
              units := if lastPiece then satAdd 32 ch.units 1 else ch.units }

/-- Issue the write at the run's write position: its data has landed (R278 to R282). A padding element of a scatter
writes nothing (R281). -/
def State.issueWrite (s : State) (c : Chan) (r : DmaRun) (d : DmaDesc) (data : List Byte) : State :=
  let k := chanSkein c
  let ch := s.chan c
  let x := (r.index d r.wUnit).getD 0
  let a := d.writeAddr x r.wUnit r.wPiece
  let q : DmaReq := { tag := ch.nextTag, use := .store, desc := r.key, unit := r.wUnit, piece := r.wPiece, elem := 0,
                      addr := a.toNat, bytes := data.length }
  let poison := r.landed.any (fun x => x.1.desc == r.key && x.1.unit == r.wUnit && x.1.poison)
  if d.kind == 4 then
    let last := d.mcLast && decide (d.units ≤ r.wUnit + 1) && decide (d.pieces ≤ r.wPiece + 1)
    let s := s.modChan c (fun ch => { ch.wrote d data.length with nextTag := ch.nextTag + 1, writes := ch.writes ++ [q] })
    let s := s.send { kind := .mcast, src := dmaEndpoint k, dst := dmaEndpoint k, vc := 3, owner := .chan c, tag := q.tag,
                      addr := a.toNat, data := data, poison := poison, last := last, group := d.group, stream := d.aux % 256, ring := d.ring }
    s.settleChan c
  else
    match s.resolve (r.spindle k) d.dstSpace d.dstRegion a data.length with
    | none => s.grantFail c r.wUnit r.wPiece true a
    | some t =>
      if !s.granted true d.dstSpace t data.length then s.grantFail c r.wUnit r.wPiece true a
      else
        let s := s.modChan c (fun ch => ch.wrote d data.length)
        let s := s.chanSend c { q with addr := t } (some data) poison
        s.settleChan c

/-- The element a read position names: its index position in the table. -/
def DmaDesc.elemAt (d : DmaDesc) (u e : Nat) : Nat := u * d.elems + e

/-- Advance a run's read position past a piece. -/
def DmaRun.afterRead (r : DmaRun) (d : DmaDesc) : DmaRun :=
  if !d.small && decide (r.piece + 1 < d.pieces) then { r with piece := r.piece + 1 }
  else if r.elem + 1 < d.elems then { r with piece := 0, elem := r.elem + 1 }
  else { r with piece := 0, elem := 0, unit := r.unit + 1 }

/-- Issue the read at the run's read position (R278 to R281): a padding element is not read; an index that failed to
read halts the channel at the unit that needs it (R279). -/
def State.issueRead (s : State) (c : Chan) (r : DmaRun) (d : DmaDesc) : State :=
  let k := chanSkein c
  let ch := s.chan c
  let j := d.elemAt r.unit r.elem
  let indexed := d.kind == 2 || d.kind == 3
  match (if indexed then r.idxPiece d j else none) with
  | some p =>
    if p.status ≠ 0 then
      let s := s.modChan c (fun ch => { ch with run := ch.run.map (fun r =>
        r.noteFail { desc := r.desc, unit := r.unit, piece := 0, code := p.status, write := false, addr := p.addr }) })
      s.settleChan c
    else if r.isPad d j then s.modChan c (fun ch => { ch with run := some (r.afterRead { d with len0 := min d.len0 4096 }) })
    else send k ch j
  | none => send k ch j
where
  /-- Check and send the read. -/
  send (k : Skein) (ch : Channel) (j : Nat) : State :=
    let x := (r.index d j).getD 0
    let a := d.readAddr x r.unit r.piece
    let n := if d.small then d.len0 else d.pieceLen r.piece
    match s.resolve (r.spindle k) d.srcSpace d.srcRegion a n with
    | none => s.grantFail c r.unit r.piece false a
    | some t =>
      if !s.granted false d.srcSpace t n then s.grantFail c r.unit r.piece false a
      else
        let skip := if d.small then t % 32 else 0
        let q : DmaReq := { tag := ch.nextTag, use := .data, desc := r.key, unit := r.unit, piece := r.piece,
                            elem := r.elem, addr := t - skip, bytes := if d.small then 32 else n, skip := skip, want := n }
        let s := s.modChan c (fun ch => { ch with run := some (r.afterRead d) })
        s.chanSend c q none false

/-- Issue the next index read: pieces of 256 bytes, ascending (R279). -/
def State.issueIndex (s : State) (c : Chan) (r : DmaRun) (d : DmaDesc) : State :=
  let k := chanSkein c
  let ch := s.chan c
  let total := d.idxCount * d.idxBytes
  let n := min 256 (total - 256 * r.idxAsked)
  let a : Int := d.idxAddr + 256 * r.idxAsked
  let fail := s.modChan c (fun ch => { ch with run := some { r with
    idxAsked := r.idxAsked + 1
    idxPieces := r.idxPieces ++ [{ n := r.idxAsked, status := 0x0481, addr := a.toNat, bytes := [] }] } })
  match s.resolve (r.spindle k) d.idxSpace d.idxRegion a n with
  | none => fail
  | some t =>
    if !s.granted false d.idxSpace t n then fail
    else
      let q : DmaReq := { tag := ch.nextTag, use := .index, desc := r.key, unit := 0, piece := r.idxAsked, elem := 0,
                          addr := t, bytes := n, want := n }
      let s := s.modChan c (fun ch => { ch with run := some { r with idxAsked := r.idxAsked + 1 } })
      s.chanSend c q none false

/-- Index pieces a channel may have asked for: those the prefetch of 1 KiB allows beyond the next read (R279). -/
def DmaRun.indexLimit (r : DmaRun) (d : DmaDesc) : Nat :=
  min (ceilDiv (d.idxCount * d.idxBytes) 256) (d.elemAt r.unit r.elem * d.idxBytes / 256 + 4)

/-- A scatter passes a padding element, which writes nothing (R281). -/
def Channel.skipUnit (c : Channel) (d : DmaDesc) : Channel :=
  let c := { c with run := c.run.map (fun (r : DmaRun) => { r with skips := (r.desc, r.wUnit) :: r.skips }) }
  c.wrote { d with len0 := 1 } 0

/-- DMA_REQUEST_ISSUE (R278, R279, R290): the channel's next request, if one can issue. Landed data is written first, in unit
order; then an index ahead of the element reads, as far as the prefetch allows; then the next read. A stopping list goes on to its unit
boundary. -/
def execDmaRequestIssue (ch : Chan) (s : State) : Out := s.clocked <|
  let x := s.chan ch
  match x.run with
  | none => .next s
  | some r =>
    if x.halted || x.halting || x.doneAt.isSome || x.failing.isSome || s.now < r.acceptedAt + Time.sc 4 || (x.disable && r.atBoundary)
    then .next s
    else match (s.skeins[chanSkein ch]).runDesc r with
      | none => .next s
      | some d =>
        if d.pop && r.popped.isNone then .next s
        else
          let dataReads := (x.reads.filter (fun q => q.use != .index)).length
          let indexed := d.kind == 2 || d.kind == 3
          let goesOn := fun (u : Nat) => decide (u < d.units) && (!x.stopping || decide (u < x.stopAt))
          if goesOn r.wUnit && decide (r.wUnit < r.unit) && d.kind == 3 && r.isPad d r.wUnit then
            .next ((s.modChan ch (·.skipUnit d)).settleChan ch)
          else match (if goesOn r.wUnit && decide (x.writes.length < 64) then r.writeData d r.wUnit r.wPiece else none) with
            | some data => .next (s.issueWrite ch r d data)
            | none =>
              if goesOn r.unit then
                if indexed && decide (r.idxAsked < r.indexLimit d) then .next (s.issueIndex ch r d)
                else if indexed && (r.idxPiece d (d.elemAt r.unit r.elem)).isNone then .next s
                else if dataReads < 64 then .next (s.issueRead ch r d)
                else .next s
              else .next (s.settleChan ch)

/-- DMA_POP_FILL (R283): the awaited ring position is filled; the descriptor takes its source from the handle. -/
def execDmaPopFill (ch : Chan) (s : State) : Out := s.clocked <|
  let k := chanSkein ch
  let x := s.skeins[k]
  match (s.chan ch).run with
  | none => .next s
  | some r =>
    match x.runDesc r with
    | none => .next s
    | some d =>
      let ring := x.ring d.ring
      match (if d.pop && r.popped.isNone && !(s.chan ch).stopping then ring.handleAt ring.nextTake else none), ring.wiring with
      | some h, some w =>
        let len := h.toNat / 4096 * 256
        let src : PopSource := { space := if w.laneLocal then 1 else 0
                                 addr := w.bufferBase + h.toNat % 4096 * w.bufferStride, len := len }
        let s := s.modSk k (·.modRing d.ring (fun g => { g with nextTake := g.nextTake + 1, held := g.nextTake :: g.held }))
        let s := s.modChan ch (fun c => { c with run := some { r with
          pops := (r.desc, src) :: r.pops, heldDesc := r.desc
          held := some { ring := d.ring, pos := ring.nextTake, handle := h } } })
        .next (s.settleChan ch)
      | _, _ => .next s

/-- DMA_LIST_COMPLETE (R285): two cycles after the list's last descriptor its event is visible, the counter advances,
the pacer is charged, and the next list starts (R273). A list that ran again after its event raises none (R287). -/
def execDmaListComplete (ch : Chan) (s : State) : Out := s.clocked <|
  let x := s.chan ch
  match x.run, x.doneAt with
  | some r, some t =>
    if s.now < t + Time.sc 2 then .next s
    else
      let s := s.modChan ch (fun c => { c with
        doneAt := none, listsDone := if r.again then c.listsDone else satAdd 32 c.listsDone 1
        past := if c.writes.any (fun w => w.desc / 4096 == r.serial) then c.past ++ [{ r with again := true }] else c.past }.advance)
      .next (if r.again then s else s.charge (dieOfSkein (chanSkein ch)) (Config.dmaCharge r.bytes))
  | _, _ => .next s

/-- A list at its resume point: it sends every unit from there onward again, a bag from its first row (R286, R287). -/
def SkeinState.resumed (x : SkeinState) (r : DmaRun) (f : DmaFail) (bytesDone : Nat) : DmaRun :=
  let d := x.runDesc { r with desc := f.desc }
  let piece := if d.any (fun d => d.kind == 2 && (d.pool || d.small)) then 0 else f.piece
  let asked := match d with
    | some d => d.elemAt f.unit 0 * d.idxBytes / 256
    | none => 0
  { r with
    desc := f.desc, unit := f.unit, elem := 0, piece := piece, wUnit := f.unit, wPiece := piece, bytes := bytesDone
    descBytes := bytesDone - x.bytesBefore r f.desc 0 0
    landed := [], fail := none, idxPieces := [], idxAsked := asked
    skips := r.skips.filter (fun q => decide (q.1 < f.desc) || (q.1 == f.desc && decide (q.2 < f.unit))) }

/-- DMA_RESUME (R287): after the delay the list that failed resumes from its resume point; if it was complete, the list that runs now waits
for it. -/
def execDmaResume (ch : Chan) (s : State) : Out := s.clocked <|
  let x := s.chan ch
  match x.failing, x.retryAt with
  | some r, some t =>
    if s.now < t then .next s
    else match r.fail with
      | none => .next s
      | some f =>
        let r' := (s.skeins[chanSkein ch]).resumed r f x.res.bytesDone
        let c := { x with
          halting := false, retryAt := none, retries := satAdd 32 x.retries 1
          pushDue := x.pushDue.filter (fun p => p.1 / 4096 != r.serial || decide (p.1 % 4096 < f.desc)) }
        let c := if x.past.any (fun y => y.serial == r.serial) then
            { c with run := some r', past := c.past.filter (fun y => y.serial != r.serial), parked := c.run.toList ++ c.parked, doneAt := none }
          else c.mapRuns (fun y => if y.serial == r.serial then r' else y)
        .next (s.modChan ch (fun _ => c))
  | _, _ => .next s

end Sys2Proof.Machine
end

