-- ==== Sys2Proof/Machine/Fault.lean ====
section
/-!
DEFINITION. The fault and reset commands (chapter 17).
-/
namespace Sys2Proof.Machine

/-- Class, index, unit of the rung and rung that a hang of a unit requests (R468, R498). -/
def hangRung : WatchUnit → Nat × Nat × ResetUnit × Nat
  | .spindle i => (0, i.val, .spindle i, 1)
  | .channel c => (1, c.val, .skein (chanSkein c), 4)
  | .board k => (2, k.val, .skein k, 4)
  | .routers d => (3, d.val, .die d, 5)
  | .crossbar => (4, 0, .device, 7)

/-- WATCHDOG_HANG (R468 to R470): a unit that was watched and made no progress throughout W_h is latched, and its rung starts. -/
def execWatchdogHang (u : WatchUnit) (s : State) : Out :=
  if !s.flt.wdogEn || !s.hung u then .next s
  else
    let (cls, index, unit, rung) := hangRung u
    let s := { s with flt := { s.flt with
      hangSeen := true
      hangClass := if s.flt.hangSeen then s.flt.hangClass else BitVec.ofNat 3 cls
      hangIndex := if s.flt.hangSeen then s.flt.hangIndex else BitVec.ofNat 10 index } }
    .next ((s.report 0x0801).startAny unit rung 0x0801 false)

/-- AGENT_HEARTBEAT_MISS (R471): the agent restarts within 1 ms; register requests to its die fail until then. -/
def execAgentHeartbeatMiss (d : Die) (s : State) : Out :=
  .next ((s.modDie d (fun x => { x with agentUntil := s.now + Time.ms 1 })).report 0x0807)

/-- CORE_HEARTBEAT_MISS (R471): the core is reset alone, what it held is lost, and a fourth reset within one hour halts it. -/
def execCoreHeartbeatMiss (core : Fin 4) (s : State) : Out :=
  if !s.dist.alive || s.flt.coreHalted.getLsbD core.val then .next s
  else
    let held := s.dist.queue.filter (fun h => h.core == core.val)
    let recent := s.now :: (s.flt.coreResets[core]).filter (fun t => decide (s.now < t + Time.sec 3600))
    let s := { s with
      dist := { s.dist with
        queue := s.dist.queue.filter (fun h => h.core != core.val)
        responses := s.dist.responses.filter (fun r => !(held.any (fun h => h.transport == r.transport && h.crossing == r.crossing))) }
      flt := { s.flt with
        coreResets := vmod s.flt.coreResets core (fun _ => recent)
        coreHalted := if 4 ≤ recent.length then s.flt.coreHalted ||| (1#4 <<< core.val) else s.flt.coreHalted } }
    .next (s.report 0x0806)

/-- LANE_STUCK (R205, R539): the lane has not stopped 4,362 sc after the request; it is reported and rung 1 starts. -/
def execLaneStuck (sp : Spindle) (s : State) : Out := s.clocked <|
  let x := s.spindles[sp]
  if x.returning.isSome && x.preemptPending == some .abandon && decide (x.stopReqAt + Time.sc 4362 < s.now) then
    .next ((s.report 0x0815).startAny (.spindle sp) 1 0x0815 false)
  else .next s

/-- SPINDLE_RESET (R478): rung 1. -/
def execSpindleReset (sp : Spindle) (cause : Code) (s : State) : Out := .next (s.startAny (.spindle sp) 1 cause false)
/-- SPINDLE_POWER_CYCLE (R478): rung 2. -/
def execSpindlePowerCycle (sp : Spindle) (cause : Code) (s : State) : Out := .next (s.startAny (.spindle sp) 2 cause false)
/-- SPINDLE_MARKED_FAILED (R480): rung 3. -/
def execSpindleMarkedFailed (sp : Spindle) (cause : Code) (s : State) : Out :=
  if (s.spindles[sp]).power == .failed then .next s else .next (s.startAny (.spindle sp) 3 cause false)
/-- SKEIN_COMPUTE_RESET (R478): rung 4. -/
def execSkeinComputeReset (k : Skein) (cause : Code) (s : State) : Out := .next (s.startAny (.skein k) 4 cause false)
/-- DIE_COMPUTE_RESET (R478): rung 5. -/
def execDieComputeReset (d : Die) (cause : Code) (s : State) : Out := .next (s.startAny (.die d) 5 cause false)
/-- DEVICE_COMPUTE_RESET (R478): rung 6. -/
def execDeviceComputeReset (cause : Code) (s : State) : Out := .next (s.startAny .device 6 cause false)

/-- FULL_DEVICE_RESET (R246, R298, R478): rung 7 starts unless one runs, and memory and links train with what the board holds; a device
held in reset by its pin, its trip or its reference clock does not train. -/
def execFullDeviceReset (cause : Code) (found : Training) (s : State) : Out :=
  let s := s.startAny .device 7 cause false
  if !s.inFullReset || s.flt.dead || s.flt.trained || s.pwr.sysRstLow || s.pwr.thermtripLow || s.pwr.refCoreBad then .next s
  else .next ((s.trainMemory found).trainLinks found)

/-- The running rung over a unit. -/
def State.rungOn (s : State) (u : ResetUnit) : Option Rung := s.flt.rungs.find? (fun r => r.unit == u)

/-- A spindle that a rung held is powered and free again. -/
def State.rungSpindleOn (s : State) (i : Spindle) : State :=
  s.modSp i (fun x => if x.power == .resetting || x.power == .powerCycling then { x with power := .on } else x)

/-- RUNG_COMPLETE (R205, R477, R478): within its bound a rung frees its unit and returns the lane's staple; rung 2 ends with firmware's reload, rungs 4 to 6 with the
start of the restore, rung 7 with the boot. -/
def execRungComplete (u : ResetUnit) (s : State) : Out := s.clocked <|
  match s.rungOn u with
  | none => .next s
  | some r =>
    if r.boundFrom + rungBound r.rung < s.now then .next s
    else if r.rung = 7 then
      if s.flt.trained && !s.pwr.sysRstLow && !s.pwr.thermtripLow && !s.flt.dead then .next s.bootDevice else .next s
    else
      let s := { s with flt := { s.flt with rungs := s.flt.rungs.filter (fun x => x.unit != u) } }
      let s := (resetSpindles u).foldl State.rungSpindleOn s
      let s := (resetSkeins u).foldl (fun s k => s.modSk k (fun x => { x with inReset := false })) s
      match u with
      | .spindle i => .next ((if r.rung = 2 then s.reloadBank i else s).returnStaple i)
      | _ =>
        if s.flt.rungs.any (fun x => decide (4 ≤ x.rung)) then .next s
        else .next { s with flt := { s.flt with restoringSince := some s.now } }

/-- FLT_RESET_TIMEOUT (R477): a rung that missed its bound records 0x0802, and the next rung starts over the enclosing unit; a
full device reset that missed it holds the device in reset until power is removed. -/
def execFltResetTimeout (u : ResetUnit) (s : State) : Out :=
  match s.rungOn u with
  | none => .next s
  | some r =>
    if s.now ≤ r.boundFrom + rungBound r.rung || (r.rung = 7 && (s.pwr.sysRstLow || s.pwr.thermtripLow || s.pwr.refCoreBad)) then .next s
    else
      let s := s.report 0x0802
      let s := if r.rung = 7 then { s with flt := { s.flt with dead := true }, dist := { s.dist with alive := false } }
        else (fun (x : ResetUnit × Nat) => s.startAny x.1 x.2 0x0802 true) (escalation u r.rung)
      .next { s with flt := { s.flt with escalated := true } }

/-- RESTORE_COMPLETE (R478): firmware has restored the pattern in effect. -/
def execRestoreComplete (s : State) : Out := s.clocked <|
  if s.flt.restoringSince.isNone || !s.dist.alive || s.flt.rungs.any (fun r => decide (4 ≤ r.rung)) then .next s
  else
    let s := s.restorePattern
    .next { s with flt := { s.flt with restoringSince := none, restoredAt := some s.now } }

/-- RETURN_TO_SERVICE (R485): at the first tick edge at least 10 µs after the restore. -/
def execReturnToService (s : State) : Out :=
  match s.flt.restoredAt with
  | some t =>
    if t + Time.us 10 ≤ s.tick.lastEdge then .next { s with flt := { s.flt with outOfService := false, restoredAt := none } }
    else .next s
  | none => .next s

/-- The two dies that an edge joins record its loss (R243, R482). -/
def State.edgeLost (s : State) (e : Fin 4) : State :=
  let dies : List Die := match e.val with | 0 => [0, 1] | 1 => [2, 3] | 2 => [0, 2] | _ => [1, 3]
  dies.foldl (fun s d => s.modDie d (fun x => { x with code := if x.code = 0 then 0x0987 else x.code })) s

/-- WFT_EDGE_DOWN (R482). -/
def execWftEdgeDown (edge : Fin 4) (s : State) : Out :=
  if !(s.edges[edge]).up then .next s
  else
    let s := (s.setEdge edge (fun _ => { up := false, downAt := s.now })).edgeLost edge
    .next (s.abortCode 0x0987 edge.val)

/-- DIE_EDGE_RETRAINED (R482): the edge is back after at most three retrains of 100 µs each; nothing was lost. -/
def execDieEdgeRetrained (edge : Fin 4) (s : State) : Out :=
  let e := s.edges[edge]
  if e.up || s.inFullReset || decide (e.downAt + Time.us 300 < s.now) then .next s
  else .next (s.setEdge edge (fun e => { e with up := true }))

/-- FLT_EDGE_FAILED (R482): three retrains failed, and rung 7 starts with that cause. -/
def execFltEdgeFailed (edge : Fin 4) (s : State) : Out :=
  if (s.edges[edge]).up || s.inFullReset then .next s
  else .next (s.startAny .device 7 0x080A false)

/-- The disable state of a function (R489). -/
def State.fnOf (s : State) : Func → Fn
  | .spindle i => s.flt.spindleFn[i]
  | .channel c => s.flt.chanFn[c]
  | .link l => (s.links[l]).fn
  | .region r => (s.region r).fn
  | .hbmPc p => ((s.hbm[(⟨p.val / 64, by omega⟩ : Fin 12)]).pcFn[(⟨p.val % 64, by omega⟩ : Fin 64)])
  | .ddrCh n => (s.ddr[n]).pcFn[(0 : Fin 64)]

/-- Set the disable state of a pseudo-channel of a controller. -/
def CtlState.setFn (c : CtlState) (pc : Fin 64) (x : Fn) : CtlState := { c with pcFn := vmod c.pcFn pc (fun _ => x) }

/-- Set the disable state of a function. -/
def State.setFn (s : State) (f : Func) (x : Fn) : State :=
  match f with
  | .spindle i => { s with flt := { s.flt with spindleFn := vmod s.flt.spindleFn i (fun _ => x) } }
  | .channel c => { s with flt := { s.flt with chanFn := vmod s.flt.chanFn c (fun _ => x) } }
  | .link l => s.modLink l (fun y => { y with fn := x })
  | .region r => s.modRegion r (fun y => { y with fn := x })
  | .hbmPc p => { s with hbm := vmod s.hbm ⟨p.val / 64, by omega⟩ (·.setFn ⟨p.val % 64, by omega⟩ x) }
  | .ddrCh n => { s with ddr := vmod s.ddr n (·.setFn 0 x) }

/-- A spindle drains: its lists stop and it stops at its next pass boundary; its staple is returned (R205, R285, R490). -/
def State.drainSpindle (s : State) (i : Spindle) : State :=
  let k := skeinOf i
  let l := laneOf i
  let t := ((s.skeins[k]).inProgress.find? (fun p => p.1 == l)).map (·.2)
  let s := s.modSk k (·.stopLane l)
  let s := s.modSp i (fun x => { x with returning := if x.returning.isSome then x.returning else t })
  let s := s.abandon i
  if s.step.begun then s.markSlow i else s

/-- The work that a disable stops at once (R489 to R491). -/
def State.startDrain (s : State) (f : Func) : State :=
  match f with
  | .spindle i => s.drainSpindle i
  | .channel c => s.modChan c (fun ch => { ch with disable := true, queued := none })
  | .link l => if s.linkInUse l then s.abortCode 0x0810 l.val else s
  | .region r => s.startPowerOff r
  | _ => s

/-- FUNCTION_DISABLE (R489, R491): a function that is on drains. -/
def execFunctionDisable (f : Func) (s : State) : Out :=
  if (s.fnOf f).st != .on then .next s
  else .next ((s.setFn f { s.fnOf f with st := .draining, since := s.now, enabling := false }).startDrain f)

/-- What a draining function has in flight is complete (R490). -/
def State.drained (s : State) (f : Func) : Bool :=
  match f with
  | .spindle i =>
    let x := s.spindles[i]
    x.returning.isNone && x.passes.all (fun p => p.startedAt.isNone) && x.vec.memWrites.isEmpty && !s.listsStopping i
  | .channel c =>
    let x := (s.skeins[chanSkein c]).channels[chanIdx c]
    x.reads.isEmpty && x.writes.isEmpty && x.run.all (·.atBoundary)
  | .link l => (s.links[l]).replay.isEmpty && (s.links[l]).resend.isEmpty
  | .region r => (s.region r).state == 5
  | .hbmPc p =>
    let n : Fin 12 := ⟨p.val / 64, by omega⟩
    !s.migrating ⟨.hbm, n⟩ && !((s.hbm[n]).queue.any (fun q => q.pc == p.val % 64))
  | .ddrCh n => !s.migrating ⟨.ddr, n⟩ && (s.ddr[n]).queue.isEmpty

/-- How a function is left when off (R490). -/
def State.finishDrain (s : State) (f : Func) : State :=
  match f with
  | .spindle i => ((s.dropLane i).returnStaple i).modSp i (fun x => { x.rung2 with power := .off })
  | .channel c =>
    let ch := (s.skeins[chanSkein c]).channels[chanIdx c]
    match ch.run with
    | none => s
    | some r =>
      let s := match r.held with | some h => s.unholdPos (chanSkein c) h | none => s
      (s.modChan c (fun ch => { ch with queued := none, parked := [] }.letGo)).abortCode 0x0810 c.val
  | .link l => (s.linkDown l).modLink l (fun x => { x with downAt := none })
  | _ => s

/-- FUNCTION_DRAIN_COMPLETE (R489): draining becomes off, with the drain time in units of 16 ns. -/
def execFunctionDrainComplete (f : Func) (s : State) : Out :=
  let x := s.fnOf f
  if x.st != .draining || !s.drained f then .next s
  else
    let ns := (s.now - x.since) / Time.ns 16
    .next ((s.finishDrain f).setFn f { x with st := .off, drain := BitVec.ofNat 16 (min ns 0xFFFF) })

/-- FUNCTION_ENABLE (R490): a spindle or a channel returns at the next step start, a link by bring-up; a region returns by a
partial image and a memory channel at the next full device reset, so an enable changes nothing there. -/
def execFunctionEnable (f : Func) (s : State) : Out :=
  let x := s.fnOf f
  if x.st == .on then .next s
  else match f with
    | .spindle i => .next ((s.reloadBank i).setFn f { x with enabling := true })
    | .channel c => .next ((s.setFn f { x with enabling := true }).modChan c (fun ch => { ch with disable := false }))
    | .link l => .next ((s.modLink l (fun y => { y with downAt := some s.now })).setFn f { x with st := .on })
    | _ => .next s

/-- The emergency throttle is in force while a source raises it, and for 100 µs after the last has cleared (R492). -/
def State.emergency (s : State) : State :=
  let src := s.flt.alert || s.flt.stale || s.flt.fwForce
  if src then
    let s := if s.flt.emergActive then s else s.report 0x0821
    { s with
      flt := { s.flt with emergActive := true, emergSeen := true, clearSince := none }
      step := if s.stepOpen then { s.step with level15 := true, emergency := true } else s.step }
  else if s.flt.emergActive && s.flt.clearSince.isNone then { s with flt := { s.flt with clearSince := some s.now } }
  else s

/-- Vector 36 is raised when the level of a die differs from what it was in `pre` (R432). -/
def State.levelChange (s pre : State) : State :=
  if (List.finRange 4).all (fun d => s.dieLevel d == pre.dieLevel d) then s else s.raiseVector 36

/-- ALERT_N_LOW (R492). -/
def execAlertNLow (s : State) : Out :=
  if s.pwr.thermtripLow then .next { s with pwr := { s.pwr with alertPin := true }, flt := { s.flt with alert := true } }
  else .next (({ s with pwr := { s.pwr with alertPin := true }, flt := { s.flt with alert := true } }).emergency.levelChange s)

/-- THERMAL_READINGS_STALE (R492): no reading of a die for 10 ms. -/
def execThermalReadingsStale (d : Die) (s : State) : Out :=
  if s.now ≤ (s.pwr.therm[d]).readAt + Time.ms 10 then .next s
  else
    let s := { s with
      pwr := { s.pwr with therm := vmod s.pwr.therm d (fun t => { t with stale := true }) }
      flt := { s.flt with stale := true } }
    .next (s.emergency.levelChange s)

/-- EMERGENCY_FW_FORCE (R492). -/
def execEmergencyFwForce (on : Bool) (s : State) : Out := .next (({ s with flt := { s.flt with fwForce := on } }).emergency.levelChange s)

/-- EMERGENCY_THROTTLE_END (R492): every source has been clear for 100 µs; that ALERT_N has been high is the event's own. -/
def execEmergencyThrottleEnd (s : State) : Out :=
  if !s.flt.emergActive || s.flt.stale || s.flt.fwForce || s.flt.clearSince.any (fun t => decide (s.now < t + Time.us 100)) then .next s
  else .next (({ s with
    flt := { s.flt with emergActive := false, alert := false, clearSince := none }
    pwr := { s.pwr with alertPin := false } } : State).levelChange s)

end Sys2Proof.Machine
end

