-- ==== Sys2Proof/Machine/Grid.lean ====
section
/-!
DEFINITION. The commands of a spindle's grid (chapter 02, chapter 05).
-/
namespace Sys2Proof.Machine

/-- WEIGHT_LOAD (R66, R156): the weight port begins the load of the first pass whose weights are not there, queued or armed
with its weight block in place, once the pass before it has started. -/
def execWeightLoad (sp : Spindle) (s : State) : Out := s.clocked <|
  let x := s.spindles[sp]
  let free := x.inGrid.all (fun g => g.startedAt.any (fun t => decide (t + Time.sc 1 ≤ s.now)) && g.restartAt.isNone)
  let armedA := x.armed.filter (fun p => p.chain.any (fun c => !c.trigW))
  match (x.passes.filter (fun p => p.startedAt.isNone) ++ armedA).head? with
  | none => .next s
  | some p =>
    if s.spDown sp || p.noLoad || p.weights.isSome || p.loadAt.isSome || !free || decide (s.now < p.issuedAt) then .next s
    else
      let w := x.fetchWeights p.desc
      let f := modPass (fun q => q == p) (fun q => { q with loadAt := some s.now })
      .next (s.modSp sp (fun x => { x with shadow := some w, passes := f x.passes, armed := f x.armed }))

/-- PASS_START (R65, R85, R86): the pacer is charged, the shadow weights become active, and a chain's areas are checked (R151,
R153). -/
def execPassStart (sp : Spindle) (s : State) : Out := s.clocked <|
  match (s.spindles[sp]).head with
  | none => .next s
  | some p =>
    if !s.mayStart sp p then .next s
    else
      let x := s.spindles[sp]
      if p.chain.any (fun c => !x.areasOk p.desc c) then
        .next ((s.dropPasses sp (· == p)).hardFault sp 6 p.desc.tag (x.edgeRow s.now))
      else
        let s := if p.charged then s else s.charge (dieOf sp) (p.desc.charge s.paceCoef)
        let w := match p.weights with
          | some w => some w
          | none => if p.noLoad then x.active else x.shadow
        let free := s.now + Time.sc p.desc.interval
        .next (s.modSp sp (fun x => { x with
          active := w
          shadow := if p.noLoad || p.weights.isSome then x.shadow else none
          gridFree := some (free, p.desc.interval)
          passes := modPass (fun q => q.startedAt.isNone)
            (fun q => { q with startedAt := some s.now, charged := true, weights := w }) x.passes }))

/-- What a pass with a chain leaves: the bytes its chain writes, and its accumulator rows (R159). -/
def Pass.outputs (p : Pass) : List (Nat × Nat) :=
  if p.chain.isSome then (0x800000 + 512 * p.desc.accRow, 512 * p.desc.rows) :: p.written else []

/-- PASS_COMPLETE (R64, R73, R109): results and select bits, counters, the numeric report and its fault. Operand bytes that
read as uncorrectable make it cause 5 (R82, R225). -/
def execPassComplete (sp : Spindle) (s : State) : Out :=
  match (s.spindles[sp]).inGrid with
  | [] => .next s
  | p :: _ =>
    let x := s.spindles[sp]
    let done := p.restartAt.isNone && p.startedAt.any (fun t => decide (t + Time.sc p.desc.latency ≤ s.now))
    if !done || s.spDown sp then .next s
    else
      let rest := x.passes.filter (· != p)
      if x.operandsBad p then
        .next (((s.discardPasses sp (· == p)).hardFault sp 5 p.desc.tag (x.badRow p.desc s.fresh)).nextFree)
      else
        let w := p.weights.getD { shape := 0, cls := 0, addr := 0, block := [], scales := [] }
        let o := x.runPass p.desc p.chain w s.seed
        let x := { x.complete p.desc o with passes := rest, wrote := x.wrote ++ p.outputs }
        let n := x.num.take o.rep p.desc.tag
        let f : Fmt := fp32
        let (n, code) := match o.record with
          | some r => n.contribute r f o.contributions
          | none => (n, 0)
        let q := x.seq.passDone p.waits
        let q := match p.held with
          | some h => { q with pops := q.pops ++ [{ skein := skeinOf sp, ring := h.ring, pos := h.pos, handle := h.handle }] }
          | none => q
        let rep := { o.rep with code := code }
        let s := s.modSp sp (fun _ => { x with num := n, seq := q })
        .next (s.numFault sp (rep.fault n.mask))

/-- PREEMPT_REQ (R78): resume pre-emption is requested. -/
def execPreemptReq (sp : Spindle) (s : State) : Out := .next (s.modSp sp (·.reqResume s.now))

/-- PREEMPTION_TAKEN (R78, R84, R205, R212, R290): no pass is left in the grid and no list of the lane is stopping. A running routine is
offered the pre-emption interrupt; an abandoned staple gives its positions back and goes to the returned queue, and its lane continues at
the NEXT that took it. -/
def execPreemptionTaken (sp : Spindle) (s : State) : Out := s.clocked <|
  let x := s.spindles[sp]
  if !x.inGrid.isEmpty || decide (s.now < x.takeAt) then .next s
  else match x.preemptPending with
    | none => .next s
    | some .resume =>
      .next (s.modSp sp (fun x => { x with
        preemptPending := none, preempted := true
        vec := if x.vec.running && x.vec.preEn then { x.vec with pending := x.vec.pending ||| 1 } else x.vec }))
    | some .abandon =>
      if s.listsStopping sp then .next s
      else
        let s := ((s.drainEngine sp).dropStaple sp).modSp sp (fun x => { x with preemptPending := none })
        if x.returning.isNone then .next (s.modSp sp (fun x => { x with preempted := true }))
        else .next ((s.returnStaple sp).modSp sp (fun x => { x with seq := { x.seq with pc := x.seq.nextPc } }))

/-- RESUME (R78): the spindle continues its pass queue. -/
def execResume (sp : Spindle) (s : State) : Out :=
  .next (s.modSp sp (fun x => { x with preempted := false }))

/-- A load under way into the shadow registers is interrupted and begins again at a time (R80). -/
def Pass.reload (p : Pass) (now again : Time) : Pass :=
  if p.startedAt.isNone && p.weights.isNone && p.loadAt.any (fun t => decide (now < t + Time.sc 128)) then { p with loadAt := some again } else p

/-- A restartable fault in pass P, with `after` the later passes of the grid (R79, R80, R84): they are discarded, to start again from
f + 133, or, with resume pre-emption pending, to return to the head of the queue; pre-emption is then taken in cycle f + 5. -/
def SpindleState.restartFault (x : SpindleState) (p : Pass) (after : List Pass) (now : Time) : SpindleState :=
  let again := now + Time.sc 133
  let flushed := now + Time.sc 5
  let x := { x with restarted := true, restarts := satAdd 16 x.restarts 1 }
  match x.preemptPending with
  | none =>
    { x with
      armed := x.armed.map (·.reload now again)
      passes := x.passes.map (fun q =>
        if q == p then q.discard again true else if after.contains q then q.backToQueue again false else q.reload now again) }
  | some _ =>
    { x with
      gridFree := x.gridFree.map (fun g => (flushed, g.2)), takeAt := flushed
      passes := x.passes.map (fun q =>
        if q == p then q.backToQueue flushed true else if after.contains q then q.backToQueue flushed false else q) }

/-- GRID_FAULT (R79 to R81, R84, R157): the pass and any later pass in the grid are discarded, to start again. Under an abandon they are
dropped; past retry_limit they are too, cause 8 is recorded and the step aborts. -/
def execGridFault (sp : Spindle) (later : Bool) (c : GridCause) (row : BitVec 12) (s : State) : Out := s.clocked <|
  let x := s.spindles[sp]
  match (if later then x.inGrid[1]? else x.inGrid[0]?) with
  | none => .next s
  | some p =>
    if p.restartAt.isSome then .next s
    else
      let after := (x.inGrid.dropWhile (· != p)).drop 1
      let s := s.modSp sp (·.latchFault (gridCauseCode c) p.desc.tag row)
      if x.preemptPending == some .abandon then
        .next ((s.dropPasses sp (p :: after).contains).modSp sp (fun x => { x with
          gridFree := x.gridFree.map (fun g => (s.now + Time.sc 5, g.2)), takeAt := s.now + Time.sc 5 }))
      else if x.retryLimit.toNat ≤ p.restarts then .next ((s.discardPasses sp (p :: after).contains).retryFault sp p.desc.tag row)
      else
        let s := s.modSp sp (·.restartFault p after s.now)
        if (s.skeins[skeinOf sp]).restartLimit.toNat < (s.spindles[sp]).restarts.toNat then .next (s.markSlow sp) else .next s

/-- PASS_RESTART (R80): the discarded pass starts again as cycle 0, with no new charge and no thermal wait. -/
def execPassRestart (sp : Spindle) (s : State) : Out :=
  let x := s.spindles[sp]
  match x.passes.find? (fun p => p.restartAt.isSome) with
  | none => .next s
  | some p =>
    if p.restartAt.any (fun t => decide (t ≤ s.now)) && !s.spDown sp then
      let free := s.now + Time.sc p.desc.interval
      .next (s.modSp sp (fun x => { x with
        active := p.weights
        gridFree := some (free, p.desc.interval)
        passes := x.passes.map (fun q => if q == p then { q with startedAt := some s.now, restartAt := none } else q) }))
    else .next s

/-- NON_RESTARTABLE_FAULT (R82): the pass is discarded, no further pass starts, the step aborts. -/
def execNonRestartableFault (sp : Spindle) (later : Bool) (c : HardCause) (row : BitVec 12) (s : State) : Out := s.clocked <|
  let x := s.spindles[sp]
  match (if later then x.inGrid[1]? else x.inGrid[0]?) with
  | none => .next s
  | some p =>
    .next ((s.discardPasses sp (· == p)).hardFault sp (hardCauseCode c) p.desc.tag row)

/-- Device address of a handle's buffer, as a scratchpad offset of a spindle where it lies in its window (R155, R208). -/
def RingWiring.bufferIn (w : RingWiring) (i : Spindle) (index : Nat) : Nat :=
  let a := w.bufferBase + index * w.bufferStride
  if w.laneLocal then a else a - spindleBase i

/-- The passes armed behind a triggered one, once its weight block has its address: those that reuse the block protect it there, and so does
the next pass issued, unless one of them loads another (R66, R75). -/
def SpindleState.relink (x : SpindleState) (p : Pass) (a : Nat) (rest : List Pass) : SpindleState :=
  if !p.chain.any (·.trigW) || p.noLoad then { x with armed := rest }
  else
    let own := rest.takeWhile (·.noLoad)
    { x with armed := own.map (fun q => if q.desc.reuse then { q with blockAddr := a } else q) ++ rest.drop own.length
             lastLoad := if own.length = rest.length then some (p.desc.cls, a) else x.lastLoad }

/-- TRIGGER_TAKE (R155 to R157): the handle at the position the oldest armed pass waits on is taken, and the pass issues with
the buffer's address; a handle too short for its operand is cause 6. -/
def execTriggerTake (sp : Spindle) (s : State) : Out :=
  let x := s.spindles[sp]
  match x.armed with
  | [] => .next s
  | p :: rest =>
    match p.chain with
    | none => .next s
    | some c =>
      let r := (s.skeins[skeinOf sp]).ring c.trigRing
      match r.wiring, r.handleAt p.wantPos with
      | some w, some h =>
        if 2 ≤ x.passes.length || x.preemptPending == some .abandon || s.spDown sp then .next s
        else
          let a := w.bufferIn sp (h.toNat % 4096)
          let d : PassDesc := if c.trigW then { p.desc with wAddr := a } else { p.desc with aAddr := a }
          let len := h.toNat / 4096 * 256
          let need := if !c.trigW then (d.m - 1) * d.aStride + d.rowBytes
            else if d.shape = 3 then (d.m - 1) * d.wStride + d.rowBytes else 0x8000
          let ok := decide (need ≤ len) && inScratch d.aRows && inScratch d.wRows && decide (a % 256 = 0) &&
            (isIngest sp || !((groupsOf d.aRows).any ((groupsOf d.wRows).contains ·)))
          if !ok then .next ((s.dropPasses sp (· == p)).hardFault sp 6 d.tag (x.edgeRow s.now))
          else
            let held : HeldPos := { ring := c.trigRing, pos := p.wantPos, handle := h }
            let q := { p with desc := d, held := some held
                              issuedAt := if c.trigW then s.now else p.issuedAt
                              blockAddr := if c.trigW then d.wAddr else p.blockAddr }
            let s := s.modSk (skeinOf sp) (·.modRing c.trigRing (fun g => { g with held := g.held ++ [p.wantPos] }))
            .next (s.modSp sp (fun x => { x.relink p a rest with passes := x.passes ++ [q] }))
      | _, _ => .next s

end Sys2Proof.Machine
end

