-- ==== Sys2Proof/Machine/Images.lean ====
section
/-!
DEFINITION. The commands of personality images (chapter 13).
-/
namespace Sys2Proof.Machine

/-- BOOT_ACTION (R367): after the distaff has booted, firmware acts on CFG_BOOT. -/
def execBootAction (s : State) : Out :=
  if !s.cfg.bootDue || !s.dist.alive || s.cfg.staged.isSome then .next s
  else .next ({ s with cfg := { s.cfg with bootDue := false } }).startUp

/-- Put back the staged image, changed. -/
def State.setStaged (s : State) (img : StagedImage) (state : BitVec 4) : State :=
  { s with cfg := { s.cfg with staged := some img, state := state } }

/-- IMAGE_STAGED (R365 to R369): the image stands whole in the staging area, and checks 1 to 4 run. -/
def execImageStaged (flashOk : Bool) (s : State) : Out :=
  match s.cfg.staged with
  | none => .next s
  | some img =>
    if img.pass != .staging then .next s
    else
      let flash := match img.source with | .load _ => false | _ => true
      let s := match img.source with | .load _ => s.endCopy img.grant | _ => s
      if flash && !flashOk then .next (s.imageFails img (0x064D, 0))
      else
        let at_ := s.imageFlash img.source
        let area := s.imageArea img.source
        let bytes := if flash then s.flashRead at_ (min area (max 128 (imgHeader (s.flashRead at_ 128)).total)) else img.bytes
        let img := { img with bytes := bytes, pass := .staged }
        let form := imgCheckForm bytes area
        let fault := if form.1 ≠ 0 then form else s.imgCheckKeys bytes (img.source == .golden)
        if fault.1 ≠ 0 then .next (s.imageFails img fault) else .next (s.setStaged img 2)

/-- AUTHENTICATION_PASS (R364 to R366): checks 5 and 6; the key and its slot are looked up afresh (R376). -/
def execAuthenticationPass (s : State) : Out :=
  match s.cfg.staged with
  | none => .next s
  | some img =>
    if img.pass != .staged then .next s
    else
      let keys := s.imgCheckKeys img.bytes (img.source == .golden)
      if keys.1 ≠ 0 then .next (s.imageFails img keys)
      else
        let (fault, plain) := s.imgAuthenticate img.bytes
        if fault.1 ≠ 0 then .next (s.imageFails img fault) else .next (s.setStaged { img with pass := .authentic, plain := plain } 3)

/-- CHECK_PASS (R362, R365, R434): checks 7 to 9; an image to store is written to flash after check 7 and not loaded. -/
def execCheckPass (vccioOk designOk : Bool) (s : State) : Out :=
  match s.cfg.staged with
  | none => .next s
  | some img =>
    if img.pass != .authentic then .next s
    else
      let free := (Config.freeWord s.fresh).toNat
      let s := s.nextFree
      let records := imgCheckRecords img.bytes img.plain free
      if records.1 ≠ 0 then .next (s.imageFails img records)
      else if img.source == .load true then
        let s := s.logLoad img 0
        let s := s.flashWrite s.cfg.primary.toNat img.bytes
        let s := { s with cfg := { s.cfg with staged := none, state := img.prior } }
        .next (s.answerLoad { img with logged := true } 0 0)
      else
        let design := imgCheckDesign img.bytes img.plain vccioOk designOk free
        if design.1 ≠ 0 then .next (s.imageFails img design)
        else
          let part := s.imgCheckPartial img.bytes
          if part.1 ≠ 0 then .next (s.imageFails img part) else .next (s.setStaged { img with pass := .checked } 4)

/-- The clock domains of a full image (R330, R370). -/
def State.setClocks (s : State) (plain : List Byte) : State :=
  (cfgRecords plain).1.foldl (fun s r => match r.2 with
    | .clocks d khz => s.modFab ⟨d % 4, by omega⟩ (fun f => { f with freq := Vector.ofFn (fun i => (khz[i.val]?).getD 0) })
    | _ => s) s

/-- A full image loads (R370, R374): every region passes the fence and is cleared, then written; the device waits for DONE. -/
def State.loadFull (s : State) (img : StagedImage) : State :=
  let h := imgHeader img.bytes
  let s := s.logLoad img 0
  let s := s.clearFabric
  let s := { s with cfg := { s.cfg with progress := 0 } }
  let s := s.setClocks img.plain
  let s := (List.finRange 64).foldl (fun s r => s.writeRegion img.bytes img.plain r) s
  let s := { s with
    fabric := s.fabric.map (fun (f : FabDie) => { f with configured := true, released := false, release := .none })
    cfg := { s.cfg with
      staged := none, state := 5, doneHeld := false, doneLine := false, doneAt := s.now, golden := img.source == ImageSource.golden
      loadsFull := satAdd 16 s.cfg.loadsFull 1, version := h.version, loaded := BitVec.allOnes 64, digest := imgDigest img.bytes } }
  s.answerLoad { img with logged := true } 0 0

/-- WRITE_PASS (R349, R366, R370, R375): a full image loads once every Basez region is fenced; a partial image starts the sequence of
each region it names. -/
def execWritePass (s : State) : Out :=
  match s.cfg.staged with
  | none => .next s
  | some img =>
    if img.pass != .checked then .next s
    else
      let h := imgHeader img.bytes
      let wait := (regionsOf h.regions).filter (fun r => s.needsDrain r && (s.region r).state == 1)
      let s := wait.foldl (fun s r => s.fenceReq (regionDie r) (regionIdx r)) s
      if h.partialImg then
        let s := s.logLoad img 0
        let s := { s with cfg := { s.cfg with progress := 0 } }
        .next (s.setStaged { img with pass := .written, left := h.regions, logged := true } 4)
      else if wait.isEmpty then .next (s.loadFull img)
      else .next { s with cfg := { s.cfg with doneHeld := true, doneLine := false } }

/-- CFG_DONE_TIMEOUT (R372): DONE is still low after done_timeout_ms; the device keeps waiting. -/
def execCfgDoneTimeout (s : State) : Out :=
  if s.cfg.state != 5 || s.cfg.doneLine || decide (s.now < s.cfg.doneAt + Time.ms s.cfg.doneTimeoutMs.toNat) then .next s
  else .next { s with cfg := s.cfg.note 0x064C }

/-- A load or a capture in progress is abandoned (R373). -/
def State.abandonLoad (s : State) : State :=
  let capturing := s.fabric.any (fun f => f.capArmed || f.capRead)
  match s.cfg.staged with
  | some img => ({ s with cfg := { s.cfg.note 0x064F with staged := none } }).answerLoad img 0x064F 0
  | none => if capturing then { s with cfg := s.cfg.note 0x064F } else s

/-- PROG_N_LOW (R336, R373): PROG_N has been low for 1 µs; the fabric clears and DONE is driven low. -/
def execProgNLow (s : State) : Out :=
  if s.pwr.progLow || s.flt.rungs.any (fun r => r.rung == 7) then .next s
  else
    let s := s.abandonLoad.clearFabric
    .next { s with
      cfg := { s.cfg with state := 0, doneHeld := true, doneLine := false, loaded := 0, golden := false, version := 0
                          digest := List.replicate 32 0 }
      pwr := { s.pwr with progLow := true, progSince := s.now } }

/-- PROG_N_RISE (R373): the start-up action repeats. -/
def execProgNRise (s : State) : Out :=
  if !s.pwr.progLow then .next s
  else
    let s := { s with pwr := { s.pwr with progLow := false } }
    .next (if s.dist.alive then ({ s with cfg := { s.cfg with bootDue := false } }).startUp
           else { s with cfg := { s.cfg with bootDue := true } })

end Sys2Proof.Machine
end

