-- ==== Sys2Proof/Machine/Link.lean ====
section
/-!
DEFINITION. The warp link's commands but for TICK_FLIT (chapter 11).
-/
namespace Sys2Proof.Machine

/-- LINK_RETRAIN (R298): the link goes down and, when enabled, starts bring-up from rate 0 with identity exchange. -/
def execLinkRetrain (l : Link) (peer : PeerIdent) (s : State) : Out := s.clocked <|
  let s := s.linkDown l
  .next (if (s.links[l]).enable && !s.pwr.refWarpBad.getLsbD (linkDie l).val then
    s.bringUp l peer else s)

/-- One check of the rate under way ended (R299, R301): a lane skew above 32 ns fails it. -/
def LinkState.rateStep (x : LinkState) (passed : Bool) (skew : BitVec 10) : LinkState :=
  let ok := passed && decide (skew.toNat ≤ 512)
  let x := { x with skew := skew }
  if ok then
    if x.rate == x.target then { x with phase := .measuring }
    else { x with rate := x.rate + 1, tries := 0 }
  else
    let tries := x.tries + 1
    let x := { x with tries := tries, failedRate := x.rate, attempts := BitVec.ofNat 2 tries }
    if tries < 3 then x
    else if x.rate = 0 then { x with phase := .down, downAt := none }
    else ({ x with rate := x.rate - 1, phase := .measuring }).note 0x0503

/-- LINK_RATE_STEP (R299, R301): the link steps up, retries, or settles at the last rate that passed with 0x0503. -/
def execLinkRateStep (l : Link) (passed : Bool) (skew : BitVec 10) (s : State) : Out := s.clocked <|
  if (s.links[l]).phase != .training then .next s
  else
    let s := s.modLink l (·.rateStep passed skew)
    let low := (s.links[l]).phase == .measuring && (s.links[l]).rate != (s.links[l]).target
    .next (if low then s.trainingNote 0x0503 else s)

/-- The link meets R31 for the pattern in effect: its rate and its measured latency (R302, R315). -/
def State.linkFits (s : State) (l : Link) : Bool :=
  match s.dist.active with
  | none => true
  | some im =>
    match im.find 5 l.val with
    | none => true
    | some b => (slotTable b).rate == (s.links[l]).rate.toNat && decide ((s.links[l]).rtt.toNat ≤ 32 * im.hopLatency)

/-- LINK_LATENCY_MEASURE (R25, R300): the round trip goes to WRP_LAT, half of it to TCK_LINK_COMP where the link is a follower's upstream
link, and the link is up at fixed latency. -/
def execLinkLatencyMeasure (l : Link) (rtt : BitVec 24) (s : State) : Out := s.clocked <|
  if (s.links[l]).phase == .measuring then
    let s := s.modLink l (fun x => { x with phase := .up, rtt := rtt })
    .next (if s.tick.src == 0 && s.tick.upLink.toNat == l.val then
      { s with tick := { s.tick with linkComp := BitVec.ofNat _ (rtt.toNat / 2) } } else s)
  else .next s

/-- A lane's bit in a detector's mask. -/
def setLane (m : BitVec 2) (lane : Fin 2) (on : Bool) : BitVec 2 :=
  if on then m ||| (1#2 <<< lane.val) else m &&& ~~~(1#2 <<< lane.val)

/-- A detector of the link has changed: the 1 ms before a link that went down starts again runs from here (R302). -/
def State.detected (s : State) (l : Link) (lost : Bool) : State :=
  if lost && (s.links[l]).phase != .down then s.linkDown l
  else s.modLink l (fun x => { x with downAt := x.downAt.map (fun _ => s.now) })

/-- LOSS_OF_SIGNAL (R302). -/
def execLossOfSignal (l : Link) (lane : Fin 2) (lost : Bool) (s : State) : Out :=
  .next ((s.modLink l (fun x => { x with los := setLane x.los lane lost })).detected l lost)

/-- LOSS_OF_LOCK (R302). -/
def execLossOfLock (l : Link) (lane : Fin 2) (lost : Bool) (s : State) : Out :=
  .next ((s.modLink l (fun x => { x with lol := setLane x.lol lane lost })).detected l lost)

/-- LINK_AUTO_RETRAIN (R302): 1 ms after both detectors clear on every lane, bring-up starts again from rate 0. -/
def execLinkAutoRetrain (l : Link) (peer : PeerIdent) (s : State) : Out := s.clocked <|
  let x := s.links[l]
  if x.enable && x.autoRetrain && x.fn.st == .on && !s.pwr.refWarpBad.getLsbD (linkDie l).val && x.phase == .down &&
      x.los == 0 && x.lol == 0 && x.downAt.any (fun t => decide (t + Time.ms 1 ≤ s.now)) then
    .next (s.bringUp l peer)
  else .next s

/-- Put a flit together with its acknowledgement and CRC (R304, R306). -/
def LinkState.mkFlit (x : LinkState) (kind : BitVec 4) (last : Bool) (stream : Nat) (payload : List Byte) : Flit :=
  let f : Flit := { kind := kind, last := last, poison := false, ackValid := true
                    seq := if sequenced kind then x.txSeq else 0, ack := x.rxNext - 1
                    stream := BitVec.ofNat 16 stream, len := BitVec.ofNat 8 (payload.length / 16)
                    payload := sliceBytes payload 0 240, crc := 0 }
  { f with crc := flitCrc f }

/-- Send a flit: a new sequenced flit takes the next seq and enters the replay buffer (R306). -/
def LinkState.emit (x : LinkState) (f : Flit) : LinkState :=
  let x := { x with wire := some f, slotsSinceIdle := x.slotsSinceIdle + 1 }
  if sequenced f.kind then { x with replay := x.replay ++ [f], txSeq := x.txSeq + 1 } else x

/-- Every sequenced flit may be sent: the replay buffer has room (R306). -/
def LinkState.room (x : LinkState) : Bool := decide (x.replay.length < 256)

/-- A transmit stream has a flit it may send now (R316, R317). -/
def StreamTx.ready (t : StreamTx) : Bool := !t.out.isEmpty && decide (0 < t.credits)

/-- Send the next flit of a stream (R316, R317). -/
def LinkState.sendData (x : LinkState) (t : StreamTx) : LinkState :=
  match t.out with
  | [] => x
  | (data, last) :: rest =>
    let f := x.mkFlit 1 last t.e.stream data
    (x.emit f).modTx t.e.stream (fun u => { u with
      out := rest, credits := u.credits - 1
      held := if last then
          match u.held.findIdx? (fun h => h.2.isNone) with
          | some i => setAt u.held i (fun h => (h.1, some f.seq))
          | none => u.held
        else u.held })

/-- The CREDIT entries due: stream and credits, up to 30 (R305, R317). -/
def LinkState.creditEntries (x : LinkState) : List (Nat × Nat) :=
  ((x.rx.filter (fun r => decide (0 < r.creditsDue))).map (fun r => (r.e.stream, min 65535 r.creditsDue))).take 30

/-- Send an IDLE; an allocated slot that goes as IDLE counts (R300, R325). -/
def LinkState.sendIdle (x : LinkState) (allocated : Bool) : LinkState :=
  { x.emit (x.mkFlit 0 false 0 []) with
    slotsSinceIdle := 0, slotsIdle := if allocated then satAdd 32 x.slotsIdle 1 else x.slotsIdle }

/-- The transmit stream whose allocation the slot belongs to (R309, R314). -/
def LinkState.owner (x : LinkState) : Option StreamTx :=
  x.tx.find? (fun t => decide (t.e.firstSlot ≤ x.slot) && decide (x.slot < t.e.firstSlot + t.e.count))

/-- The streams that may send in the slot, in order: those displaced before it, then the slot's own (R309). -/
def LinkState.entitled (x : LinkState) : List StreamTx :=
  (x.displaced ++ (x.owner.map (·.e.stream)).toList).eraseDups.filterMap (fun n => x.tx.find? (fun t => t.e.stream == n && t.ready))

/-- Send a flit of items 1 to 4 ahead of the entitled streams, or an IDLE owed: they go in the next slots (R309). -/
def LinkState.displace (x : LinkState) : LinkState := { x with displaced := x.entitled.map (·.e.stream) }

/-- The TICK, ABORT, REPLAY or resent flit that takes the slot, if any (R309, items 1 to 4). -/
def LinkState.urgent (x : LinkState) : Option LinkState :=
  match x.tickDue, (if x.room then x.aborts else []), x.replayDue, x.resend with
  | some p, _, _, _ =>
    let f := x.mkFlit 4 false 0 (leBytes 6 p.tick.toNat ++ leBytes 2 p.rootRank.toNat ++ leBytes 4 p.fwdDelay.toNat
      ++ leBytes 2 p.depth.toNat ++ [0, 0] ++ leBytes 4 p.periodNs.toNat ++ List.replicate 220 0)
    some { x.emit f with tickDue := none }
  | none, p :: rest, _, _ => some { x.emit (x.mkFlit 5 false 0 p) with aborts := rest }
  | none, [], some r, _ =>
    some { x.emit (x.mkFlit 6 false 0 (leBytes 2 x.rxNext.toNat ++ leBytes 1 r.toNat ++ List.replicate 237 0)) with replayDue := none }
  | none, [], none, f :: rest =>
    let f := { f with ackValid := true, ack := x.rxNext - 1 }
    some { x with wire := some { f with crc := flitCrc f }, resend := rest, slotsSinceIdle := x.slotsSinceIdle + 1 }
  | none, [], none, [] => none

/-- Send a CREDIT, a SLIVER or an IDLE (R309, items 7 to 9). -/
def LinkState.sendRest (x : LinkState) : LinkState :=
  match (if x.room then x.creditEntries else []), (if x.room then x.slivers else []) with
  | e :: es, _ =>
    let all := e :: es
    let f := x.mkFlit 3 false 0 (sliceBytes (all.flatMap (fun c => leBytes 2 c.1 ++ leBytes 2 c.2 ++ [0, 0, 0, 0])) 0 240)
    all.foldl (fun y c => y.modRx c.1 (fun r => { r with creditsDue := r.creditsDue - c.2 })) (x.emit f)
  | [], p :: rest => { x.emit (x.mkFlit 2 false 0 p) with slivers := rest, sliver := satAdd 32 x.sliver 1 }
  | [], [] => x.sendIdle x.owner.isSome

/-- Send what the slot takes, by priority (R309); `quiet` while the compute part is in reset (R312). An IDLE owed since 4,095 slots comes
before all (R300; log 138). -/
def LinkState.slotSend (x : LinkState) (quiet : Bool) : LinkState :=
  let held := quiet || !x.room
  if 4095 ≤ x.slotsSinceIdle then x.displace.sendIdle x.owner.isSome
  else match x.displace.urgent with
    | some y => y
    | none =>
      match (if held then [] else x.entitled) with
      | t :: rest => { x.sendData t with displaced := rest.map (·.e.stream) }
      | [] =>
        match (if held then none else x.tx.find? (fun t => t.ready && decide (t.e.firstSlot + t.e.count ≤ x.slot))) with
        | some t => x.sendData t
        | none => x.sendRest

/-- The compute part of the device is in a rung of 4 to 6, or restoring (R312, R484). -/
def State.computeDown (s : State) : Bool := s.flt.outOfService

/-- SLOT_BOUNDARY (R305, R309): the transmitter sends the first ready flit by priority; a message for the peer's distaff waits its turn. A
REPLAY sent counts against the budget (R308). -/
def execSlotBoundary (l : Link) (sliver : Option (List Byte)) (s : State) : Out := s.clocked <|
  if (s.links[l]).phase != .up || s.looped l then .next s
  else
    let s := s.modLink l (fun x => { x with slivers := x.slivers ++ sliver.toList })
    let due := (s.links[l]).replayDue.isSome
    let s := s.modLink l (fun x => { x.slotSend s.computeDown with slot := x.slot + 1 })
    .next (if due && (s.links[l]).replayDue.isNone then s.countReplay l else s)

/-- A flit of the row's type, or one whose CRC or type is bad, on a link that is up and carries its own traffic. -/
def State.hears (s : State) (l : Link) (f : Flit) (kind : BitVec 4) : Bool :=
  (s.links[l]).phase == .up && !s.looped l && (f.kind == kind || !flitGood f)

/-- DATA_FLIT (R305, R317, R318, R312). -/
def execDataFlit (l : Link) (f : Flit) (s : State) : Out :=
  if !s.hears l f 1 then .next s
  else match s.receiveSeq l f with
    | none => .next (s.discardFlit l f)
    | some s =>
      if s.computeDown then .next s
      else if ((s.links[l]).rx.find? (fun r => r.e.stream == f.stream.toNat)).isNone then
        .next ((s.modLink l (·.note 0x050B)).abortCode 0x050B l.val)
      else if s.step.phase != .window then
        .next (s.modLink l (·.modRx f.stream.toNat (fun r => { r with creditsDue := r.creditsDue + 1 })))
      else
        let s := s.modLink l (·.modRx f.stream.toNat (fun r => { r with
          flits := r.flits + 1, staged := r.staged ++ [(f.payload.take (16 * f.len.toNat), f.last, f.poison)] }))
        .next (s.drainRx l f.stream.toNat 2048)

/-- The peer's firmware asks this device to serve a far-end loop on a link, or to end it; on a link in use it is refused (R303, R323). -/
def State.farLoop (s : State) (loop : Option (Link × Bool)) : State :=
  match loop with
  | some (l, on) => if on && s.linkInUse l then s else s.modLink l (fun x => { x with farEnd := on })
  | none => s

/-- SLIVER_FLIT (R303, R305): a firmware message from the peer's distaff. -/
def execSliverFlit (l : Link) (f : Flit) (loop : Option (Link × Bool)) (s : State) : Out :=
  if !s.hears l f 2 then .next s
  else match s.receiveSeq l f with
    | none => .next (s.discardFlit l f)
    | some s => .next ((s.modLink l (fun x => { x with sliverIn := x.sliverIn ++ [f.payload] })).farLoop loop)

/-- CREDIT_FLIT (R317): credits return to the transmit streams it names. -/
def execCreditFlit (l : Link) (f : Flit) (s : State) : Out :=
  if !s.hears l f 3 then .next s
  else match s.receiveSeq l f with
    | none => .next (s.discardFlit l f)
    | some s =>
      let entries := (List.range 30).map (fun i => (field f.payload (8 * i) 2, field f.payload (8 * i + 2) 2))
      .next (entries.foldl (fun s e => s.modLink l (·.modTx e.1 (fun t => { t with credits := t.credits + e.2 }))) s)

/-- IDLE_FLIT (R306): its acknowledgement frees replay buffer entries. -/
def execIdleFlit (l : Link) (f : Flit) (s : State) : Out :=
  if !s.hears l f 0 then .next s
  else if flitGood f then .next (s.takeAck l f)
  else .next (s.modLink l (fun x => { x with crcErr := satAdd 16 x.crcErr 1 }))

/-- REPLAY_FLIT (R307, R308): the transmitter resends from the named seq. -/
def execReplayFlit (l : Link) (f : Flit) (s : State) : Out :=
  if !s.hears l f 6 then .next s
  else if !flitGood f then .next (s.modLink l (fun x => { x with crcErr := satAdd 16 x.crcErr 1 }))
  else
    let s := s.takeAck l f
    let n : BitVec 12 := BitVec.ofNat 12 (field f.payload 0 2)
    let s := s.modLink l (fun x => { x with resend := x.replay.dropWhile (fun g => g.seq != n) })
    .next (s.countReplay l)

/-- A received ABORT for the step in progress or, after H_d, the step to come (R43, R311): it is marked, forwarded with
hops increased, and its cause recorded. -/
def State.acceptAbort (s : State) (l : Link) (tick : BitVec 48) (origin : BitVec 16) (cause : Code) (hops : Nat) : State :=
  let p := abortPayload tick origin cause (hops + 1)
  if s.step.phase != .idle && tick == s.step.tick then
    if s.step.seen.contains (tick, origin) then s
    else
      let st := s.step.note origin { code := cause }
      let s := { s with step := { st with aborted := true, seen := (tick, origin) :: st.seen } }
      let s := s.sendAbort (some l) p
      if s.stepOpen then s.stopStep else s
  else if s.step.phase != .window && tick == s.tick.count then
    if s.step.nextCause.any (fun c => c.1 == tick) then s
    else ({ s with step := { s.step with nextCause := some (tick, cause, origin) } }).sendAbort (some l) p
  else if (s.dist.jobs ++ s.dist.ended.take 1).any (fun j => j.commit.committedTick.toNat == tick.toNat && j.commit.committedStep != 0) then
    ({ s with tick := { s.tick with lateAbort := true } }).report 0x0809
  else s.modLink l (fun x => { x with stale := satAdd 16 x.stale 1 })

/-- ABORT_FLIT (R311, R44, R488). -/
def execAbortFlit (l : Link) (f : Flit) (s : State) : Out :=
  if !s.hears l f 5 then .next s
  else match s.receiveSeq l f with
    | none => .next (s.discardFlit l f)
    | some s =>
      .next (s.acceptAbort l (BitVec.ofNat 48 (field f.payload 0 6)) (BitVec.ofNat 16 (field f.payload 6 2))
        (BitVec.ofNat 16 (field f.payload 8 2)) (field f.payload 10 2))

/-- Split a byte list into payloads of at most 240 bytes (R316). -/
def flitPayloads : Nat → List Byte → List (List Byte)
  | 0, _ => []
  | _, [] => []
  | n + 1, bs => bs.take 240 :: flitPayloads n (bs.drop 240)

/-- A dispatch entry or deferral entry: token, expert, row address (R319). -/
def tokenEntries (bs : List Byte) : List (Nat × Nat × Nat) :=
  (List.range (bs.length / 16)).map (fun i => (field bs (16 * i) 4, field bs (16 * i + 4) 2, field bs (16 * i + 8) 8))

/-- Entries of one expert stand in ascending token index (R319). -/
def tokensRise : List (Nat × Nat × Nat) → Bool
  | a :: b :: r => decide (a.1 < b.1) && tokensRise (b :: r)
  | _ => true

/-- Each expert's entries of a dispatch list stand in ascending token index (R319). -/
def expertsRise (es : List (Nat × Nat × Nat)) : Bool := (es.map (·.2.1)).eraseDups.all (fun x => tokensRise (es.filter (·.2.1 == x)))

/-- Merge two ascending lists by token index (R320). -/
def mergeTokens : Nat → List (Nat × Nat × Nat) → List (Nat × Nat × Nat) → List (Nat × Nat × Nat)
  | 0, _, _ => []
  | _, [], b => b
  | _, a, [] => a
  | n + 1, a :: as, b :: bs =>
    if a.1 ≤ b.1 then a :: mergeTokens n as (b :: bs) else b :: mergeTokens n (a :: as) bs

/-- The flits of a token: a 16-byte record header and its row, in a new flit (R320). -/
def tokenFlits (rowBytes : Nat) (e : Nat × Nat × Nat) (row : List Byte) : List (List Byte) :=
  let bs := leBytes 4 e.1 ++ leBytes 2 e.2.1 ++ leBytes 4 rowBytes ++ List.replicate 6 0 ++ row
  flitPayloads (bs.length + 1) bs

/-- The flits of tokens in order, their rows read one after another, with whether a row is uncorrectable (R260, R320). -/
def State.tokensOut (s : State) (l : Link) (rowBytes : Nat) (es : List (Nat × Nat × Nat)) : State × List (List Byte) × Bool :=
  es.foldl (fun (acc : State × List (List Byte) × Bool) e =>
    let (s, row, bad) := acc.1.readDevice l e.2.2 rowBytes
    (s, acc.2.1 ++ tokenFlits rowBytes e row, acc.2.2 || bad)) (s, [], false)

/-- Mark the last of a list of payloads. -/
def markLast (l : List (List Byte)) : List (List Byte × Bool) :=
  match l.reverse with
  | [] => [([], true)]
  | x :: r => (r.reverse.map (fun p => (p, false))) ++ [(x, true)]

/-- The class 1 stream's step: merge, send the quota, defer the rest (R319, R320). -/
def State.tokenPop (s : State) (l : Link) (t : StreamTx) (dispatch : List Byte) (pos : Nat) : State :=
  let all := tokenEntries dispatch
  let live := (all.reverse.dropWhile (fun e => e == (0, 0, 0))).reverse
  let known := (s.links[l]).tx.filter (·.e.token) |>.map (·.e.expert)
  let mine := live.filter (fun e => e.2.1 == t.e.expert)
  if live.any (fun e => !known.contains e.2.1) || !expertsRise live then
    (s.modLink l (·.note 0x0508)).abortCode 0x0508 l.val
  else
    let (s, old) := match s.half t.e.deferRegion false with
      | none => (s, [])
      | some (b, _) =>
        let (s, head, _) := s.readRange (linkDie l) (b + t.e.deferOffset) 4
        let (s, body, _) := s.readRange (linkDie l) (b + t.e.deferOffset + 4) (16 * field head 0 4)
        (s, tokenEntries body)
    let merged := mergeTokens (old.length + mine.length + 1) old mine
    let now := merged.take t.e.quota
    let later := merged.drop t.e.quota
    if 65536 < later.length then (s.modLink l (·.note 0x050A)).abortCode 0x050A l.val
    else
      let (s, flits, bad) := s.tokensOut l t.e.rowBytes now
      let out := markLast flits
      let s := if bad then s.abort { code := 0x0402, unit := BitVec.ofNat 16 l.val } else s
      let (s, code) := match s.half t.e.deferRegion true with
        | none => (s, 0)
        | some (b, _) => s.deviceWrite (b + t.e.deferOffset) (leBytes 4 later.length ++ later.flatMap (fun (e : Nat × Nat × Nat) =>
            leBytes 4 e.1 ++ leBytes 2 e.2.1 ++ [(0 : Byte), 0] ++ leBytes 8 e.2.2))
      let s := if code = 0 then s else s.abort { code := code, unit := BitVec.ofNat 16 l.val }
      s.modLink l (fun x => { x.modTx t.e.stream (fun u => { u with
          out := out, held := u.held ++ [(pos, none)], popped := u.popped + 1 })
        with defer := satAdd 32 x.defer later.length })

/-- STREAM_HANDLE_POP (R316, R319, R320): the stream pops its ring's next handle and forms its flits. -/
def execStreamHandlePop (l : Link) (stream : BitVec 12) (s : State) : Out := s.clocked <|
  let k := linkSkein l
  match (s.links[l]).tx.find? (fun t => t.e.stream == stream.toNat) with
  | none => .next s
  | some t =>
    let ring := (s.skeins[k]).ring t.e.ring
    let blocked := s.step.phase != .window || !t.out.isEmpty || (t.e.token && decide (0 < t.popped))
      || !s.linkFits l || (s.links[l]).phase != .up
    match (if blocked then none else ring.handleAt ring.nextTake), ring.wiring with
    | some h, some w =>
      let pos := ring.nextTake
      let len := h.toNat / 4096 * 256
      let (s, bs, bad) := s.readDevice l (w.buffer k (h.toNat % 4096)) len
      let s := s.modSk k (·.modRing t.e.ring (fun g => { g with nextTake := pos + 1, held := pos :: g.held }))
      if bad then .next (s.abort { code := 0x0402, unit := BitVec.ofNat 16 l.val, addr := BitVec.ofNat 64 (w.buffer k (h.toNat % 4096)) })
      else if t.e.token then .next (s.tokenPop l t bs pos)
      else .next (s.modLink l (·.modTx t.e.stream (fun u => { u with
        out := markLast (flitPayloads (len + 1) bs), held := u.held ++ [(pos, none)], popped := u.popped + 1 })))
    | _, _ => .next s

end Sys2Proof.Machine
end

