-- ==== Sys2Proof/Machine/Pins.lean ====
section
/-!
DEFINITION. The commands of temperature, supplies, clocks and pins (chapter 18).
-/
namespace Sys2Proof.Machine

/-- The target level of a controlling temperature in tenths of a degree (R522; the unit is log 53). -/
def thermTarget (startC : BitVec 8) (t10 : Nat) : BitVec 4 :=
  let t0 := 10 * startC.toNat
  if t10 < t0 then 0
  else if t10 < 1045 then BitVec.ofNat 4 (min 14 (1 + (t10 - t0) / 6))
  else 15

/-- Controlling temperature in tenths: the hottest junction sensor, or the hottest stack plus 10 °C (R521). -/
def controlTemp (sensors stackSet : List Nat) : Nat := (stackSet.map (· + 100)).foldl max (sensors.foldl max 0)

/-- A temperature in tenths as a register of whole degrees holds it. -/
def wholeDegrees (t10 : Nat) : BitVec 8 := BitVec.ofNat 8 (min (t10 / 10) 255)

/-- A die's thermal state after a reading (R521 to R523): a level below the target rises at once; a level above it waits. -/
def ThermState.reading (x : ThermState) (startC : BitVec 8) (sensors stackSet : List Nat) (now : Time) : ThermState :=
  let t10 := controlTemp sensors stackSet
  let target := thermTarget startC t10
  { x with
    temp := wholeDegrees t10
    junction := wholeDegrees (sensors.foldl max 0)
    tmax := if x.tmax.ult (wholeDegrees t10) then wholeDegrees t10 else x.tmax
    stale := false
    readAt := now
    target := target
    level := if x.level.ult target then target else x.level
    coolSince := if target.ult x.level then some (x.coolSince.getD now) else none
    below95 := if t10 < 950 then some (x.below95.getD now) else none }

/-- The stacks and the modules' sensors of a die report their temperatures; above 85 °C their refresh rate is doubled (R244, R270, R271,
R521; of a DDR5 channel PRESUMED, log 135). -/
def State.memTemps (s : State) (d : Die) (stackSet modules : List Nat) : State :=
  let read := fun (l : List Nat) (n : Fin 12) (x : CtlState) =>
    if n.val / 3 = d.val then
      match l[n.val % 3]? with
      | some t => { x with temp := wholeDegrees t, refresh2x := decide (850 < t) }
      | none => x
    else x
  { s with hbm := vall s.hbm (read stackSet), ddr := vall s.ddr (read modules) }

/-- THERMAL_READING (R521, R522): the readings of a die's junction sensors and stacks, and of the modules' hottest sensors on its channels, in tenths of a degree. A junction above 105 °C
sets DST_ENV.temp (R495, R498); a changed level raises vector 36 (R432); level 15 within a step marks it (R493). -/
def execThermalReading (d : Die) (sensors stackSet modules : List Nat) (s : State) : Out :=
  let t := { s with
    pwr := { s.pwr with therm := vmod s.pwr.therm d (·.reading s.pwr.startC sensors stackSet s.now) }
    flt := { s.flt with envTemp := s.flt.envTemp || decide (1050 < sensors.foldl max 0) } }
  let t := t.memTemps d stackSet modules
  let t := ({ t with flt := { t.flt with stale := t.pwr.therm.any (·.stale) } }).emergency
  let t := if t.stepOpen && t.dieLevel d == 15 then { t with step := { t.step with level15 := true } } else t
  .next (t.levelChange s)

/-- The time of a level step down: fall_ms, where 0 acts as 1 (R522, R525). -/
def PwrState.fallTime (p : PwrState) : Time := Time.ms (max 1 p.fallMs.toNat)

/-- THERMAL_LEVEL_STEP_DOWN (R522): the target has stayed below the level for fall_ms. -/
def execThermalLevelStepDown (d : Die) (s : State) : Out :=
  let x := s.pwr.therm[d]
  if x.coolSince.any (fun t => decide (t + s.pwr.fallTime ≤ s.now)) && x.target.ult x.level then
    let t := { s with pwr := { s.pwr with therm := vmod s.pwr.therm d (fun x => { x with
      level := x.level - 1, coolSince := if x.target.ult (x.level - 1) then x.coolSince.map (· + s.pwr.fallTime) else none }) } }
    .next (t.levelChange s)
  else .next s

/-- A reading is at the trip temperature of its sensor: 115 °C at a junction, 105 °C at a stack of the die (R523). -/
def tripReading (d : Die) (sensor : Fin 64) (tempC : BitVec 8) : Bool :=
  if sensor.val < 32 then decide (115 ≤ tempC.toNat)
  else decide ((sensor.val - 32) / 3 = d.val) && decide (105 ≤ tempC.toNat)

/-- THERMAL_TRIP (R494, R523, R524): the trip and its sensor are latched, THERMTRIP_N goes low, every clock of the compute dies
stops, a running rung is abandoned and every link is down. -/
def execThermalTrip (d : Die) (sensor : Fin 64) (tempC : BitVec 8) (s : State) : Out :=
  if s.pwr.thermtripLow || !tripReading d sensor tempC then .next s
  else .next { s with
    pwr := { s.pwr with
      trip := true, thermtripLow := true, tripTemp := tempC, tripSensor := BitVec.ofNat 6 sensor.val, tripDie := BitVec.ofNat 2 d.val }
    flt := { s.flt with rungs := [], restoringSince := none, restoredAt := none, outOfService := true }
    links := s.links.map (fun l => if l.phase == .down then l else l.goDown s.now) }

/-- THERMTRIP_RELEASE (R523): SYS_RST_N is low and every controlling temperature has been below 95 °C for 1 s. -/
def execThermtripRelease (s : State) : Out :=
  if s.pwr.thermtripLow && s.pwr.sysRstLow && s.pwr.therm.all (fun x => x.below95.any (fun t => decide (t + Time.sec 1 ≤ s.now))) then
    .next { s with pwr := { s.pwr with trip := false, thermtripLow := false } }
  else .next s

/-- The stage of a rail, by its row of R502. -/
def railStage (rail : Nat) : Nat :=
  if rail < 2 then 1 else if rail < 7 then 2 else if rail < 10 then 3 else 4

/-- FLT_ENVIRONMENT (R502, R504, R524): a compute rail stayed outside its range for 50 µs, and SYS_RST_N is high. -/
def execFltEnvironment (rail : Fin 18) (s : State) : Out :=
  if s.pwr.sysRstLow || decide (13 ≤ rail.val) then .next s
  else
    let p := s.pwr
    let s := { s with
      pwr := { p with
        railFault := true
        rail := if p.railFault then p.rail else BitVec.ofNat 8 rail.val
        stage2 := p.stage2 && railStage rail.val != 2
        stage3 := p.stage3 && railStage rail.val != 3
        stage4 := p.stage4 && railStage rail.val != 4 }
      flt := { s.flt with envSupply := true } }
    .next (s.report 0x0830)

/-- FLT_REFCLK (R509): a reference clock is lost or off frequency. While SYS_RST_N is low the die agents report nothing; the
core clock then holds the device in reset, and a warp clock keeps its die's links down. -/
def execFltRefclk (c : RefClk) (s : State) : Out :=
  let s := match c with
    | .core => { s with pwr := { s.pwr with refCoreBad := true } }
    | .warp d =>
      let t := { s with pwr := { s.pwr with refWarpBad := s.pwr.refWarpBad ||| (1#4 <<< d.val) } }
      (List.finRange 96).foldl (fun t l => if linkDie l == d then t.linkDown l else t) t
  if s.pwr.sysRstLow then .next s
  else
    let s := match c with
      | .core => { s with flt := { s.flt with envCore := true } }
      | .warp _ => { s with flt := { s.flt with envWarp := true } }
    .next (s.report 0x0831)

/-- The compute supplies are up: SYS_RST_N has risen since they were last absent (R408, R518). -/
def State.mgmtUp (s : State) : Bool := s.slv.computePower

/-- VBAT has failed and no supply holds the key store: slots 4 and 5 read as absent (R450, R518). -/
def SecState.loseBattery (x : SecState) : SecState :=
  { x with battKeys := Vector.replicate 2 none, vbatLost := true, vbatLogDue := true }

/-- VBAT_LOSS (R450, R518, R524): VBAT falls below 2.2 V. With VDD_MGMT absent the keys are lost; with it present only vbat_ok
changes. -/
def execVbatLoss (s : State) : Out :=
  let s := { s with sec := { s.sec with vbat := false, vbatOk := false } }
  if s.mgmtUp then .next s else .next { s with sec := s.sec.loseBattery }

/-- A VDD_d set point as PWR_AVS_d stores it: outside 650 to 850 mV the nearest limit (R525). -/
def avsStored (mv : BitVec 10) : BitVec 10 := if mv.toNat < 650 then 650 else if 850 < mv.toNat then 850 else mv

/-- AVS_SET_POINT (R516, R524): the set point goes to the regulator of VDD_d, whose reported output is read back; a transaction that
failed three times leaves the regulator as it was and is recorded. -/
def execAvsSetPoint (d : Die) (mv : BitVec 10) (answer : Option (BitVec 10)) (s : State) : Out :=
  if s.pwr.sysRstLow then .next s
  else
    let s := { s with pwr := { s.pwr with therm := vmod s.pwr.therm d (fun x => { x with setMv := avsStored mv, readMv := answer.getD x.readMv }) } }
    match answer with
    | some _ => .next s
    | none => .next (s.report 0x0830)

/-- PMBUS_POLL (R516): the readings of the regulators that answered; power_w is the sum of the compute rails' powers. -/
def execPmbusPoll (readings : List RailReading) (s : State) : Out :=
  if !s.dist.alive || s.pwr.sysRstLow then .next s
  else
    let compute := readings.filter (fun r => decide (r.rail.val < 13))
    let w := (compute.map (fun r => r.mv * r.ma)).sum / 1000000
    .next { s with pwr := { s.pwr with rails := readings, powerW := BitVec.ofNat 16 (min w 0xFFFF) } }

/-- SYS_RST_N_LOW (R481, R512): the pin has been low for 10 µs. -/
def execSysRstNLow (s : State) : Out :=
  if s.pwr.sysRstLow then .next s
  else
    let s := { s with pwr := { s.pwr with sysRstLow := true, sysRstSince := s.now } }
    .next (s.startAny .device 7 0x0812 false)

/-- SYS_RST_N_RISE (R367, R476, R505, R509, R512, R513): the straps are sampled, the full device reset runs and its bound starts here.
Every compute rail is in range by then, as R505 has the integrator see to; a reference clock that is missing is named: the core clock holds
the device in reset, a warp clock keeps its die's links down. -/
def execSysRstNRise (failMode : Bool) (boot : BitVec 2) (coreBad : Bool) (warpBad : BitVec 4) (s : State) : Out :=
  if !s.pwr.sysRstLow then .next s
  else
    let s := { s with pwr := { s.pwr with sysRstLow := false, refCoreBad := coreBad, refWarpBad := warpBad, stage2 := true, stage3 := true, stage4 := true } }
    let s := (s.setComputePower true).startAny .device 7 0x0812 false
    .next { s with
      cfg := { s.cfg with failMode := failMode, boot := boot }
      flt := { s.flt with rungs := s.flt.rungs.map (fun r => { r with boundFrom := s.now }) } }

/-- TICK_IN_EDGE (R514): a root on the external source takes the first edge within 1 µs of the expected one and counts any other. -/
def execTickInEdge (s : State) : Out :=
  let t := s.tick
  if t.src != 2 || !t.enable then .next s
  else if t.tickInAt.isNone && decide (t.nextEdge ≤ s.now + Time.us 1) && decide (s.now ≤ t.nextEdge + Time.us 1) then
    .next { s with tick := { t with tickInAt := some s.now } }
  else .next { s with pwr := { s.pwr with tickOutside := satAdd 16 s.pwr.tickOutside 1 } }

/-- TICK_IN_MISSED (R514): no edge fell within the window; the root places it at the expected time and counts a miss. -/
def execTickInMissed (s : State) : Out :=
  let t := s.tick
  if t.src != 2 || !t.enable || t.tickInAt.isSome || decide (s.now ≤ t.nextEdge + Time.us 1) then .next s
  else .next { s with
    tick := { t with tickInAt := some t.nextEdge }
    pwr := { s.pwr with tickMissed := satAdd 16 s.pwr.tickMissed 1 } }

/-- The next state of a TAP of IEEE 1149.1 (R515). -/
def tapNext (x : TapState) (tms : Bool) : TapState :=
  match x with
  | .reset => if tms then .reset else .idle
  | .idle => if tms then .selDr else .idle
  | .selDr => if tms then .selIr else .capDr
  | .capDr => if tms then .ex1Dr else .shDr
  | .shDr => if tms then .ex1Dr else .shDr
  | .ex1Dr => if tms then .updDr else .pauDr
  | .pauDr => if tms then .ex2Dr else .pauDr
  | .ex2Dr => if tms then .updDr else .shDr
  | .updDr => if tms then .selDr else .idle
  | .selIr => if tms then .reset else .capIr
  | .capIr => if tms then .ex1Ir else .shIr
  | .shIr => if tms then .ex1Ir else .shIr
  | .ex1Ir => if tms then .updIr else .pauIr
  | .pauIr => if tms then .ex2Ir else .pauIr
  | .ex2Ir => if tms then .updIr else .shIr
  | .updIr => if tms then .selDr else .idle

/-- The instruction that acts (R463, R515): those that drive pins act only while SYS_RST_N is low or in manufacturing test, and those of
neither standard only in manufacturing test; otherwise they are BYPASS. -/
def State.tapActs (s : State) : Config.TapInst :=
  match s.pwr.inst with
  | .extest | .extestPulse | .extestTrain | .clamp | .highz =>
    if s.pwr.sysRstLow || s.sec.testMode then s.pwr.inst else .bypass
  | .other => if s.sec.testMode then .other else .bypass
  | i => i

/-- What the selected data register captures (R515): the IDCODE, the levels at the pins (free values), or the bypass 0. -/
def State.tapCapture (s : State) : List Bool :=
  match s.tapActs with
  | .idcode => (List.range 32).map (fun j => (0x4B128C01#32).getLsbD j)
  | .sample | .extest | .extestPulse | .extestTrain =>
    (List.range Config.boundaryBits).map (fun j => (Config.freeWord (s.fresh + j)).getLsbD 0)
  | _ => [false]

/-- The content of the instruction register selects its instruction; all ones is BYPASS (R515). -/
def tapSelect (b : List Bool) : Config.TapInst := if b.all id then .bypass else Config.tapDecode b

/-- TAP_CLOCK_EDGE (R515): a cycle of TCK. Capture and shift belong to the state it begins in, update and reset to the state it
ends in; TDO is driven while shifting. -/
def execTapClockEdge (tms tdi : Bool) (s : State) : Out :=
  let p := s.pwr
  let p := match p.tap with
    | .capIr => { p with irShift := (List.range Config.irBits).map (fun j => j == 0) }
    | .shIr => { p with irShift := p.irShift.drop 1 ++ [tdi] }
    | .capDr => { p with drShift := s.tapCapture }
    | .shDr => { p with drShift := p.drShift.drop 1 ++ [tdi] }
    | _ => p
  let next := tapNext p.tap tms
  let p := { p with tap := next }
  let p := match next with
    | .reset => { p with inst := .idcode }
    | .updIr => { p with inst := tapSelect p.irShift }
    | .updDr => (match s.tapActs with
      | .sample | .extest | .extestPulse | .extestTrain => { p with boundary := p.drShift }
      | _ => p)
    | _ => p
  let p := { p with tdo := match next with | .shIr => p.irShift.head? | .shDr => p.drShift.head? | _ => none }
  let s := if s.pwr.tap == .capDr then { s with fresh := s.fresh + Config.boundaryBits } else s
  .next { s with pwr := p }

/-- POWER_REMOVAL (R408, R477, R487, R506, R518): every compute supply falls. Flash and fuses stay, and the key store while VBAT holds;
the selvedge loses compute_power. -/
def execPowerRemoval (s : State) : Out :=
  let t := s.fullReset 0
  let sec := { t.sec with code := 0, vbatOk := false }
  let t := { t with
    sec := if s.sec.vbat then sec else sec.loseBattery
    pwr := {}
    flt := {}
    spindles := Vector.replicate 128 {}
    cfg := { primary := s.cfg.primary } }
  .next (t.setComputePower false)

end Sys2Proof.Machine
end

