-- ==== Sys2Proof/Machine/RegMap.lean ====
section
/-!
DEFINITION. Where the register blocks lie in the control space, and what each register reads (R52 to R57, R216, R232, R242, R243,
R270, R271, R294, R325, R356 to R358, R378, R410, R467, R498, R525, R532 to R534). A register at an offset that a table does not list
is `none`.
-/
namespace Sys2Proof.Machine

/-- A register block (R534). -/
inductive Block where
  | tck | cfg | sec | pwr | dst | slv
  | wft (d : Die) | crl (d : Die) | fab (d : Die) | ctl (c : Ctl) | skn (k : Skein) | dma (k : Skein) | wrp (l : Link)
  | spn (i : Spindle) | seq (i : Spindle) | num (i : Spindle) | vec (i : Spindle)
  deriving DecidableEq, Repr

/-- Unit `n` of the units that a die places at a page each. -/
def pageUnit (n lim : Nat) (f : Fin lim → Block) : Option Block := if h : n < lim then some (f ⟨n, h⟩) else none

/-- The block and offset within it of a control offset (R532 to R534). -/
def blockAt (o : Nat) : Option (Block × Nat) :=
  let page := o / 0x1000
  let off := o % 0x1000
  let b : Option Block :=
    if page < 16 then
      (match page with | 0 => some .tck | 1 => some .cfg | 2 => some .sec | 3 => some .pwr | 4 => some .dst | 5 => some .slv | _ => none)
    else if h : 0x100 ≤ page ∧ page < 0x500 then
      let d : Die := ⟨(page - 0x100) / 0x100, by omega⟩
      let p := (page - 0x100) % 0x100
      if p < 0x10 then
        (match p with
        | 0 => some (.wft d)
        | 1 => some (.crl d)
        | 2 => some (.fab d)
        | 4 | 5 | 6 => pageUnit (3 * d.val + (p - 4)) 12 (fun n => .ctl ⟨.hbm, n⟩)
        | 8 | 9 | 10 => pageUnit (3 * d.val + (p - 8)) 12 (fun n => .ctl ⟨.ddr, n⟩)
        | _ => none)
      else if p < 0x20 then (if p - 0x10 < 4 then pageUnit (4 * d.val + (p - 0x10)) 16 .skn else none)
      else if p < 0x40 then (if p - 0x20 < 4 then pageUnit (4 * d.val + (p - 0x20)) 16 .dma else none)
      else if p < 0x80 then (if p - 0x40 < 24 then pageUnit (24 * d.val + (p - 0x40)) 96 .wrp else none)
      else if p - 0x80 < 32 then
        (match off / 0x100 with
        | 0 => pageUnit (32 * d.val + (p - 0x80)) 128 .spn
        | 1 => pageUnit (32 * d.val + (p - 0x80)) 128 .seq
        | 2 => pageUnit (32 * d.val + (p - 0x80)) 128 .num
        | 3 => pageUnit (32 * d.val + (p - 0x80)) 128 .vec
        | _ => none)
      else none
    else none
  match b with
  | none => none
  | some b => match b with
    | .spn _ | .seq _ | .num _ | .vec _ => some (b, off % 0x100)
    | _ => some (b, off)

/-- The die whose agent serves a block (R412, R535); the device blocks lie on die 0. -/
def blockDie : Block → Die
  | .wft d | .crl d | .fab d => d
  | .ctl c => ctlDie c
  | .skn k | .dma k => dieOfSkein k
  | .wrp l => linkDie l
  | .spn i | .seq i | .num i | .vec i => dieOf i
  | _ => 0

/-- Element `(o - base) / stride` of an array of `n` registers, where `o` names one. -/
def element (o base stride n : Nat) : Option (Fin n) :=
  if base ≤ o ∧ (o - base) % stride = 0 then
    (if h : (o - base) / stride < n then some ⟨(o - base) / stride, h⟩ else none)
  else none

/-- TCK_ registers (R52 to R56). -/
def Tick.reg (t : Tick) (o : Nat) : Option Reg :=
  match o with
  | 0x000 => Machine.reg [rw (bv t.src), rw (bv t.upLink), rw (b1 t.enable), rw (b1 t.periodArm)]
  | 0x004 => Machine.reg [ro (bv t.periodNs)]
  | 0x008 => Machine.reg [rw (bv t.periodNext)]
  | 0x00C => Machine.reg [rw (bv t.applyLo)]
  | 0x010 => Machine.reg [rw (bv t.applyHi)]
  | 0x014 => Machine.reg [ro (32, t.count.toNat)]
  | 0x018 => Machine.reg [ro (bv t.countHi)]
  | 0x01C => Machine.reg [rw (bv t.linkComp)]
  | 0x020 => Machine.reg [rw (bv t.holdNs)]
  | 0x024 => Machine.reg [rw (bv t.lossLimit)]
  | 0x028 => Machine.reg [ro (b1 t.locked), w1c (b1 t.lost), w1c (b1 t.badPeriod), w1c (b1 t.lateAbort), rsv 12, ro (bv t.phaseErr)]
  | 0x040 => Machine.reg [rw (bv t.floorUj.eff)]
  | 0x0A0 => Machine.reg [rw (1, 0)]
  | _ =>
    match element o 0x044 4 16, element o 0x0B0 4 4, element o 0x0C0 4 4 with
    | some n, _, _ => Machine.reg [rw (bv (t.coef[n]).eff)]
    | _, some d, _ => Machine.reg [ro (32, (t.pacer[d]).bucketNj / 1000)]
    | _, _, some d => Machine.reg [ro (bv (t.pacer[d]).stallLast)]
    | _, _, _ => none

/-- An arbiter's registers, at +0x100 of its block (R232). -/
def Arbiter.reg (a : Arbiter) (o : Nat) : Option Reg :=
  match o with
  | 0x00 => Machine.reg [rw (bv (a.prio[0]).eff)]
  | 0x04 => Machine.reg [rw (bv (a.prio[1]).eff)]
  | 0x08 => Machine.reg [rw (bv (a.prio[2]).eff)]
  | 0x0C => Machine.reg [rw (bv (a.prio[3]).eff)]
  | 0x10 => Machine.reg [rw (bv a.fairN.eff), rsv 1, rw (bv a.backoffEn.eff)]
  | 0x14 => Machine.reg [rw (1, 0)]
  | 0x18 => Machine.reg [ro (bv a.last), rsv 3, ro (19, packFields (((List.finRange 32).take 19).map (fun i => b1 (a.backoff[i] != 0))))]
  | 0x1C => Machine.reg [ro (bv a.fairGrants)]
  | _ => none

/-- An arbiter's register by its offset in the block. -/
def Arbiter.regAt (a : Arbiter) (o : Nat) : Option Reg := if 0x100 ≤ o ∧ o < 0x120 then a.reg (o - 0x100) else none

/-- WFT_ registers (R242). -/
def DieState.wftReg (x : DieState) (o : Nat) : Option Reg :=
  match o with
  | 0x000 => Machine.reg [rw (bv x.basez)]
  | 0x004 => Machine.reg [rw (32, 0)]
  | 0x008 => Machine.reg [ro (bv x.fenced), ro (bv x.draining)]
  | 0x00C => Machine.reg [rw (bv x.fenceLimit)]
  | 0x010 => Machine.reg [ro (b1 x.edgeRowUp), ro (b1 x.edgeColUp), w1c (b1 x.torn), w1c (b1 x.poison), w1c (b1 x.fenceTimeout), rsv 11,
      ro (bv x.code)]
  | 0x014 => Machine.reg [ro (bv x.errEp)]
  | 0x018 => Machine.reg [ro (bv x.corr)]
  | 0x01C => Machine.reg [ro (bv x.uncorr)]
  | 0x020 => Machine.reg [ro (bv x.tornGroup), rsv 1, ro (bv x.tornSpindle), rsv 17, ro (b1 x.tornValid)]
  | 0x024 => Machine.reg [ro (bv x.sliverMax)]
  | _ =>
    match element o 0x400 4 256 with
    | some n => Machine.reg [ro (32, bits (x.mcastLoaded[n.val / 4]'(by omega)).toNat (32 * (n.val % 4) + 31) (32 * (n.val % 4)))]
    | none => x.sliverArb.regAt o

/-- CRL_ registers (R243). -/
def DieState.crlReg (x : DieState) (o : Nat) : Option Reg :=
  match o with
  | 0x000 => Machine.reg [rw (b1 x.creelEn), rw (1, 0)]
  | 0x004 => Machine.reg [ro (b1 x.emptying.isSome)]
  | 0x008 => Machine.reg [ro (bv x.hits)]
  | 0x00C => Machine.reg [ro (bv x.misses)]
  | 0x010 => Machine.reg [ro (bv x.merged)]
  | 0x014 => Machine.reg [ro (bv x.crlCorr)]
  | 0x018 => Machine.reg [ro (bv x.crlUncorr)]
  | 0x01C => Machine.reg [ro (bv x.inval)]
  | _ =>
    match element o 0x200 16 16, element o 0x204 16 16, element o 0x208 16 16 with
    | some n, _, _ => Machine.reg [ro (bv (x.wins[n]).base)]
    | _, some n, _ => Machine.reg [ro (bv (x.wins[n]).limit)]
    | _, _, some n => Machine.reg [ro (bv (x.wins[n]).cls)]
    | _, _, _ => x.creelArb.regAt o

/-- HBM_ and DDR_ registers (R270, R271). -/
def State.ctlReg (s : State) (c : Ctl) (o : Nat) : Option Reg :=
  let x := s.ctl c
  let has := fun (p : Nat → Bool) => x.rank.any (fun r => p r.toNat)
  let from_ := (s.tier c.tier).mig.filter (fun m => m.src.n == c.n)
  match o with
  | 0x000 => reg [ro (b1 x.trained), ro (b1 (has (fun r => r == 3 || r == 4))), ro (b1 (s.migrating c)), ro (b1 (has (· == 4))),
      ro (b1 (has (· == 3))), w1c (b1 x.uncorrSeen), w1c (b1 x.cmdErr), rsv 9, ro (bv x.code)]
  | 0x004 => reg [ro (bv x.rank[0]), ro (bv x.rank[1]), ro (bv x.rank[2]), ro (bv x.rank[3])]
  | 0x008 => reg [ro (bv x.remap)]
  | 0x00C => reg [rw (bv x.idleClocks), rw (b1 x.srEn)]
  | 0x010 => match c.tier with
    | .hbm => reg [ro (7, ((List.range 64).filter (x.inSr.getLsbD ·)).length)]
    | .ddr => reg [ro (b1 (x.inSr.getLsbD 0))]
  | 0x014 => reg [ro (bv x.srLate)]
  | 0x018 => reg [ro (bv x.corr)]
  | 0x01C => reg [ro (bv x.uncorr)]
  | 0x020 => reg [ro (bv x.cmdRetry)]
  | 0x024 => reg [ro (32, x.errAddr.toNat)]
  | 0x028 => reg [ro (16, x.errAddr.toNat / 2 ^ 32)]
  | 0x02C => match c.tier with
    | .hbm => reg [ro (bv x.errPc), ro (bv x.errRank), ro (bv x.errKind), rsv 21, w1c (b1 x.errValid)]
    | .ddr => reg [ro (1, x.errPc.toNat), rsv 5, ro (bv x.errRank), ro (bv x.errKind), rsv 21, w1c (b1 x.errValid)]
  | 0x030 => match from_ with
    | some m => reg [ro (1, 1), ro (2, m.src.r.val), ro (4, m.tgt.n.val), ro (2, m.tgt.r.val)]
    | none => reg [ro (9, 0)]
  | 0x034 => reg [ro (bv x.migLines)]
  | 0x038 => reg [ro (bv x.migPoisoned)]
  | 0x03C => reg [ro (bv x.scrubs)]
  | 0x040 => reg [ro (bv x.temp), ro (b1 x.refresh2x)]
  | 0x044 => match c.tier with
    | .hbm => none
    | .ddr => reg [ro (bv x.modules), ro (b1 x.mrdimm), ro (bv x.ranks), rsv 2, ro (bv x.rankGib), ro (bv x.speed)]
  | 0x048 => match c.tier with
    | .hbm => none
    | .ddr => reg [rw (bv x.speedCap)]
  | _ =>
    match element o 0x200 16 16, element o 0x204 16 16, element o 0x208 16 16, element o 0x20C 16 16 with
    | some n, _, _, _ => reg [ro (28, (x.map[n]).1.toNat)]
    | _, some n, _, _ => reg [ro (28, (x.map[n]).2.1.toNat)]
    | _, _, some n, _ => reg [ro (20, (x.map[n]).2.2.toNat)]
    | _, _, _, some _ => reg []
    | _, _, _, _ => x.arb.regAt o

/-- SKN_ registers (R216). -/
def State.sknReg (s : State) (k : Skein) (o : Nat) : Option Reg :=
  let x := s.skeins[k]
  match o with
  | 0x00 => reg [rw (b1 x.stallEn)]
  | 0x04 => reg [rw (bv x.limit)]
  | 0x08 => reg [rw (bv x.restartLimit)]
  | 0x0C => reg [rw (bv x.excluded), rw (8, 0)]
  | 0x10 => reg [ro (bv (s.laneStatus k))]
  | 0x14 => reg [ro (4, x.phase), ro (b1 x.done), w1c (b1 x.stallFault), w1c (b1 x.overrun), w1c (b1 x.budgetRepeat), ro (bv x.latePhases),
      rsv 4, ro (bv x.code)]
  | 0x18 => reg [ro (bv x.takes)]
  | 0x1C => reg [ro (bv x.steals)]
  | 0x20 => reg [ro (bv x.sends)]
  | 0x24 => reg [ro (bv x.returnedCount)]
  | 0x28 => reg [ro (bv x.stallLanes)]
  | 0x2C => reg [ro (bv x.stallRings)]
  | _ =>
    match element o 0x40 4 8, element o 0x80 4 32 with
    | some l, _ => reg [ro (32, min (x.remain l) 0xFFFFFFFF)]
    | _, some r =>
      let g := x.rings[r]
      reg [ro (7, g.filled.length), rsv 1, ro (7, g.held.length), rsv 1, ro (16, g.done.length)]
    | _, _ => x.arb.regAt o

/-- DMA_ registers (R289, R294). -/
def State.dmaReg (s : State) (k : Skein) (o : Nat) : Option Reg :=
  let x := s.skeins[k]
  match o with
  | 0x100 => reg [rw (bv x.retryDelay), rsv 4, rw (bv x.retryLimit)]
  | 0x104 => reg [ro (13, x.descs.length)]
  | _ =>
    if h : o < 0x100 then
      let c : Fin 4 := ⟨o / 0x40, by omega⟩
      let y := x.channels[c]
      let fn := s.flt.chanFn[chanOf k c]
      match o % 0x40 with
      | 0x00 => reg [rw (b1 y.disable)]
      | 0x04 => reg [ro (b1 y.run.isSome), ro (b1 y.queued.isSome), ro (b1 y.halted), ro (b1 y.retryAt.isSome), ro (b1 (fn.st == .draining)),
          ro (b1 (fn.st == .off)), w1c (b1 y.haltSeen), rsv 9, ro (bv y.code)]
      | 0x08 => reg [ro (bv y.listsDone)]
      | 0x0C => reg [ro (bv y.units)]
      | 0x10 => reg [ro (bv y.bytes)]
      | 0x14 => reg [ro (bv y.retries)]
      | 0x18 => reg [ro (7, (y.reads.filter (fun q => q.use != .index)).length), rsv 1, ro (7, y.writes.length)]
      | r => match element r 0x20 4 8 with
        | some n => reg [ro (32, field y.res.bytes (4 * n.val) 4)]
        | none => none
    else none

/-- WRP_ registers (R325). -/
def State.wrpReg (s : State) (l : Link) (o : Nat) : Option Reg :=
  let x := s.links[l]
  match o with
  | 0x00 => reg [rw (b1 x.enable), rw (1, 0), rw (bv x.maxRate), rw (b1 x.autoRetrain), rw (b1 x.tickDown)]
  | 0x04 => reg [ro (b1 (x.phase == .up)), ro (bv x.rate), ro (b1 (x.los != 0)), ro (b1 (x.lol != 0)), ro (b1 (s.linkInUse l)),
      w1c (b1 x.downSeen), w1c (b1 x.budget), w1c (b1 x.mismatch), w1c (b1 x.slotMissed), rsv 6, ro (bv x.code)]
  | 0x08 => reg [rw (bv x.peerRank), rw (bv x.peerLink), rw (b1 x.peerCheck)]
  | 0x0C => reg [ro (bv x.rtt)]
  | 0x10 => reg [ro (bv x.failedRate), ro (bv x.attempts)]
  | 0x14 => reg [ro (bv x.skew)]
  | 0x18 => reg [ro (bv x.fecCorr)]
  | 0x1C => reg [ro (bv x.fecUncorr)]
  | 0x20 => reg [ro (bv x.crcErr), ro (bv x.stale)]
  | 0x24 => reg [ro (bv x.replaysStep), ro (bv x.replaysTotal)]
  | 0x28 => reg [ro (bv x.tickDrop)]
  | 0x2C => reg [rw (bv x.testMode), rw (bv x.testPattern), rw (b1 x.testRun), ro (b1 x.farEnd)]
  | 0x30 => reg [ro (bv x.testErr)]
  | 0x34 => reg [ro (bv x.slotsIdle)]
  | 0x38 => reg [ro (bv x.defer)]
  | 0x3C => reg [ro (bv x.sliver)]
  | _ => none

/-- Endpoint i of a die accepts requests (R358). -/
def State.epOnline (s : State) (d : Die) (i : Fin 16) : Bool := (s.region (regionOf d i)).state == 1 && !s.epFenced d i

/-- FAB_ registers (R356 to R358). -/
def State.fabReg (s : State) (d : Die) (o : Nat) : Option Reg :=
  let x := s.fabric[d]
  match o with
  | 0x000 => reg [rw (bv x.relGap), rw (bv x.epTimeoutUs)]
  | 0x004 => reg [ro (b1 x.configured), ro (b1 (x.release == .done || x.release == .outputs || x.release == .enables)), ro (b1 x.released),
      ro (b1 (x.capArmed || x.capRead)), ro (b1 x.capStopped), w1c (b1 x.err), rsv 10, ro (bv x.code)]
  | 0x010 => reg [rw (bv x.capDomain), rw (b1 x.capResume), rw (b1 x.capArmed), rw (1, 0)]
  | 0x014 => reg [rw (bv x.capEdge)]
  | 0x018 => reg [rw (32, x.capDst.toNat)]
  | 0x01C => reg [rw (16, x.capDst.toNat / 2 ^ 32)]
  | 0x020 => reg [ro (bv x.capBytes)]
  | _ =>
    match element o 0x030 8 2, element o 0x034 8 2, element o 0x040 4 16, element o 0x080 4 16 with
    | some j, _, _, _ => reg [ro (b1 (x.ingest[j]).validHeld), w1c (b1 (x.ingest[j]).dropSeen)]
    | _, some j, _, _ => reg [ro (bv (x.ingest[j]).writes)]
    | _, _, some i, _ =>
      let r := x.regions[i]
      reg [ro (bv r.state), ro (b1 r.basez), rw (bv r.clkSel), rw (b1 r.power)]
    | _, _, _, some i => reg [rw (bv (x.regions[i]).modes)]
    | _, _, _, _ =>
      if h : 0x200 ≤ o ∧ o < 0x600 then
        let i : Fin 16 := ⟨(o - 0x200) / 64, by omega⟩
        let e := x.eps[i]
        match (o - 0x200) % 64 with
        | 0x00 => reg [rw (bv e.inBase)]
        | 0x04 => reg [rw (bv e.inLimit)]
        | 0x28 => reg [rw (bv e.perm)]
        | 0x2C => reg [ro (b1 (s.epOnline d i))]
        | 0x30 => reg [ro (bv e.refused)]
        | q => match element q 0x08 8 4, element q 0x0C 8 4 with
          | some w, _ => reg [rw (bv e.outBase[w])]
          | _, some w => reg [rw (bv e.outLimit[w])]
          | _, _ => none
      else none

/-- CFG_ registers (R378). -/
def State.cfgReg (s : State) (o : Nat) : Option Reg :=
  let x := s.cfg
  match o with
  | 0x000 => reg [rw (bv x.doneTimeoutMs)]
  | 0x004 => reg [ro (bv x.state), ro (b1 x.failMode), ro (bv x.boot), ro (b1 x.doneHeld), ro (b1 x.doneLine), ro (b1 x.golden), w1c (b1 x.err),
      rsv 5, ro (bv x.code)]
  | 0x008 => reg [ro (32, 0x4B128C01)]
  | 0x00C => reg [ro (bv x.version)]
  | 0x010 => reg [ro (32, x.loaded.toNat)]
  | 0x014 => reg [ro (32, x.loaded.toNat / 2 ^ 32)]
  | 0x018 => reg [rw (bv x.primary)]
  | 0x01C => reg [ro (29, 0x10000000)]
  | 0x020 => reg [ro (bv s.sec.keyPresent), rsv 2, ro (bv s.sec.keyRevoked)]
  | 0x024 => reg [ro (bv x.progress)]
  | 0x028 => reg [ro (bv x.failOffset)]
  | 0x02C => reg [ro (bv x.loadsFull), ro (bv x.loadsPartial)]
  | _ => none

/-- SEC_ registers (R467). -/
def State.secReg (s : State) (o : Nat) : Option Reg :=
  let x := s.sec
  let role := fun (t : Transport) => match (x.roles[t]).role with | .operator => (2, 0) | .installer => (2, 1) | .maker => (2, 2)
  match o with
  | 0x000 => reg [ro (b1 x.vbatOk), ro (b1 x.vbatLost), ro (b1 x.tableValid), ro (b1 x.raFuse), ro (b1 x.testMode), ro (b1 x.fwSlot),
      ro (bv x.switchRec.trial), ro (b1 (decide (x.leavesLeft.toNat < 2 ^ 20))), rsv 7, ro (bv x.code)]
  | 0x004 => reg [ro (18, packFields ((List.finRange 9).map role))]
  | 0x008 => reg [ro (bv x.enrolled), ro (bv x.revoked)]
  | 0x00C => reg [ro (4, x.keyPresent.toNat), ro (4, x.keyRevoked.toNat), ro (bv x.rollback), ro (b1 x.rootHash.isSome)]
  | 0x010 => reg [ro (bv x.leavesLeft)]
  | 0x014 => reg [ro (bv x.block), rsv 12, ro (b1 x.blockValid)]
  | 0x018 => reg [ro (32, x.auditSeq - 1)]
  | 0x01C => reg [ro (32, (x.auditSeq - 1) / 2 ^ 32)]
  | 0x020 => reg [ro (bv x.erased)]
  | 0x024 => reg [ro (9, packFields ((List.finRange 9).map (fun t => b1 ((x.roles[t]).lockedUntil.any (fun u => decide (s.now < u))))))]
  | 0x028 => reg [rw (bv x.idleS)]
  | 0x02C => reg [ro (bv x.bootCount)]
  | 0x030 => reg [ro (bv (x.slots[0]).version)]
  | 0x034 => reg [ro (bv (x.slots[1]).version)]
  | _ => none

/-- The function that DST_FN_SEL names (R498). -/
def FaultState.selected (x : FaultState) : Option Func :=
  let i := x.fnIndex.toNat
  match x.fnClass.toNat with
  | 0 => if h : i < 128 then some (.spindle ⟨i, h⟩) else none
  | 1 => if h : i < 64 then some (.channel ⟨i, h⟩) else none
  | 2 => if h : i < 96 then some (.link ⟨i, h⟩) else none
  | 3 => if h : i < 64 then some (.region ⟨i, h⟩) else none
  | 4 => if h : i < 768 then some (.hbmPc ⟨i, h⟩) else none
  | 5 => if h : i < 12 then some (.ddrCh ⟨i, h⟩) else none
  | _ => none

/-- DST_ registers (R498). -/
def State.dstReg (s : State) (o : Nat) : Option Reg :=
  let x := s.flt
  match o with
  | 0x800 => reg [rw (bv x.windowUs), rw (b1 x.wdogEn)]
  | 0x804 => reg [ro (bv x.hangClass), ro (bv x.hangIndex), w1c (b1 x.hangSeen)]
  | 0x808 => reg [rw (bv x.ctlRung), rsv 1, rw (bv x.ctlTarget), rw (bv x.ctlCause), rsv 1, rw (1, 0)]
  | 0x80C => reg [ro (3, s.rungNow), w1c (b1 x.escalated), ro (bv x.statusTarget), rsv 2, ro (bv x.statusCode)]
  | 0x810 => reg [rw (bv x.windowTicks), rw (bv x.repeatLimit)]
  | 0x814 => reg [ro (bv x.lastRung), rsv 13, ro (bv x.lastCode)]
  | 0x830 => reg [ro (32, x.crashBase.toNat)]
  | 0x834 => reg [ro (16, x.crashBase.toNat / 2 ^ 32)]
  | 0x838 => reg [ro (bv x.crashSeq)]
  | 0x880 => reg [rw (bv x.fnClass), rw (bv x.fnIndex)]
  | 0x884 => reg [rw (2, 0)]
  | 0x888 =>
    let f := x.selected.elim {} s.fnOf
    reg [ro (2, match f.st with | .on => 0 | .draining => 1 | .off => 2), rsv 14, ro (bv f.drain)]
  | 0x88C => reg [ro (b1 x.emergActive), rw (b1 x.fwForce), ro (b1 x.alert), ro (b1 x.stale), w1c (b1 x.emergSeen)]
  | 0x890 => reg [w1c (b1 x.envSupply), w1c (b1 x.envTemp), w1c (b1 x.envCore), w1c (b1 x.envWarp)]
  | 0x894 => reg [ro (bv x.resetsSpindle), ro (bv x.resetsWider)]
  | _ =>
    match element o 0x818 4 4, element o 0x840 4 16 with
    | some n, _ => reg [ro (32, x.failed.toNat / 2 ^ (32 * n.val))]
    | _, some n => reg [rw (bv x.crashWin[n])]
    | _, _ => none

/-- PWR_ registers (R525). -/
def State.pwrReg (s : State) (o : Nat) : Option Reg :=
  let x := s.pwr
  match o with
  | 0x000 => reg [ro (b1 x.trip), ro (b1 x.alertPin), w1c (b1 x.railFault), ro (b1 x.stage2), ro (b1 x.stage3), ro (b1 x.stage4), rsv 10,
      ro (bv x.rail)]
  | 0x004 => reg [ro (bv x.powerW), ro (bv x.capW)]
  | 0x008 => reg [ro (bv x.limitW)]
  | 0x040 => reg [rw (bv x.startC), rw (bv x.fallMs)]
  | 0x044 => reg [ro (bv x.tripTemp), ro (bv x.tripSensor), ro (bv x.tripDie)]
  | 0x048 => reg [ro (bv x.tickMissed), ro (bv x.tickOutside)]
  | _ =>
    match element o 0x010 4 4, element o 0x020 4 4, element o 0x030 4 4 with
    | some d, _, _ => reg [ro (bv (x.therm[d]).temp), ro (bv (s.dieLevel d)), ro (b1 (x.therm[d]).stale)]
    | _, some d, _ => reg [ro (bv (x.therm[d]).tmax)]
    | _, _, some d => reg [rw (bv (x.therm[d]).setMv), rsv 6, ro (bv (x.therm[d]).readMv)]
    | _, _, _ => none

/-- Failed channels of one direction. -/
def failedMask (chs : Vector BarCh 20) : Nat := packFields ((List.finRange 20).map (fun n => b1 (chs[n]).failed))
/-- A bulk channel of one direction carries the message role (R384, R410). -/
def lentMessage (chs : Vector BarCh 20) : Bool :=
  ((List.finRange 20).take 16).any (fun n => (chs[n]).role == .msg && !(chs[n]).failed)

/-- SLV_ registers (R410); the barrier counts matter while the barrier is up. -/
def SlvState.reg (x : SlvState) (o : Nat) : Option Reg :=
  match o with
  | 0x000 => Machine.reg [ro (16, 0x4128), ro (8, 0x01)]
  | 0x004 => Machine.reg [ro (b1 x.barrierUp), ro (b1 x.computePower), ro (b1 x.distaffAlive), ro (b1 x.mirrorValid),
      ro (b1 (x.barrierUp && (decide (roleCount x.tx .bulk < 12) || decide (roleCount x.rx .bulk < 12)))),
      ro (b1 (x.barrierUp && (lentMessage x.tx || lentMessage x.rx)))]
  | 0x008 => Machine.reg [w1c (bv x.event)]
  | 0x00C => Machine.reg [rw (bv x.eventEn)]
  | 0x010 => Machine.reg [rw (bv x.errLimit)]
  | 0x014 => Machine.reg [ro (20, failedMask x.tx)]
  | 0x018 => Machine.reg [ro (20, failedMask x.rx)]
  | 0x01C => Machine.reg [ro (5, roleCount x.tx .bulk), rsv 3, ro (5, roleCount x.rx .bulk)]
  | 0x020 => Machine.reg [ro (bv x.repairs)]
  | 0x024 => Machine.reg [ro (bv x.crc)]
  | 0x028 => Machine.reg [rw (bv x.timeoutMs)]
  | 0x02C => Machine.reg [rw (bv x.staleMs)]
  | 0x030 => Machine.reg [ro (8, packFields ((List.finRange 8).map (fun n => b1 ((x.bulk[n]).any (fun b => b.started && !b.ended)))))]
  | 0x034 => Machine.reg [ro (bv x.bulkIn)]
  | 0x038 => Machine.reg [ro (bv x.bulkOut)]
  | 0x03C => Machine.reg [w1c (b1 x.badAccess)]
  | 0x040 => Machine.reg [ro (bv x.lateResp)]
  | _ =>
    if h : 0x100 ≤ o ∧ o < 0x200 then
      let m : Mailbox := x.mb[(o - 0x100) / 0x20]
      match (o - 0x100) % 0x20 with
      | 0x00 => Machine.reg [rw (13, 0), rsv 3, rw (16, 0)]
      | 0x04 => Machine.reg [ro (2, match m.state with | .idle => 0 | .busy => 1 | .done => 2 | .failed => 3), ro (bv m.cause),
          w1c (b1 m.lost), w1c (b1 m.dropped), rsv 9, ro (bv m.hostTag)]
      | 0x08 => Machine.reg [ro (bv m.respLen)]
      | 0x0C => Machine.reg [rw (1, 0)]
      | _ => none
    else none

/-- A unit whose registers a running rung holds at their reset values (R537). -/
def State.unitInRung (s : State) : Block → Bool
  | .spn i | .seq i | .num i | .vec i =>
    (s.spindles[i]).power == .resetting || (s.spindles[i]).power == .powerCycling || s.flt.rungs.any (fun r => unitIn (.spindle i) r.unit)
  | .skn k | .dma k => (s.skeins[k]).inReset
  | _ => false

/-- What a register reads, whatever runs. -/
def State.regNow (s : State) (b : Block) (o : Nat) : Option Reg :=
  match b with
  | .tck => s.tick.reg o
  | .cfg => s.cfgReg o
  | .sec => s.secReg o
  | .pwr => s.pwrReg o
  | .dst => s.dstReg o
  | .slv => s.slv.reg o
  | .wft d => (s.dies[d]).wftReg o
  | .crl d => (s.dies[d]).crlReg o
  | .fab d => s.fabReg d o
  | .ctl c => s.ctlReg c o
  | .skn k => s.sknReg k o
  | .dma k => s.dmaReg k o
  | .wrp l => s.wrpReg l o
  | .spn i => (s.spindles[i]).spnReg (s.dieLevel (dieOf i)) o
  | .seq i => (s.spindles[i]).seq.reg o
  | .num i => (s.spindles[i]).num.reg o
  | .vec i => (s.spindles[i]).vec.reg o

/-- What a register reads; one of a unit in a running rung reads its reset value (R537). -/
def State.regRead (s : State) (b : Block) (o : Nat) : Option Reg :=
  if s.unitInRung b then State.reset.regNow b o else s.regNow b o

/-- A block does not answer: its die's agent restarts, or rung 7 or a thermal trip leaves only PWR_, DST_ and SLV_ (R535, R537;
after a trip DEDUCED, log 54). -/
def State.blockSilent (s : State) (b : Block) (o : Nat) : Bool :=
  let deep := s.inFullReset || s.pwr.sysRstLow || s.flt.dead
  match b with
  | .pwr | .slv => false
  | .dst => deep && o != 0x814
  | _ => deep || s.pwr.thermtripLow || decide (s.now < (s.dies[blockDie b]).agentUntil)

end Sys2Proof.Machine
end

