-- ==== Sys2Proof/Machine/Selvedge.lean ====
section
/-!
DEFINITION. The selvedge's commands: barrier, mailboxes, mirror, bulk transfers, resets and power states of the host link
(chapter 14).
-/
namespace Sys2Proof.Machine

/-- A frame is discarded and the first missing seq asked for (R383). -/
def BarCh.discard (c : BarCh) : BarCh := { c with asked := some (c.asked.getD c.seq) }

/-- Frames of a replay buffer that an ACK of `seq` does not cover (R383). -/
def uncovered (seq : BitVec 8) (l : List Frame) : List Frame :=
  match l.findIdx? (fun f => f.seq == seq) with
  | some i => l.drop (i + 1)
  | none => l

/-- A frame in sequence is delivered; its sender holds it until an ACK covers it, at most 64 frames (R383). -/
def BarCh.deliver (c : BarCh) (f : Frame) : BarCh :=
  let l := c.replay ++ [f]
  { c with seq := c.seq + 1, asked := none, replay := l.drop (l.length - 64) }

/-- BARRIER_FRAME (R382, R383): `rx` is the device-to-host direction. -/
def execBarrierFrame (rx : Bool) (ch : Fin 20) (f : Frame) (s : State) : Out :=
  let c := (s.slv.dir rx)[ch]
  if s.slv.perst || c.failed || c.role == .out then .next s
  else if !frameGood f then
    let errors := s.now :: c.errors.filter (fun t => decide (s.now < t + Time.ms 1))
    let v := { s.slv with crc := satAdd 32 s.slv.crc 1 }
    let s := { s with slv := v.modCh rx ch (fun c => { c.discard with errors := errors }) }
    .next (if s.slv.errLimit.toNat < errors.length then s.failBarrier rx ch else s)
  else if f.seq ≠ c.seq then .next { s with slv := s.slv.modCh rx ch BarCh.discard }
  else
    let v := s.slv.modCh rx ch (fun c => c.deliver f)
    let acked := BitVec.ofNat 8 (field f.payload 0 1)
    let v := if f.kind = 5 then v.modCh (!rx) ch (fun c => { c with replay := uncovered acked c.replay }) else v
    .next { s with slv := v }

/-- BARRIER_CHANNEL_FAIL (R384): the receiver lost lock. -/
def execBarrierChannelFail (rx : Bool) (ch : Fin 20) (s : State) : Out := .next (s.failBarrier rx ch)

/-- BARRIER_TRAINING (R381, R384, R385): a training that is due retrains every channel; those that fail give up their roles. A barrier
that failed channels brought down stays down until the next event that trains it. -/
def execBarrierTraining (txFailed rxFailed : BitVec 20) (s : State) : Out :=
  if s.slv.perst || !s.slv.computePower || s.inFullReset || s.slv.barrierUp || !s.slv.trainDue then .next s
  else
    let fresh : Vector BarCh 20 := Vector.ofFn (fun i => { role := trainedRole i })
    let s := { s with slv := { s.slv with tx := fresh, rx := fresh, trainDue := false } }
    let s := (List.finRange 20).foldl (fun s i => if txFailed.getLsbD i.val then s.failBarrier false i else s) s
    let s := (List.finRange 20).foldl (fun s i => if rxFailed.getLsbD i.val then s.failBarrier true i else s) s
    if dirUp s.slv.tx && dirUp s.slv.rx then .next (({ s with slv := { s.slv with barrierUp := true } }).slvEvent 0) else .next s

/-- MAILBOX_DOORBELL (R392, R394, R409). -/
def execMailboxDoorbell (n : Fin 8) (length : BitVec 13) (tag : BitVec 16) (s : State) : Out :=
  let len := length.toNat
  if s.slv.perst then .next s
  else if (s.slv.mb[n]).state ≠ .idle then .next (s.modMb n (fun m => { m with lost := true }))
  else if len < 32 ∨ 4096 < len ∨ len % 8 ≠ 0 then .next (s.mbFail n 5)
  else if !s.slv.computePower then .next (s.mbFail n 4)
  else if !s.slv.barrierUp then .next (s.mbFail n 3)
  else .next (s.modMb n (fun m => { m with
    state := .busy, hostTag := tag, crossing := m.crossing + 1, since := s.now, staged := Cells.read 0 m.req 0 len }))

/-- A response with service_us filled in, from its request's arrival at the distaff (R414). -/
def State.stampResponse (s : State) (r : Response) : List Byte :=
  match s.dist.queue.find? (fun h => h.transport == r.transport && h.crossing == r.crossing) with
  | some h => sliceBytes r.bytes 0 0x18 ++ leBytes 4 (min ((s.now - h.arrived) / 17000) (2 ^ 32 - 1)) ++ r.bytes.drop 0x1C
  | none => r.bytes

/-- MAILBOX_RESPONSE (R393, R409): the oldest response for the mailbox reaches the selvedge; the timeout wins a tie. -/
def execMailboxResponse (n : Fin 8) (s : State) : Out :=
  if !s.slv.barrierUp then .next s
  else match takeFirst (fun r => r.transport.val == n.val) s.dist.responses with
    | none => .next s
    | some (r, rest) =>
      let bytes := s.stampResponse r
      let s := { s with dist := { s.dist with
        responses := rest, queue := s.dist.queue.filter (fun h => !(h.transport == r.transport && h.crossing == r.crossing)) } }
      let m : Mailbox := s.slv.mb[n]
      let late := { s with slv := { s.slv with lateResp := satAdd 32 s.slv.lateResp 1 } }
      if m.state ≠ .busy ∨ m.crossing ≠ r.crossing then .next late
      else if m.since + Time.ms s.slv.timeoutMs.toNat ≤ s.now then .next (late.mbFail n 1)
      else .next ((s.modMb n (fun m => { m with
        state := .done, resp := Cells.write 0 m.resp 0 bytes, respLen := BitVec.ofNat 13 bytes.length })).raiseVector
          ⟨n.val, by omega⟩)

/-- MAILBOX_TIMEOUT (R394). -/
def execMailboxTimeout (n : Fin 8) (s : State) : Out :=
  let m : Mailbox := s.slv.mb[n]
  if m.state = .busy ∧ m.since + Time.ms s.slv.timeoutMs.toNat ≤ s.now then .next (s.mbFail n 1) else .next s

/-- MAILBOX_ACK (R395). -/
def execMailboxAck (n : Fin 8) (s : State) : Out :=
  let m : Mailbox := s.slv.mb[n]
  if m.state = .done ∨ m.state = .failed then .next (s.modMb n (fun m => { m with state := .idle, cause := 0 })) else .next s

/-- MIRROR_UPDATE (R398 to R400): core 3 sends it across the barrier. -/
def execMirrorUpdate (s : State) : Out :=
  if !s.slv.barrierUp || !s.dist.alive || s.flt.coreHalted.getLsbD 3 then .next s
  else
    let v := { s.slv with
      mirror := s.mirrorBytes, mirrorSeq := s.slv.mirrorSeq + 2, mirrorAt := s.now, mirrorValid := true }
    .next (({ s with slv := v }).setAlive true)

/-- MIRROR_STALE (R400): stale_ms 0 acts as 1. -/
def execMirrorStale (s : State) : Out :=
  if !s.slv.mirrorValid || decide (s.now ≤ s.slv.mirrorAt + Time.ms (max 1 s.slv.staleMs.toNat)) then .next s
  else
    let s := ({ s with slv := { s.slv with mirrorValid := false } }).setAlive false
    .next ((s.slvEvent 3).mbFailAll 2)

/-- BCTL_RECORD (R403): the engine starts the transfer that firmware has checked. -/
def execBctlRecord (n : Fin 8) (s : State) : Out :=
  if !s.slv.barrierUp then .next s
  else .next { s with slv := { s.slv with bulk := vmod s.slv.bulk n (Option.map (fun b => { b with started := true })) } }

/-- BULK_PIECE (R402 to R406): the next piece of at most 4 KiB of a transfer, with the scatter entries the engine reads for it. -/
def execBulkPiece (n : Fin 8) (entry : List Byte) (host : HostData) (ecc : Ecc) (s : State) : Out := s.clocked <|
  match s.slv.bulk[n] with
  | none => .next s
  | some b =>
    if b.ended then .next (s.endBulk n b 0x0245 b.done)
    else if !b.started || b.retryAt.isSome then .next s
    else
      let size := min 4096 (b.total - b.done)
      let at_ := b.base + b.offset + b.done
      match walkList (2 * size + 2) b b.done size entry with
      | .short => .next s
      | .broken => .next (s.endBulk n b 0x0244 b.done)
      | .segs l b' =>
        match b.toDevice, host with
        | _, .failed => .next (s.endBulk n b 0x0245 b.done)
        | true, .poisoned => .next (s.endBulk n b 0x0245 b.done)
        | true, .data bs =>
          let (s, m, c) := s.agentWrites (lineParts at_ size) (sliceBytes bs 0 size)
          if c = 0 then .next (s.pieceMoved n b' size) else .next (s.pieceStops n b m c)
        | false, _ =>
          let (s, bs, c) := s.agentReads ecc (lineParts at_ size)
          let s := { s with slv := { s.slv with hostPosts := hostWrites l bs } }
          if c = 0 then .next (s.pieceMoved n b' size) else .next (s.pieceStops n b bs.length c)

/-- BULK_RETRY (R404): 256 sc after an answer of 0x0405. -/
def execBulkRetry (n : Fin 8) (s : State) : Out :=
  match s.slv.bulk[n] with
  | none => .next s
  | some b =>
    if b.retryAt.any (fun t => decide (t ≤ s.now)) then
      .next { s with slv := { s.slv with bulk := vmod s.slv.bulk n (fun _ => some { b with retryAt := none }) } }
    else .next s

/-- The selvedge as PERST_N leaves it: crossing numbers and the transfers that are to stop live on (R396, R407). -/
def SlvState.reset (v : SlvState) : SlvState :=
  { mb := v.mb.map (fun m => { crossing := m.crossing }), bulk := v.stopBulk.bulk, posted := v.posted, perst := true, trainDue := false }

/-- PERST_N_LOW (R407): the roles and part signatures of the host mailboxes are dropped (R443, R465). The emptied mirror's age counts
from here. -/
def execPerstNLow (s : State) : Out :=
  let s := { s with slv := { s.slv.reset with mirrorAt := s.now } }
  .next ((List.finRange 9).foldl (fun s t =>
    if t.val < 8 then (s.dropRole t).modRole t (fun r => { r with parts := [], partsNext := 0 }) else s) s)

/-- The compute side's supplies are up (R408, R506). -/
def State.supplied (s : State) : Bool := s.pwr.stage2 && s.pwr.stage3 && s.pwr.stage4

/-- PERST_N_RELEASE (R385, R407): barrier training follows by BARRIER_TRAINING. -/
def execPerstNRelease (s : State) : Out :=
  if !s.slv.perst then .next s
  else .next (({ s with slv := { s.slv with perst := false, trainDue := true } }).setComputePower s.supplied)

/-- HOST_LINK_DOWN (R408): bulk transfers stop. -/
def execHostLinkDown (s : State) : Out := .next { s with slv := { s.slv.stopBulk with linkUp := false } }

/-- Pending interrupts whose entries are not masked are sent (R388, R397, R408). -/
def State.sendPending (s : State) : State :=
  if s.slv.d3hot || !s.slv.linkUp || s.slv.fnMask then s
  else
    let due := fun (v : Fin 64) => s.slv.pba.getLsbD v.val && !(s.slv.msix[v]).2.2
    let left := (List.finRange 64).foldl (fun p v => if due v then p &&& ~~~(1#64 <<< v.val) else p) s.slv.pba
    { s with slv := { s.slv with pba := left, posted := vall s.slv.posted (fun v k => if due v then k + 1 else k) } }

/-- HOST_LINK_UP (R408): `msix`: the host has MSI-X enabled and not masked. -/
def execHostLinkUp (msix : Bool) (s : State) : Out :=
  if s.slv.perst then .next s else .next ({ s with slv := { s.slv with linkUp := true, fnMask := !msix } }).sendPending

/-- PCIE_POWER_STATE_CHANGE (R388). -/
def execPciePowerStateChange (d3 msix : Bool) (s : State) : Out :=
  if s.slv.perst then .next s else .next ({ s with slv := { s.slv with d3hot := d3, fnMask := !msix } }).sendPending

end Sys2Proof.Machine
end

