-- ==== Sys2Proof/Machine/SkeinCmds.lean ====
section
/-!
DEFINITION. The commands of a skein's board and lanes (chapter 07) and the staple budget (R46).
-/
namespace Sys2Proof.Machine

/-- BUDGET_FAULT (R46, R204, R205, R290): the lane is marked slow, its staple's lists stop and abandon pre-emption is
requested; a second fault on one staple records 0x0913 and aborts the step. -/
def execBudgetFault (sp : Spindle) (s : State) : Out :=
  let x := s.spindles[sp]
  let k := skeinOf sp
  let l := laneOf sp
  if !x.seq.inStaple || x.seq.budget != 0 || x.returning.isSome || s.step.phase != .window || s.spDown sp ||
      s.step.faulted || s.step.aborted then .next s
  else
    let id := x.seq.stapleId
    let s := s.modSp sp (fun x => { x with seq := { x.seq with
      budgetFault := true
      faultPc := if x.seq.faultSeen then x.seq.faultPc else x.seq.pc
      faultSeen := true } })
    let s := s.markSlow sp
    if (s.skeins[k]).faultedOnce.contains id then
      let s := s.modSk k (fun b => { b with budgetRepeat := true })
      .next (s.skeinAbort k 0x0913 0)
    else
      let t := ((s.skeins[k]).inProgress.find? (fun p => p.1 == l)).map (·.2)
      let s := s.modSk k (fun b => ({ b with faultedOnce := id :: b.faultedOnce }).stopStaple l id)
      let s := s.modSp sp (fun x => { x with returning := t })
      .next (s.abandon sp)

/-- SLOW_SET (R204). -/
def execSlowSet (k : Skein) (lanes : BitVec 8) (s : State) : Out :=
  .next (s.modSk k (fun x => { x with slow := x.slow ||| lanes }))

/-- PHASE_ADVANCE (R202): 4 sc after the phase completed; lanes stalled in NEXT evaluate afresh. -/
def execPhaseAdvance (k : Skein) (s : State) : Out := s.clocked <|
  match (s.skeins[k]).completeAt with
  | none => .next s
  | some t =>
    if s.now < t + Time.sc 4 then .next s
    else
      let s := s.modSk k (fun x => ({ x with phase := x.phase + 1, completeAt := none, phaseAt := s.now, lateCounted := false }).checkPhase s.now)
      .next ((List.finRange 8).foldl (fun s l => s.modSp (spindleOf k l) (fun x =>
        if x.seq.stall == .next then { x with seq := { x.seq with stall := .none } } else x)) s)

/-- What a waiting lane waits on: skein and ring, the position, and whether it waits for the position to be filled (true) or
freed (R214). -/
def State.waitedOn (s : State) (i : Spindle) : List (Skein × Nat × Nat × Bool) :=
  let q := (s.spindles[i]).seq
  let k := skeinOf i
  match q.stall with
  | .popWait r _ => ((s.nextPop i r).map (fun p => (k, r, p, true))).toList
  | .event e => if e < 32 then ((s.nextPop i e).map (fun p => (k, e, p, true))).toList else []
  | .send => (q.pushes.filter (fun p => !s.pushSpace p)).map (fun p => (p.skein, p.ring, p.pos - 64, false))
  | _ => []

/-- The staple that fills or frees a position is in progress on a lane of the set (R214). -/
def State.closedBy (s : State) (lanes : List Spindle) (w : Skein × Nat × Nat × Bool) : Bool :=
  let (k, r, p, fill) := w
  let ring := (s.skeins[k]).ring r
  let (shares, owner) := if fill then
      (ring.producers, ring.wiring.bind (fun x => if x.producer = 0 then some k else if x.producer = 1 then some x.src else none))
    else (ring.consumers, ring.wiring.bind (fun x => if x.consumer = 0 then some k else none))
  match owner, shares.find? (fun sh => decide (sh.first ≤ p) && decide (p < sh.first + sh.count)) with
  | some j, some sh =>
    let j : Skein := j
    (s.skeins[j]).inProgress.any (fun t => t.2.id == sh.staple && lanes.contains (spindleOf j t.1))
  | _, _ => false

/-- SKN_STALL_CYCLE (R214): the lanes are a waiting set, each waiting longer than its skein's limit. -/
def execSknStallCycle (lanes : List Spindle) (s : State) : Out := s.clocked <|
  let waits := lanes.filter s.ringWaits
  let isSet := !waits.isEmpty && lanes.all (fun i => (s.spindles[i]).seq.atEnd || s.ringWaits i) &&
    waits.all (fun i => (s.waitedOn i).all (s.closedBy lanes) &&
      decide ((s.spindles[i]).seq.waitSince + Time.sc (s.skeins[skeinOf i]).limit.toNat < s.now))
  let ks := (List.finRange 16).filter (fun k => lanes.any (fun i => skeinOf i == k) && (s.skeins[k]).stallEn)
  match (if isSet then ks else []) with
  | [] => .next s
  | k0 :: _ =>
    let all := waits.flatMap s.waitedOn
    let s := ks.foldl (fun s k => s.modSk k (fun x => { x.note 0x0910 with
      stallFault := true
      stallLanes := lanes.foldl (fun m i => if dieOf i == dieOfSkein k then m ||| (1#32 <<< (i.val % 32)) else m) 0
      stallRings := all.foldl (fun m w => if w.1 == k then m ||| (1#32 <<< w.2.1) else m) 0 })) s
    .next (s.skeinAbort k0 0x0910 (s.skeins[k0]).stallRings)

end Sys2Proof.Machine
end

