-- ==== Sys2Proof/Machine/RegWrite.lean ====
section
/-!
DEFINITION. What a write of a 32-bit register does, field by field, and the fields that firmware loads through the private alias
(R13, R14, R536; chapter tables as in RegMap). Where a field has a command of its own, the write does what that command does.
-/
namespace Sys2Proof.Machine

/-- The next state of a command that has one. -/
def outState (o : Out) (s : State) : State := match o with | .next t => t | _ => s

/-- Bits `hi:lo` of a written word. -/
def wf (v : Word) (hi lo : Nat) : BitVec (hi + 1 - lo) := v.extractLsb' lo (hi + 1 - lo)
/-- Bit `i` of a written word. -/
def wb (v : Word) (i : Nat) : Bool := v.getLsbD i
/-- A W1C bit after a write (R13). -/
def clr (x : Bool) (v : Word) (i : Nat) : Bool := x && !v.getLsbD i
/-- A code that clears with its W1C bits: none of them is left (R216, R242, R270, R325; DEDUCED, log 55). -/
def clrCode (c : Code) (left hit : Bool) : Code := if hit && !left then 0 else c

/-- TCK_ writes (R28, R42, R52 to R55). Enabling the tick starts it afresh: the next edge is one period away. A commit hold below its
bound is refused. -/
def State.writeTck (s : State) (o : Nat) (v : Word) : State :=
  let t := s.tick
  match o with
  | 0x000 =>
    let t := { t with src := wf v 1 0, upLink := wf v 8 2, enable := wb v 9 }
    let t := if wb v 9 && !s.tick.enable then
        { t with missed := 0, flitSeen := false, flitEarly := false, stopped := false, lastEdge := s.now, nextEdge := s.now + Time.ns t.periodNs.toNat, tickInAt := none }
      else t
    let s := { s with tick := t }
    if wb v 10 then outState (execPeriodArm s) s else s
  | 0x008 => { s with tick := { t with periodNext := wf v 27 0 } }
  | 0x00C => { s with tick := { t with applyLo := v } }
  | 0x010 => { s with tick := { t with applyHi := wf v 15 0 } }
  | 0x01C => { s with tick := { t with linkComp := wf v 23 0 } }
  | 0x020 => if (wf v 27 0).toNat < s.holdLeast then s else { s with tick := { t with holdNs := wf v 27 0 } }
  | 0x024 => { s with tick := { t with lossLimit := if wf v 3 0 = 0 then 1 else wf v 3 0 } }
  | 0x028 => { s with tick := { t with lost := clr t.lost v 1, badPeriod := clr t.badPeriod v 2, lateAbort := clr t.lateAbort v 3 } }
  | 0x040 => { s with tick := { t with floorUj := { t.floorUj with shadow := some v } } }
  | 0x0A0 => if wb v 0 then outState (execPaceCommit s) s else s
  | _ =>
    match element o 0x044 4 16 with
    | some n => { s with tick := { t with coef := vmod t.coef n (fun r => { r with shadow := some v }) } }
    | none => s

/-- Arbiter writes (R14, R231, R232). -/
def State.writeArb (s : State) (a : ArbId) (o : Nat) (v : Word) : State :=
  match o with
  | 0x100 => s.modArbiter a (fun x => { x with prio := vmod x.prio 0 (fun r => { r with shadow := some v }) })
  | 0x104 => s.modArbiter a (fun x => { x with prio := vmod x.prio 1 (fun r => { r with shadow := some v }) })
  | 0x108 => s.modArbiter a (fun x => { x with prio := vmod x.prio 2 (fun r => { r with shadow := some v }) })
  | 0x10C => s.modArbiter a (fun x => { x with prio := vmod x.prio 3 (fun r => { r with shadow := some v }) })
  | 0x110 => s.modArbiter a (fun x => { x with
      fairN := { x.fairN with shadow := some (wf v 6 0) }, backoffEn := { x.backoffEn with shadow := some (wf v 8 8) } })
  | 0x114 => if wb v 0 then outState (execArbCommit a s) s else s
  | _ => s

/-- WFT_ writes (R227, R242). -/
def State.writeWft (s : State) (d : Die) (o : Nat) (v : Word) : State :=
  match o with
  | 0x000 => s.modDie d (fun x => { x with basez := wf v 15 0 })
  | 0x004 =>
    let s := (List.finRange 16).foldl (fun s e => if wb v e.val then s.fenceReq d e else s) s
    (List.finRange 16).foldl (fun s e => if wb v (16 + e.val) then s.fenceRel d e else s) s
  | 0x00C => s.modDie d (fun x => { x with fenceLimit := wf v 15 0 })
  | 0x010 => s.modDie d (fun x =>
      let t := clr x.torn v 2
      let p := clr x.poison v 3
      let f := clr x.fenceTimeout v 4
      { x with torn := t, poison := p, fenceTimeout := f, code := clrCode x.code (t || p || f) (wf v 4 2 != 0) })
  | _ => s.writeArb (.sliver d) o v

/-- CRL_ writes (R236, R243). -/
def State.writeCrl (s : State) (d : Die) (o : Nat) (v : Word) : State :=
  match o with
  | 0x000 =>
    let s := s.modDie d (fun x => { x with creelEn := wb v 0 })
    if wb v 1 then s.emptyCreel d else s
  | _ => s.writeArb (.creel d) o v

/-- HBM_ and DDR_ writes (R270, R271). -/
def State.writeCtl (s : State) (c : Ctl) (o : Nat) (v : Word) : State :=
  match o with
  | 0x000 => s.modCtl c (fun x =>
      let u := clr x.uncorrSeen v 5
      let e := clr x.cmdErr v 6
      { x with uncorrSeen := u, cmdErr := e, code := clrCode x.code (u || e) (wf v 6 5 != 0) })
  | 0x00C => s.modCtl c (fun x => { x with idleClocks := wf v 15 0, srEn := wb v 16 })
  | 0x02C => s.modCtl c (fun x => { x with errValid := clr x.errValid v 31 })
  | 0x048 => s.modCtl c (fun x => { x with speedCap := wf v 3 0 })
  | _ => s.writeArb (.mem c) o v

/-- SKN_ writes (R204, R207, R216). -/
def State.writeSkn (s : State) (k : Skein) (o : Nat) (v : Word) : State :=
  match o with
  | 0x00 => s.modSk k (fun x => { x with stallEn := wb v 0 })
  | 0x04 => s.modSk k (fun x => { x with limit := if v.toNat < 0x400 then 0x400 else v })
  | 0x08 => s.modSk k (fun x => { x with restartLimit := wf v 7 0 })
  | 0x0C =>
    let s := s.modSk k (fun x => { x with excluded := wf v 7 0 })
    outState (execSlowSet k (wf v 15 8) s) s
  | 0x14 => s.modSk k (fun x =>
      let f := clr x.stallFault v 5
      let r := clr x.overrun v 6
      let b := clr x.budgetRepeat v 7
      { x with stallFault := f, overrun := r, budgetRepeat := b, code := clrCode x.code (f || r || b) (wf v 7 5 != 0) })
  | _ => s.writeArb (.board k) o v

/-- DMA_ writes (R290, R294, R489, R490): the disable bit disables or enables the channel. -/
def State.writeDma (s : State) (k : Skein) (o : Nat) (v : Word) : State :=
  if o = 0x100 then s.modSk k (fun x => { x with retryDelay := wf v 11 0, retryLimit := wf v 22 16 })
  else if h : o < 0x100 then
    let c := chanOf k ⟨o / 0x40, by omega⟩
    match o % 0x40 with
    | 0x00 => if wb v 0 then outState (execFunctionDisable (.channel c) s) s else outState (execFunctionEnable (.channel c) s) s
    | 0x04 => if wb v 6 then s.modChan c (fun x => { x with haltSeen := false, code := 0 }) else s
    | _ => s
  else s

/-- WRP_ writes (R298, R302, R325). A link taken down by retrain, or enabled, comes up through LINK_RETRAIN, which brings the
peer's identity. -/
def State.writeWrp (s : State) (l : Link) (o : Nat) (v : Word) : State :=
  match o with
  | 0x00 =>
    let s := s.modLink l (fun x => { x with enable := wb v 0, maxRate := wf v 3 2, autoRetrain := wb v 4, tickDown := wb v 5 })
    if wb v 1 || !wb v 0 then s.linkDown l else s
  | 0x04 => s.modLink l (fun x =>
      let d := clr x.downSeen v 6
      let b := clr x.budget v 7
      let m := clr x.mismatch v 8
      let p := clr x.slotMissed v 9
      { x with downSeen := d, budget := b, mismatch := m, slotMissed := p, code := clrCode x.code (d || b || m || p) (wf v 9 6 != 0) })
  | 0x08 => s.modLink l (fun x => { x with peerRank := wf v 15 0, peerLink := wf v 22 16, peerCheck := wb v 23 })
  | 0x2C => s.modLink l (fun x => { x with testMode := wf v 1 0, testPattern := wf v 3 2, testRun := wb v 4 })
  | _ => s

/-- Writes of a fabric endpoint's registers (R358). -/
def FabEp.write (e : FabEp) (o : Nat) (v : Word) : FabEp :=
  match o with
  | 0x00 => { e with inBase := v }
  | 0x04 => { e with inLimit := v }
  | 0x28 => { e with perm := wf v 7 0 }
  | q => match element q 0x08 8 4, element q 0x0C 8 4 with
    | some w, _ => { e with outBase := vmod e.outBase w (fun _ => v) }
    | _, some w => { e with outLimit := vmod e.outLimit w (fun _ => v) }
    | _, _ => e

/-- Writes of a region's register (R345, R346, R357): a new primary domain switches, and power 0 powers off. -/
def State.writeFabRegion (s : State) (r : Region) (v : Word) : State :=
  let s := if wf v 7 4 != (s.region r).clkSel then outState (execRegionClockSwitch r (wf v 7 4) s) s else s
  if !wb v 8 then outState (execRegionPowerOff r s) s else s.modRegion r (fun x => { x with power := true })

/-- FAB_ writes (R353, R354, R356 to R358). -/
def State.writeFab (s : State) (d : Die) (o : Nat) (v : Word) : State :=
  match o with
  | 0x000 => s.modFab d (fun f => { f with relGap := wf v 7 0, epTimeoutUs := wf v 15 8 })
  | 0x004 => if wb v 5 then s.modFab d (fun f => { f with err := false, code := 0 }) else s
  | 0x010 =>
    let s := s.modFab d (fun f => { f with capDomain := wf v 3 0, capResume := wb v 4 })
    let s := if wb v 5 then outState (execCaptureArm d s) s else s
    if wb v 6 then outState (execCaptureGo d s) s else s
  | 0x014 => s.modFab d (fun f => { f with capEdge := v })
  | 0x018 => s.modFab d (fun f => { f with capDst := f.capDst.extractLsb' 32 16 ++ v })
  | 0x01C => s.modFab d (fun f => { f with capDst := wf v 15 0 ++ f.capDst.extractLsb' 0 32 })
  | _ =>
    match element o 0x030 8 2, element o 0x040 4 16, element o 0x080 4 16 with
    | some j, _, _ => s.modFab d (fun f => { f with ingest := vmod f.ingest j (fun g => { g with dropSeen := clr g.dropSeen v 1 }) })
    | _, some i, _ => s.writeFabRegion (regionOf d i) v
    | _, _, some i => s.modRegion (regionOf d i) (fun x => { x with modes := v })
    | _, _, _ =>
      if h : 0x200 ≤ o ∧ o < 0x600 then
        s.modFab d (fun f => { f with eps := vmod f.eps ⟨(o - 0x200) / 64, by omega⟩ (·.write ((o - 0x200) % 64) v) })
      else s

/-- CFG_ writes (R378). -/
def State.writeCfg (s : State) (o : Nat) (v : Word) : State :=
  match o with
  | 0x000 => { s with cfg := { s.cfg with doneTimeoutMs := wf v 15 0 } }
  | 0x004 => if wb v 10 then { s with cfg := { s.cfg with err := false, code := 0 } } else s
  | 0x018 => { s with cfg := { s.cfg with primary := wf v 28 0 } }
  | _ => s

/-- The unit that DST_RESET_CTL names for its rung; none where the rung or the index names no unit. -/
def resetTarget (rung target : Nat) : Option ResetUnit :=
  match rung with
  | 1 | 2 | 3 => if h : target < 128 then some (.spindle ⟨target, h⟩) else none
  | 4 => if h : target < 16 then some (.skein ⟨target, h⟩) else none
  | 5 => if h : target < 4 then some (.die ⟨target, h⟩) else none
  | 6 | 7 => some .device
  | _ => none

/-- DST_ writes (R489, R490, R492, R498, R539). -/
def State.writeDst (s : State) (o : Nat) (v : Word) : State :=
  let x := s.flt
  match o with
  | 0x800 => { s with flt := { x with windowUs := wf v 23 0, wdogEn := wb v 24 } }
  | 0x804 => { s with flt := { x with hangSeen := clr x.hangSeen v 13 } }
  | 0x808 =>
    let s := { s with flt := { x with ctlRung := wf v 2 0, ctlTarget := wf v 13 4, ctlCause := wf v 29 14 } }
    if wb v 31 then
      match resetTarget (wf v 2 0).toNat (wf v 13 4).toNat with
      | some u => s.startAny u (wf v 2 0).toNat (wf v 29 14) false
      | none => s
    else s
  | 0x80C => { s with flt := { x with escalated := clr x.escalated v 3 } }
  | 0x810 => { s with flt := { x with windowTicks := wf v 15 0, repeatLimit := wf v 19 16 } }
  | 0x880 => { s with flt := { x with fnClass := wf v 2 0, fnIndex := wf v 12 3 } }
  | 0x884 =>
    match x.selected with
    | none => s
    | some f =>
      let s := if wb v 0 then outState (execFunctionDisable f s) s else s
      if wb v 1 then outState (execFunctionEnable f s) s else s
  | 0x88C =>
    let s := { s with flt := { x with emergSeen := clr x.emergSeen v 4 } }
    outState (execEmergencyFwForce (wb v 1) s) s
  | 0x890 => { s with flt := { x with
      envSupply := clr x.envSupply v 0, envTemp := clr x.envTemp v 1, envCore := clr x.envCore v 2, envWarp := clr x.envWarp v 3 } }
  | _ =>
    match element o 0x840 4 16 with
    | some n => { s with flt := { x with crashWin := vmod x.crashWin n (fun _ => wf v 23 0) } }
    | none => s

/-- A temperature that PWR_THERM_CFG.start_c stores (R525). -/
def startStored (v : BitVec 8) : BitVec 8 := if v.toNat < 85 then 85 else if 100 < v.toNat then 100 else v

/-- PWR_ writes (R516, R525). The transaction that a set point starts is AVS_SET_POINT's. -/
def State.writePwr (s : State) (o : Nat) (v : Word) : State :=
  match o with
  | 0x000 => if wb v 2 then { s with pwr := { s.pwr with railFault := false, rail := 0 } } else s
  | 0x040 => { s with pwr := { s.pwr with startC := startStored (wf v 7 0), fallMs := wf v 15 8 } }
  | _ =>
    match element o 0x030 4 4 with
    | some d => { s with pwr := { s.pwr with therm := vmod s.pwr.therm d (fun x => { x with setMv := avsStored (wf v 9 0) }) } }
    | none => s

/-- SLV_ writes of the host (R392, R395, R410). -/
def State.writeSlv (s : State) (o : Nat) (v : Word) : State :=
  match o with
  | 0x008 => { s with slv := { s.slv with event := s.slv.event &&& ~~~(wf v 4 0) } }
  | 0x00C => { s with slv := { s.slv with eventEn := wf v 4 0 } }
  | 0x010 => { s with slv := { s.slv with errLimit := wf v 7 0 } }
  | 0x028 => { s with slv := { s.slv with timeoutMs := wf v 15 0 } }
  | 0x02C => { s with slv := { s.slv with staleMs := wf v 7 0 } }
  | 0x03C => { s with slv := { s.slv with badAccess := clr s.slv.badAccess v 0 } }
  | _ =>
    if h : 0x100 ≤ o ∧ o < 0x200 then
      let n : Fin 8 := ⟨(o - 0x100) / 0x20, by omega⟩
      match (o - 0x100) % 0x20 with
      | 0x00 => outState (execMailboxDoorbell n (wf v 12 0) (wf v 31 16) s) s
      | 0x04 => s.modMb n (fun m => { m with lost := clr m.lost v 5, dropped := clr m.dropped v 6 })
      | 0x0C => if wb v 0 then outState (execMailboxAck n s) s else s
      | _ => s
    else s

/-- SPN_, SEQ_, NUM_ and VEC_ writes (R57, R90, R119, R190). -/
def State.writeSpindle (s : State) (b : Block) (o : Nat) (v : Word) : State :=
  match b, o with
  | .spn i, 0x00 =>
    let s := s.modSp i (fun x => { x with retryLimit := wf v 4 2 })
    let s := if wb v 0 then outState (execPreemptReq i s) s else s
    if wb v 1 then outState (execResume i s) s else s
  | .spn i, 0x08 => s.modSp i (fun x => { x with
      faultSeen := clr x.faultSeen v 4, cause := if wb v 4 then 0 else x.cause, restarted := clr x.restarted v 5 })
  | .seq i, 0x00 => s.modSp i (fun x => { x with seq := { x.seq with
      budgetFault := clr x.seq.budgetFault v 2, seqFault := clr x.seq.seqFault v 3 } })
  | .num i, 0x04 => s.modSp i (fun x => { x with num := { x.num with
      flags := x.num.flags &&& ~~~(wf v 6 0), fault := clr x.num.fault v 7, faultCode := if wb v 7 then 0 else x.num.faultCode } })
  | .vec i, 0x00 =>
    let s := s.modSp i (fun x => { x with vec := { x.vec with preEn := wb v 0, brkEn := wb v 1, fltEn := wb v 2 } })
    if wb v 3 then outState (execVecGo i s) s else s
  | .vec i, 0x04 => s.modSp i (fun x => { x with vec := { x.vec with forced := clr x.vec.forced v 4 } })
  | .vec i, 0x08 => s.modSp i (fun x => { x with vec := { x.vec with handler := wf v 12 0 } })
  | .vec i, 0x0C => s.modSp i (fun x => { x with vec := { x.vec with breakAddr := wf v 12 0, breakEn := wb v 13 } })
  | .vec i, 0x18 => s.modSp i (fun x => { x with vec := { x.vec with
      faultSeen := clr x.vec.faultSeen v 4, faultCause := if wb v 4 then 0 else x.vec.faultCause } })
  | _, _ => s

/-- A write of a register of the control space, whatever runs. The SLV_ block is read-only there (R534). -/
def State.regWrite (s : State) (b : Block) (o : Nat) (v : Word) : State :=
  match b with
  | .tck => s.writeTck o v
  | .cfg => s.writeCfg o v
  | .sec => if o = 0x028 then { s with sec := { s.sec with idleS := wf v 15 0 } } else s
  | .pwr => s.writePwr o v
  | .dst => s.writeDst o v
  | .slv => s
  | .wft d => s.writeWft d o v
  | .crl d => s.writeCrl d o v
  | .fab d => s.writeFab d o v
  | .ctl c => s.writeCtl c o v
  | .skn k => s.writeSkn k o v
  | .dma k => s.writeDma k o v
  | .wrp l => s.writeWrp l o v
  | _ => s.writeSpindle b o v

/-- The fields that firmware loads through the alias (R536): creel windows, multicast groups, map regions, rank state and remap,
NUM_MASK, a region's state and Basez flag, and the CFG_ and SEC_ status fields that are stored. -/
def State.loadField (s : State) (b : Block) (o : Nat) (v : Word) : State :=
  match b with
  | .crl d => s.modDie d (fun x => { x with wins := (
      match element o 0x200 16 16, element o 0x204 16 16, element o 0x208 16 16 with
      | some n, _, _ => vmod x.wins n (fun w => { w with base := wf v 29 0 })
      | _, some n, _ => vmod x.wins n (fun w => { w with limit := wf v 29 0 })
      | _, _, some n => vmod x.wins n (fun w => { w with cls := wf v 1 0 })
      | _, _, _ => x.wins) })
  | .wft d =>
    match element o 0x400 4 256 with
    | some n => s.modDie d (fun x => { x with mcastLoaded := vmod x.mcastLoaded ⟨n.val / 4, by omega⟩ (fun m =>
        let sh := 32 * (n.val % 4)
        (m &&& ~~~(0xFFFFFFFF#128 <<< sh)) ||| (v.setWidth 128 <<< sh)) })
    | none => s
  | .ctl c => s.modCtl c (fun x =>
      match o with
      | 0x004 => { x with rank := Vector.ofFn (fun r => v.extractLsb' (4 * r.val) 4) }
      | 0x008 => { x with remap := v }
      | _ => { x with map := (
          match element o 0x200 16 16, element o 0x204 16 16, element o 0x208 16 16 with
          | some n, _, _ => vmod x.map n (fun m => (v &&& 0x0FFFFFFF, m.2))
          | _, some n, _ => vmod x.map n (fun m => (m.1, v &&& 0x0FFFFFFF, m.2.2))
          | _, _, some n => vmod x.map n (fun m => (m.1, m.2.1, v &&& 0x000FFFFF))
          | _, _, _ => x.map) })
  | .num i => if o = 0 then s.modSp i (fun x => { x with num := { x.num with mask := wf v 6 0 } }) else s
  | .fab d =>
    match element o 0x040 4 16 with
    | some i => s.modRegion (regionOf d i) (fun x => { x with state := wf v 2 0, basez := wb v 3 })
    | none => s
  | .cfg => if o = 0x004 then { s with cfg := { s.cfg with
        state := wf v 3 0, doneHeld := wb v 7, golden := wb v 9, code := wf v 31 16 } } else s
  | .sec => if o = 0x000 then { s with sec := { s.sec with
        vbatOk := wb v 0, vbatLost := wb v 1, tableValid := wb v 2, testMode := wb v 4, fwSlot := wb v 5, code := wf v 31 16 } } else s
  | _ => s

/-- A write through the private alias of control offset `o` (R536): the register's own effect and the fields loaded there. -/
def State.aliasWrite (s : State) (b : Block) (o : Nat) (v : Word) : State := (s.regWrite b o v).loadField b o v

/-- One half of a program word (R34, R536). -/
def halfWord (old : Word64) (hi : Bool) (v : Word) : Word64 :=
  if hi then v ++ old.extractLsb' 0 32 else old.extractLsb' 32 32 ++ v

end Sys2Proof.Machine
end

