-- ==== Sys2Proof/Machine/Registers.lean ====
section
/-!
DEFINITION. Accesses to registers and to BAR0: REGISTER_WRITE, BAR0_ACCESS and TELEMETRY_READ (R13 to R15, R388 to R392, R397, R418,
R535 to R537).
-/
namespace Sys2Proof.Machine

/-- A write of a register that the index defines: a block that does not answer and a unit in a running rung discard it, a 1 to a
reserved bit has no defined result (R15, R535, R537). -/
def State.checkedWrite (s : State) (b : Block) (o : Nat) (v : Word) (write : State → State) : Out :=
  match s.regNow b o with
  | none => .fault .undefinedAddress
  | some r =>
    if s.blockSilent b o || s.unitInRung b then .next s
    else if v &&& ~~~r.named ≠ 0 then .refused .reservedBit
    else .next (write s)

/-- A write at a control offset. -/
def State.controlWrite (s : State) (o : Nat) (v : Word) : Out :=
  if o % 4 ≠ 0 then .fault .undefinedAddress
  else match blockAt o with
    | none => .fault .undefinedAddress
    | some (b, off) => s.checkedWrite b off v (fun s => s.regWrite b off v)

/-- Firmware restores the pattern after a rung (R478). -/
def State.restoring (s : State) : Bool := s.flt.restoringSince.isSome

/-- A write in the private window (R536): a program bank, a skein's store, or the alias of a register. A write of an active bank, or of
a store while a step runs, has no defined result outside the restore: the word it names then holds a free value (log 140). -/
def State.privWrite (s : State) (o : Nat) (v : Word) : Out :=
  if h : 0x10000000 ≤ o ∧ o < 0x11000000 then
    let i : Spindle := ⟨(o - 0x10000000) / 0x20000, by omega⟩
    let bank := (o - 0x10000000) % 0x20000 / 0x10000 == 1
    let w := o % 0x10000 / 8
    let hi := o % 8 == 4
    if o % 4 ≠ 0 then .fault .undefinedAddress
    else if s.inFullReset then .next s
    else
      let undefined := s.dist.active.isSome && bank == (s.spindles[i]).seq.activeBank && !s.restoring
      let v := if undefined then Config.freeWord s.fresh else v
      let s := if undefined then s.nextFree else s
      .next (s.modSp i (fun x => { x with seq :=
      if bank then { x.seq with bank1 := Cells.put 0 x.seq.bank1 w (halfWord (Cells.get 0 x.seq.bank1 w) hi v) }
      else { x.seq with bank0 := Cells.put 0 x.seq.bank0 w (halfWord (Cells.get 0 x.seq.bank0 w) hi v) } }))
  else if h : 0x11000000 ≤ o ∧ o < 0x12000000 then
    let k : Skein := ⟨(o - 0x11000000) / 0x100000, by omega⟩
    if o % 4 ≠ 0 then .fault .undefinedAddress
    else if s.inFullReset then .next s
    else
      let undefined := s.stepRuns && !s.restoring
      let v := if undefined then Config.freeWord s.fresh else v
      let s := if undefined then s.nextFree else s
      .next (s.modSk k (fun x => { x with window := Cells.put 0 x.window (o % 0x100000) v }))
  else if 0x12000000 ≤ o ∧ o < 0x12500000 ∧ o % 4 = 0 then
    match blockAt (o - 0x12000000) with
    | none => .fault .undefinedAddress
    | some (b, off) => s.checkedWrite b off v (fun s => s.aliasWrite b off v)
  else .fault .undefinedAddress

/-- The host's accesses reach the function: no PERST_N, the link up, and D0 (R388, R407, R408). -/
def State.hostReaches (s : State) : Bool := !s.slv.perst && s.slv.linkUp && !s.slv.d3hot

/-- An access that breaks R390. -/
def State.badAccess (s : State) : State := { s with slv := { s.slv with badAccess := true } }

/-- Where an access of BAR0 falls (R389, R390). -/
inductive BarPlace where
  | register (o : Nat) | mirror (o : Nat) | table (o : Nat)| pba (o : Nat) | request (n : Fin 8) (o : Nat) | response (n : Fin 8) (o : Nat) | bad
  deriving DecidableEq, Repr

/-- The place of an access of `n` bytes at an offset of BAR0 (R389, R390). -/
def barPlace (off n : Nat) : BarPlace :=
  if off < 0x1000 then (if n = 4 ∧ off % 4 = 0 then .register off else .bad)
  else if off % 4 ≠ 0 ∨ n < 4 then .bad
  else if off + n ≤ 0x2000 then .mirror (off - 0x1000)
  else if 0x2000 ≤ off ∧ off + n ≤ 0x2400 then .table (off - 0x2000)
  else if 0x2800 ≤ off ∧ off + n ≤ 0x2808 then .pba (off - 0x2800)
  else if h : 0x10000 ≤ off ∧ off < 0x20000 then
    let o := off % 0x2000
    if o + n ≤ 0x1000 then .request ⟨(off - 0x10000) / 0x2000, by omega⟩ o
    else if 0x1000 ≤ o ∧ o + n ≤ 0x2000 then .response ⟨(off - 0x10000) / 0x2000, by omega⟩ (o - 0x1000)
    else .bad
  else .bad

/-- The MSI-X table as its bytes: address, data, vector control (R397). -/
def SlvState.tableBytes (v : SlvState) : List Byte :=
  v.msix.toList.flatMap (fun e => leBytes 8 e.1.toNat ++ leBytes 4 e.2.1.toNat ++ leBytes 4 (if e.2.2 then 1 else 0))

/-- The MSI-X table after a write of its bytes from offset `o`. -/
def SlvState.writeTable (v : SlvState) (o : Nat) (bs : List Byte) : SlvState :=
  let t := v.tableBytes.take o ++ bs ++ v.tableBytes.drop (o + bs.length)
  { v with msix := Vector.ofFn (fun i =>
      (BitVec.ofNat 64 (field t (16 * i.val) 8), BitVec.ofNat 32 (field t (16 * i.val + 8) 4), bit (field t (16 * i.val + 12) 1) 0)) }

/-- A host write of bytes at an offset of BAR0 (R390, R392, R397). The mirror, the pending bits and the response buffers are the
device's to write. -/
def State.barWrite (s : State) (off : Nat) (bs : List Byte) : Out :=
  if !s.hostReaches then .next s
  else match barPlace off bs.length with
    | .register o =>
      let v := BitVec.ofNat 32 (leNat bs)
      (match s.slv.reg o with
      | none => .next s.badAccess
      | some r => if v &&& ~~~r.named ≠ 0 then .refused .reservedBit else .next (s.writeSlv o v))
    | .mirror _ | .pba _ | .response _ _ => .next s
    | .table o => .next ({ s with slv := s.slv.writeTable o bs }).sendPending
    | .request n o =>
      if (s.slv.mb[n]).state = .idle then .next (s.modMb n (fun m => { m with req := Cells.write 0 m.req o bs }))
      else .next (s.modMb n (fun m => { m with dropped := true }))
    | .bad => .next s.badAccess

/-- The 4 KiB of the status mirror: seq and age_us before the fields of the last update (R398, R399). -/
def State.mirrorPage (s : State) : List Byte :=
  leBytes 4 s.slv.mirrorSeq.toNat ++ leBytes 4 (min ((s.now - s.slv.mirrorAt) / Time.us 1) (2 ^ 32 - 1)) ++ s.slv.mirror ++
    List.replicate 4048 0

/-- What a host read of `n` bytes returns; an access that breaks R390 reads 0, in whatever state a mailbox is (R390, R392). -/
def State.barBytes (s : State) (n : Nat) : BarPlace → List Byte
  | .register o => leBytes 4 (((s.slv.reg o).map (fun r => r.value.toNat)).getD 0)
  | .mirror o => sliceBytes s.mirrorPage o n
  | .table o => sliceBytes s.slv.tableBytes o n
  | .pba o => sliceBytes (leBytes 8 s.slv.pba.toNat) o n
  | .request i o => Cells.read 0 (s.slv.mb[i]).req o n
  | .response i o => Cells.read 0 (s.slv.mb[i]).resp o n
  | .bad => List.replicate n 0

/-- A place that breaks R390, a register offset without a register among them. -/
def State.barBad (s : State) : BarPlace → Bool
  | .register o => (s.slv.reg o).isNone
  | .bad => true
  | _ => false

/-- A host read at an offset of BAR0. -/
def State.barRead (s : State) (off n : Nat) : Out :=
  if !s.hostReaches then .next s
  else
    let place := barPlace off n
    let t := { s with slv := { s.slv with hostRead := s.barBytes n place } }
    .next (if s.barBad place then t.badAccess else t)

/-- REGISTER_WRITE (R13, R389, R535, R536). -/
def execRegisterWrite (sp : RegSpace) (offset : BitVec 32) (value : Word) (s : State) : Out :=
  match sp with
  | .control => s.controlWrite offset.toNat value
  | .priv => s.privWrite offset.toNat value
  | .bar0 => s.barWrite offset.toNat (leBytes 4 value.toNat)

/-- BAR0_ACCESS (R390). -/
def execBar0Access (offset : Nat) (bytes : Nat) (write : Option (List Byte)) (s : State) : Out :=
  match write with
  | some bs => s.barWrite offset bs
  | none => s.barRead offset bytes

/-- The values of the registers at a list of control offsets, read in order; TCK_COUNT_LO latches as it is read (R53, R418, R535). -/
def State.readRegs (s : State) : List Nat → List Byte → Except Code (State × List Byte)
  | [], acc => .ok (s, acc)
  | a :: rest, acc =>
    match blockAt a with
    | none => .error 0x0107
    | some (b, o) =>
      match s.regNow b o, s.regRead b o with
      | some g, some r =>
        if a % 4 ≠ 0 || !g.plain then .error 0x0107
        else if s.blockSilent b o then .error 0x0807
        else
          let s := if a = 0x014 then outState (execTckCountLoRead s) s else s
          s.readRegs rest (acc ++ leBytes 4 r.value.toNat)
      | _, _ => .error 0x0107

/-- TELEMETRY_READ (R418). -/
def State.telemetry (q : Request) (s : State) : State × Reply :=
  let b := q.bytes
  let n := field b 0x20 4
  if 1000 < n ∨ b.length < 0x28 + 4 * n then (s, refuse 0x0103)
  else match s.readRegs ((List.range n).map (fun i => field b (0x28 + 4 * i) 4)) [] with
    | .error c => (s, refuse c)
    | .ok (t, bs) => (t, { payload := bs })

/-- TELEMETRY_READ (R418). -/
def execTelemetryRead (req : Request) (s : State) : Out := .next (s.message req 0x0002 (State.telemetry req))

end Sys2Proof.Machine
end

