-- ==== Sys2Proof/Machine/SecMsgs.lean ====
section
/-!
DEFINITION. The messages of roles, attestation, firmware, keys and maker operations, and the role timers (chapter 16).
-/
namespace Sys2Proof.Machine

/-- Time a nonce lives, and a lock lasts (R445, R447). -/
def roleMinute : Time := Time.sec 60

/-- ROLE_CHALLENGE (R445). -/
def State.roleChallenge (q : Request) (s : State) : State × Reply :=
  let nonce := sliceBytes (Config.random s.fresh) 0 32
  (s.nextFree.modRole q.transport (fun r => { r with nonce := some (nonce, s.now) }),
   { payload := nonce ++ sliceBytes s.sec.serial 0 16 ++ leBytes 1 q.transport.val ++ leBytes 7 0 })

/-- ROLE_CHALLENGE (R445). -/
def execRoleChallenge (req : Request) (s : State) : Out := .next (s.message req 0x0100 (State.roleChallenge req))

/-- A role entry fails: it is counted and logged, and the eighth in a row locks the transport (R447, R454). -/
def State.entryFails (s : State) (t : Transport) (c : Code) : State × Reply :=
  let n := (if (s.sec.roles[t]).lockedUntil.any (fun u => decide (u ≤ s.now)) then 0 else (s.sec.roles[t]).fails) + 1
  let s := s.auditBy t 0x0002 c []
  let s := s.modRole t (fun r => { r with
    parts := [], partsNext := 0, fails := n, lockedUntil := if 8 ≤ n then some (s.now + roleMinute) else r.lockedUntil })
  (s, { status := c, logged := true })

/-- The public key that a role entry is checked with (R446, check 2). -/
def State.entryKey (s : State) (role slot : Nat) (rootKey : List Byte) : Option (List Byte) :=
  if role = 3 then (if slot = 0x0F ∧ s.sec.rootHash = some (sha256 rootKey) then some rootKey else none)
  else if h : slot < 4 then (s.sec.installer[slot]).bind (fun k => if k.revoked then none else some k.key)
  else none

/-- The message that a role entry signs (R446). -/
def State.entryMessage (s : State) (nonce : List Byte) (role slot : Nat) (t : Transport) : List Byte :=
  nonce ++ sliceBytes s.sec.serial 0 16 ++ leBytes 1 role ++ leBytes 1 slot ++ leBytes 1 t.val ++ leBytes 5 0

/-- The last part of a role entry: the checks of R446 in their order; the nonce is spent. -/
def State.entryChecks (s : State) (t : Transport) (hd sig : List Byte) : State × Reply :=
  let role := field hd 0 1
  let slot := field hd 1 1
  let nonce := (s.sec.roles[t]).nonce.filter (fun n => decide (s.now < n.2 + roleMinute))
  let s := s.modRole t (fun r => { r with nonce := none, parts := [], partsNext := 0 })
  match nonce with
  | none => s.entryFails t 0x0702
  | some (n, _) => match s.entryKey role slot (sliceBytes hd 0x10 60) with
    | none => s.entryFails t 0x0704
    | some key =>
      let c := hssCheck key (s.entryMessage n role slot t) sig
      if c ≠ 0 then s.entryFails t c
      else
        let s := s.audit { event := 0x0001, role := role, transport := t.val, slot := slot, subject := sha256 key }
        (s.modRole t (fun r => { r with
          role := if role = 3 then .maker else .installer, slot := slot, lastUse := s.now, fails := 0 }), { logged := true })

/-- ROLE_ENTER (R446, R447): the parts of the signature, in order. -/
def State.roleEnter (q : Request) (s : State) : State × Reply :=
  let b := q.bytes
  let t := q.transport
  let r := s.sec.roles[t]
  let part := field b 0x22 1
  let parts := field b 0x23 1
  let n := field b 0x24 2
  let hd := if part = 0 then sliceBytes b 0x20 80 else r.partsHead
  let frags := (if part = 0 then [] else r.parts) ++ [sliceBytes b 0x70 n]
  let size := (frags.map List.length).sum
  let whole := field hd 8 4
  let same := sliceBytes b 0x20 2 == sliceBytes hd 0 2 && parts == field hd 3 1 && sliceBytes b 0x28 4 == sliceBytes hd 8 4
  if r.lockedUntil.any (fun u => decide (s.now < u)) then
    ({ s with sec := { s.sec with lockRefused := vmod s.sec.lockRefused t (· + 1) } }, { status := 0x0705, logged := true })
  else if field b 0x20 1 ≠ 2 ∧ field b 0x20 1 ≠ 3 then (s, refuse 0x0105)
  else if b.length ≠ 0x70 + ceilDiv n 8 * 8 then (s, refuse 0x0103)
  else if parts = 0 ∨ 32 < parts ∨ parts ≤ part ∨ (part ≠ 0 ∧ part ≠ r.partsNext) ∨ !same ∨ 28672 < whole ∨ whole < size then
    s.entryFails t 0x0706
  else if part + 1 < parts then
    (s.modRole t (fun r => { r with parts := frags, partsNext := part + 1, partsHead := hd }), { logged := true })
  else if size ≠ whole then s.entryFails t 0x0706
  else s.entryChecks t hd frags.flatten

/-- ROLE_ENTER (R446). -/
def execRoleEnter (req : Request) (s : State) : Out := .next (s.message req 0x0101 (State.roleEnter req))

/-- ROLE_EXIT (R443): its record is the role's drop. -/
def execRoleExit (req : Request) (s : State) : Out :=
  .next (s.message req 0x0102 (fun s => (s.dropRole req.transport, { logged := true })))

/-- LOG_READ (R439, R455). -/
def State.logRead (q : Request) (s : State) : State × Reply :=
  let oldest := s.sec.auditSeq - s.sec.audit.length
  let cap := min (field q.bytes 0x28 4) (if q.transport.val = 8 then 7 else 31)
  let rs := (s.sec.audit.drop (field q.bytes 0x20 8 - oldest)).take cap
  (s, { payload := leBytes 4 rs.length ++ leBytes 4 0 ++ leBytes 8 oldest ++ rs.flatMap (sliceBytes · 0 128) })

/-- LOG_READ (R455). -/
def execLogRead (req : Request) (s : State) : Out := .next (s.message req 0x0003 (State.logRead req))

/-- The attestation report (R459). -/
def State.attestReport (s : State) (nonce : List Byte) (leaf : Nat) : List Byte :=
  let x := s.sec
  let im := x.running.image
  let flags := packFields [b1 (x.switchRec.trial == 2), b1 x.raFuse, b1 x.testMode, b1 s.cfg.golden, b1 x.vbatLost]
  let keys := packFields [(6, x.keyPresent.toNat), (2, 0), (6, x.keyRevoked.toNat), (2, 0), (4, x.enrolled.toNat), (4, x.revoked.toNat)]
  [0x59, 0x4B, 0x41, 0x54] ++ leBytes 2 1 ++ leBytes 2 flags ++ sliceBytes x.serial 0 16 ++ sliceBytes nonce 0 32 ++
  leBytes 4 x.bootCount.toNat ++ leBytes 4 x.running.version.toNat ++ sha256 (im.take (0x80 + field im 0x10 8)) ++
  leBytes 4 x.rollback.toNat ++ leBytes 4 Config.romVersion.toNat ++ leBytes 8 s.tick.count.toNat ++
  leBytes 8 ((s.dist.active.map Image.id).getD 0).toNat ++
  (match s.dist.active with | some p => sliceBytes p (Image.bodyEnd p) 32 | none => List.replicate 32 0) ++
  leBytes 4 s.cfg.version.toNat ++ leBytes 4 keys ++ leBytes 8 (x.auditSeq - 1) ++ sliceBytes x.chain 0 32 ++
  sliceBytes s.cfg.digest 0 32 ++ leBytes 4 leaf ++ leBytes 20 0

/-- The next identity leaf is at hand: the block in use is spent, so the next one is reserved first (R457). -/
def SecState.readyLeaf (x : SecState) : SecState :=
  if !x.blockValid || decide (64 * (x.block.toNat + 1) ≤ x.nextLeaf) then x.takeBlock else x

/-- A blob as ATTEST returns it: whole on a mailbox, 960 bytes of a part over I3C (R458). -/
def attestPayload (blob : List Byte) (part : Nat) (i3c : Bool) : List Byte :=
  let data := if i3c then (blob.drop (960 * part)).take 960 else blob
  leBytes 4 blob.length ++ leBytes 4 (if i3c then 960 * part else 0) ++ sliceBytes data 0 (ceilDiv data.length 8 * 8)

/-- ATTEST (R457 to R459). -/
def State.attestMessage (q : Request) (s : State) : State × Reply :=
  let kind := field q.bytes 0x20 1
  let part := field q.bytes 0x21 1
  let i3c := q.transport.val == 8
  if 1 < kind ∨ (if i3c then 3 < part else part ≠ 0) then (s, refuse 0x0105)
  else if kind = 1 then (s, { payload := attestPayload (Config.certificate.take 3840) part i3c })
  else if part ≠ 0 then
    if s.sec.attestBy = some q.transport then (s, { payload := attestPayload s.sec.attest part i3c }) else (s, refuse 0x070D)
  else
    let x := s.sec.readyLeaf
    if 2 ^ 25 ≤ x.nextLeaf then ({ s with sec := x }, refuse 0x070C)
    else
      let s := { s with sec := x }
      let report := s.attestReport (sliceBytes q.bytes 0x28 32) x.nextLeaf
      let blob := report ++ sliceBytes (Config.identitySign x.nextLeaf report) 0 3124
      let x := { x with nextLeaf := x.nextLeaf + 1, leavesLeft := leavesFrom (x.nextLeaf + 1) }
      let x := if i3c then { x with attest := blob, attestBy := some q.transport } else x
      ({ s with sec := x }, { payload := attestPayload blob 0 i3c })

/-- ATTEST (R458). -/
def execAttest (req : Request) (s : State) : Out := .next (s.message req 0x0004 (State.attestMessage req))

/-- A firmware image is valid (R460). -/
def State.firmwareOk (s : State) (im : List Byte) : Bool :=
  let body := field im 0x10 8
  let signed := im.take (0x80 + body)
  let n := field im (0x80 + body) 4
  sliceBytes im 0 4 == [0x59, 0x4B, 0x46, 0x57] && field im 4 2 == 1 && field im 6 2 == 0x80 && decide (field im 0x0C 4 ≤ 64) &&
  body % 8 == 0 && zeroAt im 0x54 4 && zeroAt im 0x58 40 && zeroAt im (0x84 + body) 4 && im.length == 0x88 + body + n &&
  decide (im.length ≤ 0x1000000) && s.sec.rootHash == some (sha256 (sliceBytes im 0x18 60)) &&
  hssCheck (sliceBytes im 0x18 60) (sha256 signed) (im.drop (0x88 + body)) == 0

/-- The running firmware is in trial (R462). -/
def SecState.inTrial (x : SecState) : Bool := x.switchRec.trial == 2

/-- FW_STAGE (R462): a valid image goes to the slot that does not run. -/
def State.fwStage (b : List Byte) (s : State) : State × Reply :=
  if s.sec.inTrial then (s, refuse 0x0709)
  else match s.rangeCheck b with
    | .error c => (s, refuse c)
    | .ok g =>
      let (s, im, _) := s.readRange 0 (g.base + field b 0x28 8) (min (field b 0x30 8) 0x1000001)
      let subject := sha256 im
      let sec := field im 0x0C 4
      if !s.firmwareOk im then (s, { status := 0x0707, subject := subject })
      else if sec < s.sec.rollback.toNat then (s, { status := 0x0708, subject := subject })
      else
        let slot : FwSlot := { image := im, version := BitVec.ofNat 32 (field im 8 4), security := sec, valid := true }
        let s := s.flashWrite (if s.sec.fwSlot then 0x01000000 else 0x02000000) im
        let n : Fin 2 := if s.sec.fwSlot then 0 else 1
        ({ s with sec := { s.sec with slots := vmod s.sec.slots n (fun _ => slot), fwStaged := true } }, { subject := subject })

/-- FW_STAGE (R462). -/
def execFwStage (req : Request) (s : State) : Out := .next (s.message req 0x0130 (State.fwStage req.bytes))

/-- FW_ACTIVATE (R462). -/
def State.fwActivate (s : State) : State × Reply :=
  if s.sec.inTrial || !s.sec.fwStaged then (s, refuse 0x0709)
  else ({ s with sec := { s.sec with switchRec := { slot := !s.sec.fwSlot, trial := 1 } } }, {})

/-- FW_ACTIVATE (R462). -/
def execFwActivate (req : Request) (s : State) : Out := .next (s.message req 0x0131 State.fwActivate)

/-- FW_CONFIRM (R462): the counter is burnt up to the running image's security version. -/
def State.fwConfirm (s : State) : State × Reply :=
  if !s.sec.inTrial then (s, refuse 0x0709)
  else
    let n := max s.sec.rollback.toNat s.sec.running.security
    ({ s with sec := { s.sec with switchRec := { slot := s.sec.fwSlot, trial := 0 }, rollback := BitVec.ofNat 7 n } },
     { payload := leBytes 4 n ++ leBytes 4 0 })

/-- FW_CONFIRM (R462). -/
def execFwConfirm (req : Request) (s : State) : Out := .next (s.message req 0x0132 State.fwConfirm)

/-- Write the installer key table: a new generation takes effect (R449). -/
def State.putTable (s : State) (t : Vector (Option InstallerKey) 4) : State :=
  { s with sec := { s.sec with installer := t, generation := s.sec.generation + 1, tableValid := true } }

/-- KEY_ENROL (R444, R449): into an empty or revoked slot. -/
def State.keyEnrol (b : List Byte) (s : State) : State × Reply :=
  let key := sliceBytes b 0x28 60
  if h : field b 0x20 1 < 4 then
    let n : Fin 4 := ⟨field b 0x20 1, h⟩
    if (s.sec.installer[n]).any (fun k => !k.revoked) then (s, { status := 0x0704, subject := sha256 key })
    else if !hssKeyOk key then (s, { status := 0x0701, subject := sha256 key })
    else (s.putTable (vmod s.sec.installer n (fun _ => some { key := key })), { subject := sha256 key })
  else (s, { status := 0x0704, subject := sha256 key })

/-- KEY_ENROL (R449). -/
def execKeyEnrol (req : Request) (s : State) : Out := .next (s.message req 0x0133 (State.keyEnrol req.bytes))

/-- Every role entered with a slot of the installer table is dropped (R443, R465). -/
def State.dropSlot (s : State) (slot : Nat) : State :=
  (List.finRange 9).foldl (fun s t =>
    let r : RoleState := s.sec.roles[t]
    if r.role == .installer && r.slot == slot then s.dropRole t else s) s

/-- Revoke a decryption key (R450): a fuse burns, or a battery-backed slot is zeroed. -/
def SecState.revokeKey (x : SecState) (slot : Nat) : SecState :=
  if slot < 4 then { x with fuseRevoked := x.fuseRevoked ||| (1#4 <<< slot) }
  else if h : slot - 4 < 2 then
    { x with battRevoked := x.battRevoked ||| (1#2 <<< (slot - 4)), battKeys := vmod x.battKeys ⟨slot - 4, h⟩ (fun _ => none) }
  else x

/-- KEY_REVOKE (R443, R449, R450, R465): its record is committed before it takes effect. -/
def State.keyRevoke (q : Request) (s : State) : State × Reply :=
  let kind := field q.bytes 0x20 1
  let slot := field q.bytes 0x21 1
  let maker := (s.sec.roles[q.transport]).role == .maker
  if 1 < kind then (s, refuse 0x0105)
  else if s.cfg.staged.isSome then (s, refuse 0x0649)
  else if kind = 0 then
    if h : slot < 4 then
      match s.sec.installer[slot] with
      | none => (s, refuse 0x0704)
      | some k =>
        if k.revoked then (s, refuse 0x0704)
        else if s.sec.enrolled = 1#4 <<< slot ∧ !maker then (s, { status := 0x070A, subject := sha256 k.key })
        else
          let s := s.logRequest s q 0 (sha256 k.key)
          ((s.putTable (vmod s.sec.installer ⟨slot, h⟩ (Option.map (fun k => { k with revoked := true })))).dropSlot slot, { logged := true })
    else (s, refuse 0x0704)
  else if 5 < slot then (s, refuse 0x0704)
  else if slot < 4 ∧ !maker then (s, refuse 0x0106)
  else if slot < 4 ∧ q.fuseFails then (s, refuse 0x0712)
  else ({ s with sec := s.sec.revokeKey slot }, {})

/-- KEY_REVOKE (R449). -/
def execKeyRevoke (req : Request) (s : State) : Out := .next (s.message req 0x0134 (State.keyRevoke req))

/-- Put a key, or none, into a battery-backed slot; vbat_lost is clear from then on (R450). -/
def SecState.putBattery (x : SecState) (n : Fin 2) (key : Option (List Byte)) : SecState :=
  { x with battKeys := vmod x.battKeys n (fun _ => key), battRevoked := x.battRevoked &&& ~~~(1#2 <<< n.val), vbatLost := false }

/-- KEY_PROGRAM (R450, R465). -/
def State.keyProgram (b : List Byte) (s : State) : State × Reply :=
  let slot := field b 0x20 1
  let wrap := field b 0x21 1
  let clear := field b 0x22 1
  if 1 < clear then (s, refuse 0x0105)
  else if h : slot - 4 < 2 ∧ 4 ≤ slot then
    if s.cfg.staged.isSome then (s, refuse 0x0649)
    else if clear = 1 then ({ s with sec := s.sec.putBattery ⟨slot - 4, h.1⟩ none }, {})
    else match (if wrap < 4 then s.sec.key wrap else none).bind (fun k => keyUnwrap k (sliceBytes b 0x28 40)) with
      | none => (s, refuse 0x070B)
      | some key => ({ s with sec := s.sec.putBattery ⟨slot - 4, h.1⟩ (some key) }, {})
  else (s, refuse 0x0704)

/-- KEY_PROGRAM (R450). -/
def execKeyProgram (req : Request) (s : State) : Out := .next (s.message req 0x0135 (State.keyProgram req.bytes))

/-- Checks 1 to 7 of R365 on a golden image, and its signer (R463). -/
def State.goldenFault (s : State) (im : List Byte) : ImgFault :=
  let form := imgCheckForm im 0x10000000
  if form.1 ≠ 0 then form
  else
    let keys := s.imgCheckKeys im true
    if keys.1 ≠ 0 then keys
    else
      let (auth, plain) := s.imgAuthenticate im
      if auth.1 ≠ 0 then auth else imgCheckRecords im plain (Config.freeWord s.fresh).toNat

/-- GOLDEN_STORE (R368, R376, R463): the image is written and not loaded. -/
def State.goldenStore (b : List Byte) (s : State) : State × Reply :=
  let stop := fun (s : State) (c : Code) (off : Nat) (subject : List Byte) =>
    (s, ({ status := c, payload := leBytes 4 off ++ leBytes 4 0, subject := subject } : Reply))
  match s.rangeCheck b with
  | .error c => stop s c 0 []
  | .ok g =>
    let (s, im, _) := s.readRange 0 (g.base + field b 0x28 8) (field b 0x30 8)
    if s.cfg.staged.isSome then stop s 0x0649 0 []
    else if 0x10000000 < (imgHeader im).total then stop s 0x0650 0 (imgDigest im)
    else
      let f := s.goldenFault im
      if f.1 ≠ 0 then stop s f.1 f.2 (imgDigest im)
      else (s.nextFree.flashWrite 0x10000000 im, { payload := leBytes 8 0, subject := imgDigest im })

/-- GOLDEN_STORE (R463). -/
def execGoldenStore (req : Request) (s : State) : Out := .next (s.message req 0x0138 (State.goldenStore req.bytes))

/-- FUSE_PROGRAM (R463): the key comes wrapped under the provisioning key. -/
def State.fuseProgram (q : Request) (s : State) : State × Reply :=
  let b := q.bytes
  if h : field b 0x20 1 < 4 then
    let n : Fin 4 := ⟨field b 0x20 1, h⟩
    if (s.sec.fuseKeys[n]).isSome then (s, refuse 0x0712)
    else match keyUnwrap s.sec.provKey (sliceBytes b 0x28 40) with
      | none => (s, refuse 0x070B)
      | some key =>
        if q.fuseFails then (s, refuse 0x0712)
        else ({ s with sec := { s.sec with fuseKeys := vmod s.sec.fuseKeys n (fun _ => some key) } }, {})
  else (s, refuse 0x0704)

/-- FUSE_PROGRAM (R463). -/
def execFuseProgram (req : Request) (s : State) : Out := .next (s.message req 0x0139 (State.fuseProgram req))

/-- A job is held or a pattern armed (R463). -/
def State.jobsActive (s : State) : Bool := !s.dist.jobs.isEmpty || (s.dist.staged.bind (·.armedAt)).isSome

/-- TEST_MODE (R463). -/
def State.enterTest (b : List Byte) (s : State) : State × Reply :=
  if field b 0x20 1 ≠ 1 then (s, refuse 0x0105)
  else if s.jobsActive then (s, refuse 0x070F)
  else ({ s with dist := { s.dist with active := none, staged := none }, sec := { s.sec with testMode := true } }, {})

/-- TEST_MODE (R463). -/
def execTestMode (req : Request) (s : State) : Out := .next (s.message req 0x013A (State.enterTest req.bytes))

/-- RA_UNLOCK (R443, R464): the record, the battery-backed keys, the installer table, the revoke fuses, the return-analysis fuse, in this
order; every role held is dropped. -/
def State.raUnlock (q : Request) (s : State) : State × Reply :=
  if s.jobsActive then (s, refuse 0x070F)
  else
    let s := s.logRequest s q 0 []
    let s := { s with sec := { s.sec with battKeys := Vector.replicate 2 none } }
    let s := s.putTable (s.sec.installer.map (fun k => some { (k.getD { key := List.replicate 60 0 }) with revoked := true }))
    let s := { s with sec := { s.sec with fuseRevoked := 0xF, raFuse := true } }
    ((List.finRange 9).foldl State.dropRole s, { logged := true })

/-- RA_UNLOCK (R464). -/
def execRaUnlock (req : Request) (s : State) : Out := .next (s.message req 0x013B (State.raUnlock req))

/-- ROLE_IDLE_TIMEOUT (R443): idle_s seconds without a request that needs the role. -/
def execRoleIdleTimeout (t : Transport) (s : State) : Out :=
  let r : RoleState := s.sec.roles[t]
  if r.role != .operator && decide (r.lastUse + Time.sec s.sec.idleS.toNat ≤ s.now) then .next (s.dropRole t) else .next s

/-- NONCE_EXPIRY (R445). -/
def execNonceExpiry (t : Transport) (s : State) : Out :=
  if (s.sec.roles[t]).nonce.any (fun n => decide (n.2 + roleMinute ≤ s.now)) then .next (s.modRole t (fun r => { r with nonce := none }))
  else .next s

/-- LOCKOUT_END (R447): one record gives the count of the refusals during the lock. -/
def execLockoutEnd (t : Transport) (s : State) : Out :=
  if (s.sec.roles[t]).lockedUntil.any (fun u => decide (u ≤ s.now)) then
    let s := if s.sec.lockRefused[t] = 0 then s else s.auditBy t 0x0002 0x0705 []
    let s := { s with sec := { s.sec with lockRefused := vmod s.sec.lockRefused t (fun _ => 0) } }
    .next (s.modRole t (fun r => { r with lockedUntil := none, fails := 0 }))
  else .next s

end Sys2Proof.Machine
end

