-- ==== Sys2Proof/Machine/Seq.lean ====
section
/-!
DEFINITION. The sequencer's words (R37, R38, R196 to R201, R211, R538). Each issues the word that the sequencer stands at.
-/
namespace Sys2Proof.Machine

/-- NEXT (R196 to R199): takes work in the order of R196, stalls, or falls through; a stalled NEXT evaluates afresh. -/
def execSeqNext (sp : Spindle) (s : State) : Out :=
  .next (s.issue sp 1 .next (fun w s =>
    let x := s.spindles[sp]
    let k := skeinOf sp
    let l := laneOf sp
    if x.seq.inStaple then s.seqFault sp
    else if !(s.skeins[k]).boardActive then s.seqNext sp
    else match (s.skeins[k]).take l with
      | some (t, b) =>
        let (st, cost) := match t with | .own t => (t, 8) | .stolen t => (t, 60)
        let b := match t with
          | .own _ => { b with takes := satAdd 32 b.takes 1 }
          | .stolen _ => { b with steals := satAdd 32 b.steals 1 }
        let s := s.modSk k (fun _ => { b with inProgress := b.inProgress ++ [(l, st)] })
        s.modSp sp (fun x => { x with seq := { x.seq.jump (wbits w 15 0 + st.entry) with
          taken := some st, jumped := false, nextPc := x.seq.pc, readyAt := s.now + Time.sc cost } })
      | none =>
        if (s.skeins[k]).done then s.seqNext sp else s.seqStall sp .next))

/-- SBEGIN (R37, R38, R46, R200): it must follow a take whose entry it matches. -/
def execSbegin (sp : Spindle) (s : State) : Out :=
  .next (s.issue sp 2 .none (fun w s =>
    let x := s.spindles[sp]
    let id : BitVec 16 := BitVec.ofNat 16 (wbits w 47 32)
    match x.seq.taken with
    | none => s.seqFault sp
    | some t =>
      if x.seq.inStaple || t.id != id || t.budget != wbits w 31 0 then s.seqFault sp
      else
        let s := s.mergeStats sp
        s.modSp sp (fun x => { x with seq := { x.seq.finish with
          inStaple := true, taken := none, stapleId := id, budget := t.budget, h := Vector.replicate 32 0 } })))

/-- SEND (R201): stalls until SEND_PUBLISH; outside a staple it is a bad field (R538). -/
def execSend (sp : Spindle) (s : State) : Out :=
  .next (s.issue sp 3 .none (fun _ s =>
    if (s.spindles[sp]).seq.inStaple then s.seqStall sp .send else s.seqFault sp))

/-- SEND_PUBLISH (R201): once the staple's work is complete and its ring positions have space, its pushes are published, its
popped positions freed, its statistics merged, and it has reached SEND. -/
def execSendPublish (sp : Spindle) (s : State) : Out :=
  let x := s.spindles[sp]
  let k := skeinOf sp
  if x.seq.stall == .send && s.seqReady sp .send && x.passes.isEmpty && x.armed.isEmpty && s.stapleDmaDone sp &&
      x.seq.pushes.all s.pushSpace then
    let s := x.seq.pushes.foldl (fun s p => s.modSk p.skein (·.modRing p.ring (·.fill p.pos p.handle))) s
    let s := x.seq.pops.foldl (fun s p => s.modSk p.skein (·.modRing p.ring (·.free p.pos))) s
    let s := s.mergeStats sp
    let s := s.modSp sp (fun x => { x with seq := { x.seq.finish with
      inStaple := false, stapleId := 0xFFFF, pops := [], pushes := [] } })
    .next (s.modSk k (fun b =>
      ({ b with sends := satAdd 32 b.sends 1, inProgress := b.inProgress.filter (fun p => p.1 != laneOf sp) }).checkPhase s.now))
  else .next s

/-- PASS (R37, R65, R87, R88): issues a pass whose chain has no trigger, while the queue has a place and no pass is armed
(R155). -/
def execPass (sp : Spindle) (s : State) : Out :=
  .next (s.issue sp 4 .none (fun w s =>
    let x := s.spindles[sp]
    let (o, d, c) := x.descriptor w
    if c.any (·.trigger) || 2 ≤ x.passes.length || !x.armed.isEmpty then s
    else if !x.descOk sp o d c then s.hardFault sp 6 d.tag (x.edgeRow s.now)
    else
      let p := x.newPass s.now w o d c
      let s := s.modSp sp (fun x => { x.noteIssue d with passes := x.passes ++ [p] })
      if p.waits then s.seqStall sp .passWait else s.seqNext sp))

/-- PASS_ARM (R155): arms a triggered pass on the staple's next consumer position, while fewer than four are armed; on a ring
with no wiring entry it is a bad field (R210). -/
def execPassArm (sp : Spindle) (s : State) : Out :=
  .next (s.issue sp 4 .none (fun w s =>
    let x := s.spindles[sp]
    let (o, d, c) := x.descriptor w
    match c with
    | none => s
    | some ch =>
      if !ch.trigger || 4 ≤ x.armed.length then s
      else if !x.descOk sp o d c then s.hardFault sp 6 d.tag (x.edgeRow s.now)
      else match s.nextPop sp ch.trigRing with
        | none => s.seqFault sp
        | some pos =>
          let p := { x.newPass s.now w o d c with wantPos := pos }
          let s := s.modSp sp (fun x => { x.noteIssue d with armed := x.armed ++ [p] })
          if p.waits then s.seqStall sp .passWait else s.seqNext sp))

/-- VEC (R37, R164): starts a routine; address bits 15:13 must be 0. -/
def execVec (sp : Spindle) (s : State) : Out :=
  .next (s.issue sp 5 .none (fun w s =>
    let x := s.spindles[sp]
    if wbits w 15 13 ≠ 0 then s.seqFault sp
    else if x.vec.running || x.vec.barred then s
    else
      let s := s.modSp sp (fun x => { x with vec := { x.vec with
        running := true, pc := BitVec.ofNat 13 (wbits w 12 0), loops := [], frozen := 0, inHandler := false,
        stopped := false, holdAt := none, window := 0, pastBreak := none, readyAt := s.now, pending := 0, waits := false,
        routine := 0 } })
      s.seqStall sp .vec))

/-- DMA (R273, R290, R489): the channel accepts the list when it has a free place; one to a channel that drains is refused with 0x0810
and one to a channel that is off with 0x0811, and the lane records a sequencer fault; an unknown list is a bad field. -/
def execDma (sp : Spindle) (s : State) : Out :=
  .next (s.issue sp 6 .none (fun w s =>
    let x := s.spindles[sp]
    let k := skeinOf sp
    let c : Fin 4 := ⟨wbits w 1 0 % 4, by omega⟩
    let list := wbits w 31 16
    let ch := (s.skeins[k]).channels[c]
    let fn := (s.flt.chanFn[chanOf k c]).st
    if (s.skeins[k]).lists.length ≤ list then s.seqFault sp
    else if fn != .on then (s.abortCode (if fn == .draining then 0x0810 else 0x0811) (chanOf k c).val).seqFault sp
    else if ch.run.isSome && ch.queued.isSome then s
    else
      let r : DmaRun := { list := list, lane := laneOf sp, staple := if x.seq.inStaple then x.seq.stapleId else 0xFFFF
                          acceptedAt := s.now + Time.sc 1 }
      let s := s.modChan (chanOf k c) (fun ch =>
        if ch.run.isNone then { ch with run := some { r with serial := ch.serial + 1 }, serial := ch.serial + 1 }
        else { ch with queued := some r })
      s.seqNext sp))

/-- WAIT (R37, R211): goes on at once when the event has come, else stalls; a ring event outside a staple or on a ring with
no wiring entry is a bad field (R538), and so is an event past 36. -/
def execWait (sp : Spindle) (s : State) : Out :=
  .next (s.issue sp 7 .none (fun w s =>
    let e := wbits w 7 0
    if 36 < e ∨ (e < 32 ∧ (!(s.spindles[sp]).seq.inStaple ∨ (((s.skeins[skeinOf sp]).ring e).wiring.isNone))) then
      s.seqFault sp
    else if s.eventCome sp e then s.seqNext sp
    else s.seqStall sp (.event e)))

/-- WAIT_SATISFIED (R211, R285): the event of a stalled WAIT has come. -/
def execWaitSatisfied (sp : Spindle) (s : State) : Out :=
  match (s.spindles[sp]).seq.stall with
  | .event e => if s.seqReady sp (.event e) && s.eventCome sp e then .next (s.seqNext sp) else .next s
  | _ => .next s

/-- PUSH (R208, R210, R211, R538): the handle goes into the staple's next producer position, visible at SEND. -/
def execPush (sp : Spindle) (s : State) : Out :=
  .next (s.issue sp 8 .none (fun w s =>
    let q := (s.spindles[sp]).seq
    let r := wbits w 4 0
    let h : Word := q.h[wbits w 12 8 % 32]
    match (if q.inStaple then s.pushRing (skeinOf sp) r else none) with
    | none => s.seqFault sp
    | some k =>
      let ring := (s.skeins[k]).ring r
      let n := (q.pushes.filter (fun p => p.skein == k && p.ring == r)).length
      match ring.wiring, nthPos ring.producers q.stapleId n with
      | some wi, some pos =>
        if !wi.fits h then s.seqFault sp
        else
          let p : Pushed := { skein := k, ring := r, pos := pos, handle := h }
          (s.modSp sp (fun x => { x with seq := { x.seq with pushes := x.seq.pushes ++ [p] } })).seqNext sp
      | _, _ => s.seqFault sp))

/-- POP (R211, R538): requests the staple's next consumer position and stalls until POP_TAKE. -/
def execPop (sp : Spindle) (s : State) : Out :=
  .next (s.issue sp 9 .none (fun w s =>
    let r := wbits w 4 0
    if (s.spindles[sp]).seq.inStaple && (s.nextPop sp r).isSome then s.seqStall sp (.popWait r (wbits w 12 8))
    else s.seqFault sp))

/-- POP_TAKE (R208, R211): the awaited position is filled; its handle goes into the register and the position is held. -/
def execPopTake (sp : Spindle) (s : State) : Out :=
  match (s.spindles[sp]).seq.stall with
  | .popWait r reg =>
    if !s.seqReady sp (.popWait r reg) then .next s
    else
      let k := skeinOf sp
      let ring := (s.skeins[k]).ring r
      match s.nextPop sp r, ring.wiring with
      | some pos, some wi =>
        match ring.handleAt pos with
        | none => .next s
        | some h =>
          if !wi.fits h then .next (s.seqFault sp)
          else
            let s := s.modSk k (·.modRing r (fun g => { g with held := g.held ++ [pos] }))
            let p : Pushed := { skein := k, ring := r, pos := pos, handle := h }
            .next ((s.modSp sp (fun x => { x with seq := { x.seq with
              pops := x.seq.pops ++ [p], h := x.seq.h.set (reg % 32) h (by omega) } })).seqNext sp)
      | _, _ => .next s
  | _ => .next s

/-- LOOP (R37, R538): repeats the next words; bad counts, a third level and a body past its enclosing one are bad fields. -/
def execSeqLoop (sp : Spindle) (s : State) : Out :=
  .next (s.issue sp 0xA .none (fun w s =>
    let q := (s.spindles[sp]).seq
    let count := wbits w 15 0
    let body := wbits w 28 16
    let a := q.pc.toNat
    let bad := count = 0 ∨ body = 0 ∨ 2 ≤ q.loops.length ∨ (q.loops.head?.any (fun l => decide (l.stop < a + body)))
    if bad then s.seqFault sp
    else s.modSp sp (fun x => { x with seq := { x.seq with
      loops := { start := a + 1, stop := a + body, left := count } :: x.seq.loops, pc := BitVec.ofNat 13 (a + 1) } })))

/-- JMP (R37, R538). -/
def execJmp (sp : Spindle) (s : State) : Out :=
  .next (s.issue sp 0xB .none (fun w s =>
    s.modSp sp (fun x => { x with seq := { x.seq.jump (wbits w 12 0) with jumped := x.seq.taken.isSome } })))

/-- STEPEND (R37, R157, R538): once every armed pass has issued and completed, the spindle's part of the step is done. -/
def execStepend (sp : Spindle) (s : State) : Out :=
  .next (s.issue sp 0xC .stepend (fun _ s =>
    let x := s.spindles[sp]
    if x.seq.inStaple then s.seqFault sp
    else if !x.armed.isEmpty || x.passes.any (fun p => p.held.isSome) then s.seqStall sp .stepend
    else
      let s := s.mergeStats sp
      s.modSp sp (fun x => { x with seq := { x.seq with
        idle := true, atEnd := true, stall := .none, stepCycles := satAdd 32 0 ((s.now - x.seq.startedAt) / 10) } })))

/-- SETH (R38). -/
def execSeth (sp : Spindle) (s : State) : Out :=
  .next (s.issue sp 0xD .none (fun w s =>
    (s.modSp sp (fun x => { x with seq := { x.seq with
      h := x.seq.h.set (wbits w 4 0 % 32) (BitVec.ofNat 32 (wbits w 47 16)) (by omega) } })).seqNext sp))

end Sys2Proof.Machine
end

