-- ==== Sys2Proof/Machine/Vec.lean ====
section
/-!
DEFINITION. The vector engine's arithmetic, comparison, selection, special-function and reduction instructions (R166 to
R171). Each issues the word that the engine stands at.
-/
namespace Sys2Proof.Machine

/-- ADD (R166, R168, R169). -/
def execVAdd (sp : Spindle) (s : State) : Out := .next (s.vecIssue sp 1 (fun c x => arith2 c x Val.add (· + ·)))

/-- SUB (R166, R168, R169). -/
def execVSub (sp : Spindle) (s : State) : Out := .next (s.vecIssue sp 2 (fun c x => arith2 c x Val.sub (· - ·)))

/-- MUL (R166, R168, R169). -/
def execVMul (sp : Spindle) (s : State) : Out := .next (s.vecIssue sp 3 (fun c x => arith2 c x Val.mul (· * ·)))

/-- FMA: one rounding or clamp (R166, R168, R169). -/
def execVFma (sp : Spindle) (s : State) : Out :=
  .next (s.vecIssue sp 4 (fun c x =>
    let ty := c.ins.ty
    let u := bit c.ins.fn 0
    elementwise c x [c.ins.s1, c.ins.s2, c.ins.s3] false (fun ss j =>
      if isF ty then
        let a := (src ss 0).val ty j
        let b := (src ss 1).val ty j
        let d := (src ss 2).val ty j
        floatOut (tyFmt ty) [a, b, d] ((a.mul b).add d)
      else intOut ty u ((src ss 0).int ty u j * (src ss 1).int ty u j + (src ss 2).int ty u j))))

/-- MIN (R166, R168). -/
def execVMin (sp : Spindle) (s : State) : Out := .next (s.vecIssue sp 5 (fun c x => arith2 c x Val.min2 min))

/-- MAX (R166, R168). -/
def execVMax (sp : Spindle) (s : State) : Out := .next (s.vecIssue sp 6 (fun c x => arith2 c x Val.max2 max))

/-- UNARY: ABS, NEG, COPY (R166, R168, R169). -/
def execVUnary (sp : Spindle) (s : State) : Out :=
  .next (s.vecIssue sp 7 (fun c x =>
    let ty := c.ins.ty
    let op := c.ins.fn % 4
    elementwise c x [c.ins.s1] false (fun ss j =>
      if isF ty then
        let a := (src ss 0).val ty j
        floatOut (tyFmt ty) [a] (match op with | 0 => (if a.neg then a.flip else a) | 1 => a.flip | _ => a)
      else
        let a := (src ss 0).int ty false j
        intOut ty false (match op with | 0 => (a.natAbs : Int) | 1 => -a | _ => a))))

/-- CMP: the mask bits of each active element's bytes become the outcome (R161, R166, R168). -/
def execVCmp (sp : Spindle) (s : State) : Out :=
  .next (s.vecIssue sp 8 (fun c x =>
    let n := c.ins
    if pathsOk sp [n.s1, n.s2] then do
      let (ss, x) ← readSrcs c [n.s1, n.s2] 0 x
      let m := c.maskOf x
      let w := tyBytes n.ty
      let out := fun j =>
        let o := if isF n.ty then Val.cmp ((src ss 0).val n.ty j) ((src ss 1).val n.ty j)
          else some (compare ((src ss 0).int n.ty false j) ((src ss 1).int n.ty false j))
        if cmpCode (n.fn % 8) o then 2 ^ w - 1 else 0
      let set := fun j => if m.getLsbD (w * j) then 2 ^ w - 1 else 0
      let all := List.range (tyCount n.ty)
      let mw : MaskWrite := { due := x.vec.cycle + n.latency, reg := ⟨n.dst % 4, by omega⟩
                              bits := BitVec.ofNat 256 (packN w (all.map out)), set := BitVec.ofNat 256 (packN w (all.map set))
                              hold := x.vec.hold }
      pure { x := { x with vec := { x.vec with maskWrites := addByDue (·.due) mw x.vec.maskWrites } } }
    else .error (.cause 2)))

/-- SEL: s1 where the mask is set, else s2, in every element (R166); its bits pass unchanged, a NaN's too (R99; log 128). -/
def execVSel (sp : Spindle) (s : State) : Out :=
  .next (s.vecIssue sp 9 (fun c x =>
    let n := c.ins
    if pathsOk sp [n.s1, n.s2] then do
      let (ss, x) ← readSrcs c [n.s1, n.s2] 0 x
      let m := activeBits n.ty (tyCount n.ty) (c.maskOf x)
      let x ← x.dest c 256 (((src ss 0).bits &&& m) ||| ((src ss 1).bits &&& ~~~m)) (BitVec.allOnes 2048) false
      pure { x := x }
    else .error (.cause 2)))

/-- SHIFT: arithmetic, by a signed amount (R166, R169). -/
def execVShift (sp : Spindle) (s : State) : Out :=
  .next (s.vecIssue sp 0xA (fun c x =>
    let ty := c.ins.ty
    elementwise c x [c.ins.s1] false (fun ss j => intOut ty false (shiftInt ((src ss 0).int ty false j) (sbits 7 (c.ins.fn % 128))))))

/-- LOGIC: AND, OR, XOR, AND-NOT (R166). -/
def execVLogic (sp : Spindle) (s : State) : Out :=
  .next (s.vecIssue sp 0xB (fun c x =>
    let n := c.ins
    if pathsOk sp [n.s1, n.s2] then do
      let (ss, x) ← readSrcs c [n.s1, n.s2] 0 x
      let a := (src ss 0).bits
      let b := (src ss 1).bits
      let v := match n.fn % 4 with | 0 => a &&& b | 1 => a ||| b | 2 => a ^^^ b | _ => a &&& ~~~b
      let x ← x.dest c 256 v (activeBits n.ty (tyCount n.ty) (c.maskOf x)) false
      pure { x := x }
    else .error (.cause 2)))

/-- ACT (R144, R166, R170). -/
def execVAct (sp : Spindle) (s : State) : Out :=
  .next (s.vecIssue sp 0x10 (fun c x =>
    elementwise c x [c.ins.s1] false (fun ss j =>
      let a := (src ss 0).val 0 j
      let (v, o) := activate (c.ins.fn % 8) a
      let r := floatOut fp32 [a] v
      { r with rep := (r.rep.add (opRep false o)).once })))

/-- GATE (R166, R170). -/
def execVGate (sp : Spindle) (s : State) : Out :=
  .next (s.vecIssue sp 0x11 (fun c x =>
    elementwise c x [c.ins.s1, c.ins.s2] false (fun ss j =>
      let a := (src ss 0).val 0 j
      let b := (src ss 1).val 0 j
      let (v, o) := activate (c.ins.fn % 8) a
      let r := floatOut fp32 [a, b] (v.mul b)
      { r with rep := (r.rep.add (opRep false o)).once })))

/-- DIV (R166, R170): zero as a divisor of a nonzero number reports nothing. -/
def execVDiv (sp : Spindle) (s : State) : Out := .next (s.vecIssue sp 0x12 (fun c x => arith2 c x Val.div (fun a _ => a)))

/-- SQRT (R166, R170). -/
def execVSqrt (sp : Spindle) (s : State) : Out :=
  .next (s.vecIssue sp 0x13 (fun c x =>
    let ty := c.ins.ty
    elementwise c x [c.ins.s1] false (fun ss j =>
      let a := (src ss 0).val ty j
      floatOut (tyFmt ty) [a] a.sqrt)))

/-- RSQRT (R152, R166, R170). -/
def execVRsqrt (sp : Spindle) (s : State) : Out :=
  .next (s.vecIssue sp 0x14 (fun c x =>
    elementwise c x [c.ins.s1] false (fun ss j =>
      let a := (src ss 0).val 0 j
      floatOut fp32 [a] (rsqrtVal a))))

/-- LN (R152, R166, R170). -/
def execVLn (sp : Spindle) (s : State) : Out :=
  .next (s.vecIssue sp 0x15 (fun c x =>
    elementwise c x [c.ins.s1] false (fun ss j =>
      let a := (src ss 0).val 0 j
      floatOut fp32 [a] (lnVal a))))

/-- REDUCE (R166, R171): element 0 takes the tree's result, the others 0. -/
def execVReduce (sp : Spindle) (s : State) : Out :=
  .next (s.vecIssue sp 0x18 (fun c x => do
    let n := c.ins
    let (ss, x) ← readSrcs c [n.s1] 0 x
    let r := reduce n.ty (n.fn % 4) (c.maskOf x) (src ss 0)
    let x ← x.dest c 256 (BitVec.ofNat 2048 r.code) (BitVec.allOnes 2048) false
    pure { x := x, rep := r.rep.once }))

/-- BCAST (R166): an index past the last element gives no defined value. -/
def execVBcast (sp : Spindle) (s : State) : Out :=
  .next (s.vecIssue sp 0x19 (fun c x =>
    let ty := c.ins.ty
    let k := c.ins.fn % 256
    elementwise c x [c.ins.s1] false (fun ss _ =>
      { code := if k < tyCount ty then (src ss 0).raw ty k else freeBits (c.free + 2048) (tyBytes ty) })))

/-- PERM (R166). -/
def execVPerm (sp : Spindle) (s : State) : Out :=
  .next (s.vecIssue sp 0x1A (fun c x =>
    let ty := c.ins.ty
    elementwise c x [c.ins.s1, c.ins.s2] false (fun ss j =>
      { code := (src ss 0).raw ty ((src ss 1).raw ty j % tyCount ty) })))

/-- CVT (R161, R166, R170): the half selects in the register with more elements; bytes that no element fills become 0. -/
def execVCvt (sp : Spindle) (s : State) : Out :=
  .next (s.vecIssue sp 0x22 (fun c x => do
    let n := c.ins
    let from_ := n.fn % 8
    let hi := bit n.fn 3
    let ns := tyCount from_
    let nd := tyCount n.ty
    let k := min ns nd
    let so := if hi && decide (nd < ns) then ns / 2 else 0
    let dO := if hi && decide (ns < nd) && !specMem n.dst then nd / 2 else 0
    let (ss, x) ← readSrcs c [n.s1] 0 x
    let m := c.maskOf x
    let w := 8 * tyBytes n.ty
    let on := fun j => m.getLsbD (tyBytes n.ty * (dO + j))
    let es := (List.range k).map (fun j => if on j then convert n.ty ((src ss 0).any from_ (so + j)) else { code := 0 })
    let v := BitVec.ofNat 2048 (packN w (List.replicate dO 0 ++ es.map (·.code)))
    let ab := BitVec.ofNat 2048 (packN w (List.replicate dO (2 ^ w - 1) ++
      (List.range k).map (fun j => if on j then 2 ^ w - 1 else 0)))
    let x ← x.dest c (tyBytes n.ty * (dO + k)) v ab false
    pure { x := x, rep := es.foldl (fun r e => r.add e.rep) {} }))

/-- MOVS (R166, R174). -/
def execVMovs (sp : Spindle) (s : State) : Out :=
  .next (s.vecIssue sp 0x25 (fun c x => do
    let n := c.ins
    let from_ := bits n.fn 4 2
    let k := min (tyCount from_) (tyCount n.ty)
    let (ss, x) ← readSrcs c [n.s1] 0 x
    let reg : BitVec 448 := x.vec.scale[n.fn % 4]
    let sh := fun j => laneShift reg (if bit n.fn 5 then j else 0)
    let (v, m, r) := gatherOut n.ty k (c.maskOf x) (fun j => moveScaled n.ty from_ ((src ss 0).any from_ j) (sh j))
    let x ← x.dest c (tyBytes n.ty * k) v m false
    pure { x := x, rep := r }))

end Sys2Proof.Machine
end

