-- ==== Sys2Proof/Machine/VecMem.lean ====
section
/-!
DEFINITION. The vector engine's memory instructions, stores with conversion, filter taps, row statistics and ply
instructions (R166, R172 to R179).
-/
namespace Sys2Proof.Machine

/-- LD (R163, R166): 256 bytes from memory. -/
def execVLd (sp : Spindle) (s : State) : Out :=
  .next (s.vecIssue sp 0x20 (fun c x => do
    needMem c.ins.s1
    let (b, x) ← x.memOperand (c.free + 2048) c.ins.s1 256 256
    let x ← x.dest c 256 (BitVec.ofNat 2048 (leNat b)) (activeBits c.ins.ty (tyCount c.ins.ty) (c.maskOf x)) true
    pure { x := x }))

/-- ST (R163, R166): bytes unchanged. -/
def execVSt (sp : Spindle) (s : State) : Out :=
  .next (s.vecIssue sp 0x21 (fun c x => do
    needMem c.ins.dst
    let (ss, x) ← readSrcs c [c.ins.s1] 0 x
    let x ← x.dest c 256 (src ss 0).bits (activeBits c.ins.ty (tyCount c.ins.ty) (c.maskOf x)) false
    pure { x := x }))

/-- LDSD (R166, R172): a store descriptor slot takes 64 bytes. -/
def execVLdsd (sp : Spindle) (s : State) : Out :=
  .next (s.vecIssue sp 0x24 (fun c x => do
    needMem c.ins.s1
    let (b, x) ← x.memOperand (c.free + 2048) c.ins.s1 64 64
    let slot : StoreSlot := { raw := b, row := field b 0x30 4, col := field b 0x34 4 }
    pure { x := { x with vec := { x.vec with slots := x.vec.slots.set (c.ins.fn % 4) (some slot) (by omega) } } }))

/-- The elements of a VST: each value with its index and its random word (R106, R107, R173). -/
def StoreSlot.elems (q : StoreSlot) (seed n : Nat) (v : Nat → Val) : List (Val × Nat × Nat) :=
  (List.range n).map (fun j =>
    let i := (field q.raw 0x18 8 + q.row * field q.raw 0x20 8 + q.col + j) % 2 ^ 64
    (v j, i, philoxWord seed (field q.raw 4 4) i))

/-- The codes and bytes of element lists, keeping inactive elements' bits: `old` reads the byte that stands there. -/
def packActive (w : Nat) (codes : List (Option Nat)) (old : Nat → Byte) : List (Option Byte) :=
  if w = 4 then
    (List.range (ceilDiv codes.length 2)).map (fun i =>
      let lo := (codes[2 * i]?).getD none
      let hi := (codes[2 * i + 1]?).getD none
      let nib := fun (o : Option Nat) (d : Nat) => match o with | some c => c % 16 | none => d
      if lo.isNone && hi.isNone then none
      else
        let o := (old i).toNat
        -- past the last element of an odd count the high nibble is 0
        let hd := if codes.length ≤ 2 * i + 1 then 0 else o / 16
        some (BitVec.ofNat 8 (nib lo (o % 16) + 16 * nib hi hd)))
  else codes.flatMap (fun c => match c with
    | some v => (leBytes (w / 8) v).map some
    | none => List.replicate (w / 8) none)

/-- VST (R94, R102 to R107, R115, R172, R173). A block of an MX format takes its inactive elements in (R104; log 129). -/
def execVVst (sp : Spindle) (s : State) : Out :=
  .next (s.vecIssue sp 0x23 (fun c x => do
    let n := c.ins
    needMem n.dst
    match x.vec.slots[n.fn % 4] with
    | none => .error (.cause 8)
    | some q =>
      let b := q.raw
      let fmt := field b 0 1
      let mx := decide (10 ≤ fmt)
      if !q.ok || (q.formatOk && mx && q.col % 32 ≠ 0) then .error (.cause 8)
      else if !q.formatOk then pure { x := x, rep := { code := 0x0313 } }
      else
        let (ss, x) ← readSrcs c [n.s1] 0 x
        let k := min 64 (field b 8 4 - q.col)
        let m := c.maskOf x
        let on := fun j => m.getLsbD (4 * j)
        let es := q.elems c.seed k (fun j => (src ss 0).any n.ty j)
        let w := storeBits fmt
        let nb := ceilDiv (k * w) 8
        let o ← x.place (specAdr n.dst) nb (pow2Above nb) 0
        let old := fun i => x.byte 0 (o + i)
        let rnd := field b 1 1
        let st := es.map (fun e => storeScalar fmt rnd e.2.2 e.1)
        let blocks := (List.range (ceilDiv k 32)).map (fun i =>
          let part := (es.drop (32 * i)).take 32
          mxBlock fmt rnd (part.map (·.2.2)) (part.map (·.1)))
        let codes := if mx then blocks.flatMap (·.2) else st.map (·.code)
        let acts := codes.zipIdx.map (fun p => if on p.2 then some p.1 else none)
        let x ← x.putMem o n.memLatency (packActive w acts old)
        let sa := field b 0xC 4 + q.row * field b 0x10 4 + q.col / 32
        let x ← (if mx then
            if sa + blocks.length ≤ 0x600000 then x.putMem sa n.memLatency (blocks.map (fun p => some p.1)) else .error (.cause 8)
          else .ok x)
        let done := st.zipIdx.filter (fun p => on p.2)
        let ov := if mx then 0 else (done.filter (fun p => p.1.ovf)).length
        let un := if mx then 0 else (done.filter (fun p => p.1.unf)).length
        let record : StatRec := { addr := BitVec.ofNat 64 (field b 0x28 8), tensorId := BitVec.ofNat 32 (field b 4 4)
                                  format := fmt, isInt := n.ty == 4 }
        let xs := (List.zip es st).zipIdx.filterMap (fun p =>
          if on p.2 then some { index := p.1.1.2.1, value := p.1.1.1, ovf := !mx && p.1.2.ovf, unf := !mx && p.1.2.unf } else none)
        let (num, code) := x.num.contribute record fp32 xs
        let col := q.col + k
        let q := if col = field b 8 4 then { q with row := q.row + 1, col := 0 } else { q with col := col }
        let x := { x with num := num, vec := { x.vec with slots := x.vec.slots.set (n.fn % 4) (some q) (by omega) } }
        pure { x := x.post n.dst
               rep := { flags := flagIf (0 < ov) 4 ||| flagIf (0 < un) 5, storeOvf := ov, storeUnf := un, code := code } }))

/-- The accumulator of an FTAP: an FTAP to the same register issued in the cycle before is seen (R175). -/
def Vec.tapAcc (v : Vec) (free : Nat) (r : Fin 32) : BitVec 2048 :=
  let b := v.read free r
  match v.regWrites.find? (fun w => w.ftap && w.reg == r && w.due == v.cycle + 4) with
  | some w => (b &&& ~~~w.mask) ||| (w.bytes &&& w.mask)
  | none => b

/-- The accumulator values that an FTAP reads are in flight (R98, R175). -/
def Vec.tapFlight (v : Vec) (r : Fin 32) : Bool :=
  v.regWrites.any (fun w => w.ftap && w.reg == r && w.due == v.cycle + 4) || !v.byLd.getLsbD r.val

/-- FTAP (R166, R175): one tap and the move of its sample. -/
def execVFtap (sp : Spindle) (s : State) : Out :=
  .next (s.vecIssue sp 0x26 (fun c x => do
    let n := c.ins
    needMem n.s1
    needReg n.s2
    needReg n.dst
    let flt := isF n.ty
    let size := if flt then 256 else 128
    let o ← x.place (specAdr n.s1) size size 0
    let b ← x.fetch (c.free + 2048) o size
    let near := bits n.fn 15 7
    let disp : Int := sbits 9 near * 256
    let move := !bit n.fn 17
    let viaS3 := bit n.fn 16
    let toAddr ← (if !move || viaS3 then .ok 0 else x.place (specAdr n.s1) size size disp)
    let x := x.post n.s1
    let (toAddr, x) ← (if move && viaS3 then do
        needMem n.s3
        let t ← x.place (specAdr n.s3) size size 0
        pure (t, x.post n.s3)
      else pure (toAddr, x))
    let r := specReg n.dst
    let smp : Src := { bits := BitVec.ofNat 2048 (leNat b), flight := false }
    let (cs, x) ← readSrcs c [n.s2] 1 x
    let cf := src cs 0
    let acc : Src := { bits := x.vec.tapAcc (c.free + 768) r, flight := x.vec.tapFlight r }
    let m := c.maskOf x
    let k := fun j => if bit n.fn 18 then j else n.fn % 64
    let first := bit n.fn 6
    let (v, ab, rep) := gatherOut n.ty 64 m (fun j =>
      if flt then
        let a : Val := if first then .zero else acc.val 0 j
        let f := cf.val 0 (k j)
        let y := smp.val 0 j
        floatOut fp32 [a, f, y] ((f.mul y).add a)
      else
        let a : Int := if first then 0 else acc.int 4 false j
        intOut 4 false (a + cf.int 5 false (k j) * smp.int 5 false j))
    let es := size / 64
    let x ← (if move then
        x.putMem toAddr 2 (b.zipIdx.map (fun p => if m.getLsbD (4 * (p.2 / es)) then some p.1 else none))
      else .ok x)
    pure { x := x.putReg r n.latency v ab false true, rep := rep }))

/-- The four FP32 fields of a row slot of a register (R176). -/
def Src.slotFold (q : Src) (r : Nat) : Fold := (q.val 0 (4 * r), q.val 0 (4 * r + 1), q.val 0 (4 * r + 2), q.val 0 (4 * r + 3))

/-- Write a row slot (R176). -/
def SpindleState.putSlot (x : SpindleState) (c : VCtx) (r : Nat) (f : Fold) : SpindleState :=
  let v := BitVec.ofNat 2048 (leNat (foldBytes f) * 2 ^ (128 * r))
  x.putReg (specReg c.ins.dst) c.ins.latency v (BitVec.ofNat 2048 ((2 ^ 128 - 1) * 2 ^ (128 * r))) false false

/-- RSFOLD (R149, R166, R176): folds the active elements in ascending order. -/
def execVRsfold (sp : Spindle) (s : State) : Out :=
  .next (s.vecIssue sp 0x28 (fun c x => do
    let n := c.ins
    needReg n.dst
    let (ss, x) ← readSrcs c [n.s1] 0 x
    let r := n.fn % 16
    let d : Src := { bits := x.vec.read (c.free + 768) (specReg n.dst), flight := !x.vec.byLd.getLsbD (specReg n.dst).val }
    let m := c.maskOf x
    let start := if bit n.fn 4 then foldStart else d.slotFold r
    let ys := ((List.range (bits n.fn 10 5 + 1)).filter (fun j => m.getLsbD (4 * j))).map ((src ss 0).val 0)
    pure { x := x.putSlot c r (ys.foldl foldStep start) }))

/-- RSFIN (R152, R166, R176): finalises a row slot; n above 2^24 is cause 8. -/
def execVRsfin (sp : Spindle) (s : State) : Out :=
  .next (s.vecIssue sp 0x29 (fun c x => do
    let n := c.ins
    needReg n.dst
    let (ss, x) ← readSrcs c [n.s2] 1 x
    let cnt := (src ss 0).raw 4 0
    if 2 ^ 24 < cnt then .error (.cause 8)
    else
      let r := n.fn % 16
      let d : Src := { bits := x.vec.read (c.free + 768) (specReg n.dst), flight := !x.vec.byLd.getLsbD (specReg n.dst).val }
      pure { x := x.putSlot c r (foldFinal (d.slotFold r) cnt ((src ss 0).val 0 1)) }))

/-- PLYEXP (R122, R124, R166, R177). -/
def execVPlyexp (sp : Spindle) (s : State) : Out :=
  .next (s.vecIssue sp 0x2C (fun c x => do
    let n := c.ins
    needMem n.s1
    needReg n.dst
    let es := tyBytes n.ty
    let (b, x) ← x.memOperand (c.free + 2048) n.s1 (16 * es) (16 * es)
    let q : Src := { bits := BitVec.ofNat 2048 (leNat b), flight := false }
    let slot := n.fn % 128
    let across := bit n.fn 7
    if across && decide (127 < slot + 15) then .error (.cause 8)
    else
      let d := x.vec.read (c.free + 768) (specReg n.dst)
      let m := c.maskOf x
      let on := (List.range 16).filter (fun e => m.getLsbD (es * e))
      let old := fun k => if bit n.fn 8 then expEmpty else elemAt 16 d k
      let new : List (Nat × Nat) :=
        if across then on.map (fun e => (slot + e, expStep (old (slot + e)) (q.val n.ty e)))
        else if on.isEmpty then [] else [(slot, on.foldl (fun a e => expStep a (q.val n.ty e)) (old slot))]
      let v := BitVec.ofNat 2048 ((new.map (fun p => p.2 * 2 ^ (16 * p.1))).sum)
      let ab := BitVec.ofNat 2048 ((new.map (fun p => 0xFFFF * 2 ^ (16 * p.1))).sum)
      pure { x := x.putReg (specReg n.dst) n.latency v ab false false }))

/-- Write the plies of a PLYSPLIT, 16 bytes each, a plane apart (R178). -/
def SpindleState.putPlies (x : SpindleState) (a stride lat : Nat) : Nat → List (List (Option Byte)) → Except VFault SpindleState
  | _, [] => .ok x
  | i, p :: ps => do
    let o ← x.place a 16 16 ((i * stride : Nat) : Int)
    let x ← x.putMem o lat p
    x.putPlies a stride lat (i + 1) ps

/-- PLYSPLIT (R123, R124, R166, R178). -/
def execVPlysplit (sp : Spindle) (s : State) : Out :=
  .next (s.vecIssue sp 0x2D (fun c x => do
    let n := c.ins
    needMem n.s1
    needMem n.dst
    if !pathsOk sp [n.s1, n.s2] then .error (.cause 2)
    else
      let p := bits n.fn 11 8
      let slot := n.fn % 128
      let across := bit n.fn 7
      let bad := (if n.ty = 3 then decide (p < 5) || decide (8 < p) else p != 4) || (across && decide (127 < slot + 15))
      if bad then .error (.cause 8)
      else
        let es := tyBytes n.ty
        let (b, x) ← x.memOperand (c.free + 2048) n.s1 (16 * es) (16 * es)
        let (ss, x) ← readSrcs c [n.s2] 1 x
        let q : Src := { bits := BitVec.ofNat 2048 (leNat b), flight := false }
        let m := c.maskOf x
        let cols := (List.range 16).map (fun e =>
          let k := if across then slot + e else slot
          plies p (elemAt 16 (src ss 0).bits k) (q.val n.ty e) (freeBytes (c.free + 2048 + 16 * e) p))
        let rows := (List.range p).map (fun i => cols.zipIdx.map (fun y =>
          if m.getLsbD (es * y.2) then some ((y.1[i]?).getD 0) else none))
        let x ← x.putPlies (specAdr n.dst) x.vec.planeStride.toNat n.latency 0 rows
        pure { x := x.post n.dst }))

/-- Passes that touch accumulator rows of a range, in queue, in the grid or armed behind it (R130). -/
def SpindleState.touches (x : SpindleState) (row n : Nat) : Bool :=
  x.passes.any (fun p => decide (p.desc.accRow < row + n) && decide (row < p.desc.accRow + p.desc.rows))

/-- The exact sum of PLYCOMB for row m and column k (R128, R129). -/
def SpindleState.plySum (x : SpindleState) (d : PlyDesc) (part : Int) (m k : Nat) : Int :=
  (List.range (d.dmax + 1)).foldl (fun t i =>
    t + int32 ((x.accGet ((d.diagRow + i * d.m + m) * 128 + k)).toNat) * 2 ^ (8 * (d.dmax - i))) part

/-- PLYCOMB (R128 to R133, R166, R179). -/
def execVPlycomb (sp : Spindle) (s : State) : Out :=
  .next (s.vecIssue sp 0x2E (fun c x => do
    let n := c.ins
    needMem n.s1
    let (b, x') ← x.memOperand (c.free + 2048) n.s1 64 8
    let d := parsePly b
    let m := n.fn % 4096
    let first := if bit n.fn 12 then 64 else 0
    let cols := (List.range 64).filterMap (fun j => if first + j < d.cols then some (first + j) else none)
    if !d.ok || d.m ≤ m then .error (.cause 3)
    else if (List.range (d.dmax + 1)).any (fun i => x.touches (d.diagRow + i * d.m + m) 1) then
      pure { x := x, stalls := true }
    else
      let x := x'
      let ea ← x.fetch (c.free + 2112) (d.ea + 2 * m) 2
      let pa := d.part + 24 * (m * d.cols + first)
      let eb ← x.fetch (c.free + 2128) (d.eb + 2 * first) (2 * cols.length)
      let pb ← (if d.first then .ok [] else x.fetch (c.free + 2304) pa (24 * cols.length))
      let outs := cols.zipIdx.map (fun k =>
        let part : Int := if d.first then 0 else (BitVec.ofNat 192 (leNat (sliceBytes pb (24 * k.2) 24))).toInt
        (k.1, d.combine (x.plySum d part m k.1) (leNat ea) (field eb (2 * k.2) 2)))
      let iv := d.dmax + 2 + (if d.first then 0 else 2)
      let lat := iv + 6
      if !d.last then
        let x ← x.putMem pa lat ((outs.flatMap (fun o => o.2.part)).map some)
        pure { x := x, interval := some iv }
      else
        let o := d.out + m * d.outStride + d.outSize * first
        let x ← x.putMem o lat ((outs.flatMap (fun y => leBytes d.outSize y.2.code)).map some)
        let f := if d.wide then fp64 else fp32
        let record : StatRec := { addr := d.recordAddr, tensorId := d.tensorId, format := if d.wide then 13 else 0, isInt := false }
        let (num, code) := x.num.contribute record f (outs.map (fun y =>
          { index := (d.elemBase + m * d.elemPitch + y.1) % 2 ^ 64, value := y.2.value, ovf := false, unf := y.2.unf }))
        let rep := outs.foldl (fun r y => r.add y.2.rep) ({} : NumRep)
        pure { x := { x with num := num }, rep := { rep with code := if rep.code = 0 then code else rep.code }, interval := some iv }))

end Sys2Proof.Machine
end

