-- ==== Sys2Proof/Machine/Weft.lean ====
section
/-!
DEFINITION. The weft's and the creel's commands (chapter 08).
-/
namespace Sys2Proof.Machine

/-- WEFT_READ_REQUEST (R221, R225, R479): a read request at a spindle is answered with the window's bytes; bytes that arrived poisoned
read as uncorrectable. At any other endpoint the command is what the way did to the packet, which that endpoint's own command takes. -/
def execWeftReadRequest (src dst : Endpoint) (vc : BitVec 2) (way : Transit) (s : State) : Out :=
  match spindleAt dst with
  | none => .next (s.markWay src dst vc way)
  | some i =>
    match s.arrive .readReq src dst vc with
    | none => .next s
    | some (p, s) =>
      let s := s.wayRecords p way
      if s.spDown i then .next (s.send (p.answer .readResp (s.spStatus i) [] false))
      else match s.decodeAddr p.addr with
        | .spindle _ o =>
          let data := (s.spindles[i]).readBytes s.fresh o p.bytes
          let bad := (s.spindles[i]).bad o p.bytes
          let s := { s with fresh := s.fresh + p.bytes }
          .next (s.send (p.answer .readResp (if bad then 0x0401 else 0) data bad))
        | _ => .next (s.send (p.answer .readResp 0x0981 [] false))

/-- WEFT_WRITE (R221, R225): a write at a spindle is stored and acknowledged. At any other endpoint the command is what the way did to
the packet, which that endpoint's own command takes. -/
def execWeftWrite (src dst : Endpoint) (vc : BitVec 2) (way : Transit) (s : State) : Out :=
  match spindleAt dst with
  | none => .next (s.markWay src dst vc way)
  | some i =>
    match s.arrive .write src dst vc with
    | none => .next s
    | some (p, s) =>
      let s := s.countCorr (onRoute src dst) way
      match s.decodeAddr p.addr with
      | .spindle _ o =>
        let (s, c) := s.spindleWrite i o p.data (p.poison || way.bad)
        .next (s.send (p.answer .writeAck c [] false))
      | _ => .next (s.send (p.answer .writeAck 0x0981 [] false))

/-- READ_RESPONSE (R221, R225). At a creel slice the command is what the way did to the packet; CREEL_LINE_FILL takes it. -/
def execReadResponse (src dst : Endpoint) (vc : BitVec 2) (way : Transit) (s : State) : Out :=
  if (sliceAt dst).isSome then .next (s.markWay src dst vc way)
  else
    match s.arrive .readResp src dst vc with
    | none => .next s
    | some (p, s) => .next ((s.wayRecords p way).deliverRead { p with poison := p.poison || way.bad })

/-- WRITE_ACKNOWLEDGEMENT (R224, R225, R284). -/
def execWriteAcknowledgement (src dst : Endpoint) (vc : BitVec 2) (way : Transit) (s : State) : Out :=
  match s.arrive .writeAck src dst vc with
  | none => .next s
  | some (p, s) => .next ((s.wayRecords p way).deliverAck p)

/-- Every stream of a source moves on as far as its outputs take it. -/
def State.drainSource (s : State) (src : Endpoint) (blocked : List McOut) : State :=
  (s.streams.filter (fun st => st.src == src)).foldl (fun s st =>
    let (s, st) := s.drainStream st blocked
    let (s, st) := s.ackStream st
    s.setStream st) s

/-- MULTICAST_WRITE (R225, R238, R239): the oldest multicast packet of a source is replicated; `blocked` names the outputs whose next
hop takes no flit. First every other output empties its skid, with no packet on the way too. -/
def execMulticastWrite (src : Endpoint) (way : Transit) (blocked : List McOut) (s : State) : Out := s.clocked <|
  let s := s.drainSource src blocked
  match s.takePacket (fun p => p.kind == .mcast && p.src == src) with
  | none => .next s
  | some (p, s) =>
    let p := { p with poison := p.poison || way.bad }
    let s := s.countCorr (fun _ => true) way
    let mask := if h : p.group < 64 then (s.dies[src.die]).mcast[p.group] else 0
    if mask = 0 then .next (s.send (p.answer .writeAck 0x0985 [] false))
    else
      let old := s.streams.find? (fun st => st.src == src && st.stream == p.stream)
      let st : McStream := old.getD { src := src, stream := p.stream, group := p.group, ring := p.ring }
      let s := if old.isNone then { s with streams := s.streams ++ [st] } else s
      let st := { st with bytes := st.bytes + p.data.length, acks := st.acks ++ [{ pkt := p }] }
      let (s, st) := passSource blocked src.die s st p
      let (s, st) := s.ackStream st
      .next (s.setStream st)

/-- MCAST_BRANCH_TIMEOUT (R240): a flit has waited 512 sc at the head of an output. -/
def execMcastBranchTimeout (src : Endpoint) (stream : BitVec 8) (branch : McOut) (s : State) : Out := s.clocked <|
  match s.streams.find? (fun st => st.src == src && st.stream == stream.toNat) with
  | none => .next s
  | some st =>
    match (st.branch branch).since with
    | none => .next s
    | some t =>
      if s.now < t + Time.sc 512 then .next s
      else
        let (s, st) := s.prune st branch
        let (s, st) := s.ackStream st
        .next (s.setStream st)

/-- FENCE_REQUEST (R227). -/
def execFenceRequest (d : Die) (ep : Fin 16) (s : State) : Out := .next (s.fenceReq d ep)

/-- FENCE_DRAIN_COMPLETE (R227): nothing is left in the bridge and no response is owed to the region. -/
def execFenceDrainComplete (d : Die) (ep : Fin 16) (s : State) : Out := s.clocked <|
  let x := (s.fabric[d]).eps[ep]
  if (s.dies[d]).draining.getLsbD ep.val && x.inFlight.isEmpty && x.outstanding.isEmpty then .next (s.fenceDone d ep)
  else .next s

/-- WFT_FENCE_TIMEOUT (R228). -/
def execWftFenceTimeout (d : Die) (ep : Fin 16) (s : State) : Out := s.clocked <|
  let x := s.dies[d]
  if x.draining.getLsbD ep.val && decide (x.fenceAt[ep] + Time.sc x.fenceLimit.toNat < s.now) then
    let left := ((s.fabric[d]).eps[ep]).inFlight
    let s := left.foldl (fun s q =>
      s.send (q.pkt.answer (if q.pkt.kind == .readReq then .readResp else .writeAck) 0x0982 [] false)) s
    let s := s.modFab d (fun f => { f with eps := vmod f.eps ep (fun e => { e with inFlight := [], outstanding := [] }) })
    let s := s.weftNote d 0x0983 (fabEndpoint d ep)
    let s := s.modDie d (fun y => { y with fenceTimeout := true })
    .next ((s.fenceDone d ep).report 0x0983)
  else .next s

/-- FENCE_RELEASE (R227). -/
def execFenceRelease (d : Die) (ep : Fin 16) (s : State) : Out := .next (s.fenceRel d ep)

/-- What the creel's code found in the first line of a read that the slice holds: a correctable error counts, an uncorrectable one drops
the line, which is then fetched again (R237). -/
def State.creelEcc (s : State) (d : Die) (lines : List Nat) (ecc : Ecc) : State :=
  match lines.find? (fun n => ((s.dies[d]).slices[homeSlice n]).lines.any (fun l => l.n == n)), ecc with
  | some _, .corrected => s.modDie d (fun y => { y with crlCorr := satAdd 32 y.crlCorr 1 })
  | some n, .uncorrectable =>
    (s.modSlice d (homeSlice n) (fun y => { y with lines := y.lines.filter (fun l => l.n != n) })).modDie d
      (fun y => { y with crlUncorr := satAdd 32 y.crlUncorr 1 })
  | _, _ => s

/-- CREEL_READ (R234, R235, R237): a read at a home slice. A read that needs a fetch while its slice has 64 under way waits. -/
def execCreelRead (src dst : Endpoint) (vc : BitVec 2) (ecc : Ecc) (s : State) : Out :=
  match sliceAt dst with
  | none => .next s
  | some _ =>
    match s.arrive .readReq src dst vc with
    | none => .next s
    | some (p, t) =>
      let d := dst.die
      if !s.creelServes d p.addr then .next (t.bypass p)
      else
        let ls := linesOf p.addr p.bytes
        let t := t.creelEcc d ls ecc
        let y := t.dies[d]
        let misses := fun (n : Nat) =>
          let sl := y.slices[homeSlice n]
          !(sl.lines.any (fun l => l.n == n)) && !(sl.fetches.any (fun f => f.n == n && !f.stale))
        let full := (List.finRange 8).any (fun x =>
          let k := (ls.filter (fun n => misses n && homeSlice n == x)).length
          decide (0 < k) && decide (64 < (y.slices[x]).fetches.length + k))
        if full then .next s
        else
          let (t, w) := ls.foldl (fun (acc : State × CreelWait) n => acc.1.creelLine d acc.2 n)
            (t, { pkt := p, parts := [], need := [] })
          if w.need.isEmpty then .next (t.send w.reply)
          else .next (t.modDie d (fun y => { y with waits := y.waits ++ [w] }))

/-- CREEL_LINE_FILL (R235, R236): the line is allocated by class, unless it came poisoned or was invalidated meanwhile, and
goes to every read that waits for it. -/
def execCreelLineFill (src dst : Endpoint) (s : State) : Out :=
  match sliceAt dst with
  | none => .next s
  | some x =>
    match s.takePacket (fun p => p.kind == .readResp && p.src == src && p.dst == dst) with
    | none => .next s
    | some (p, s) =>
      let d := dst.die
      match takeFirst (fun (f : CreelFetch) => f.id == p.tag) ((s.dies[d]).slices[x]).fetches with
      | none => .next s
      | some (f, rest) =>
        let s := s.modSlice d x (fun y =>
          let y := { y with fetches := rest }
          if f.allocate && !f.stale && p.status = 0 && !p.poison && !(y.lines.any (fun l => l.n == f.n)) then
            y.allocate f.n p.data
          else y)
        let waits := (s.dies[d]).waits.map (fun w =>
          if w.need.contains (f.n, f.id) then
            { w with need := w.need.filter (· != (f.n, f.id)), parts := w.parts ++ [(f.n, p.data)]
                     status := if w.status = 0 then p.status else w.status, poison := w.poison || p.poison }
          else w)
        let s := s.modDie d (fun y => { y with waits := waits.filter (fun w => !w.need.isEmpty) })
        .next ((waits.filter (fun w => w.need.isEmpty)).foldl (fun s w => s.send w.reply) s)

/-- CREEL_INVALIDATE (R236): the home slice drops the line; the controller acknowledges its write once every slice has. -/
def execCreelInvalidate (src dst : Endpoint) (s : State) : Out :=
  match sliceAt dst, ctlAt src with
  | some _, some c =>
    match s.arrive .inval src dst 1 with
    | none => .next s
    | some (p, s) =>
      let d := dst.die
      let n := p.addr / 256
      let s := s.invalidateLine d n
      let owed := (s.ctl c).owed.map (fun o => if o.id == p.tag then { o with left := o.left - 1 } else o)
      let s := s.modCtl c (fun y => { y with owed := owed.filter (fun o => o.left != 0) })
      .next ((owed.filter (fun o => o.left == 0)).foldl (fun s o => s.send o.ack) s)
  | _, _ => .next s

/-- CREEL_EMPTY_REQUEST (R236). -/
def execCreelEmptyRequest (d : Die) (s : State) : Out := .next (s.emptyCreel d)

/-- CREEL_EMPTY_COMPLETE (R236): reads stop bypassing. -/
def execCreelEmptyComplete (d : Die) (s : State) : Out := s.clocked <|
  .next (s.modDie d (fun x => { x with emptying := none }))

end Sys2Proof.Machine
end

