-- ==== Sys2Proof/Machine/Dispatch.lean ====
section
/-!
DEFINITION. The dispatch: one arm per command, each a direct call of its meaning.
-/
namespace Sys2Proof.Machine

/-- The effect of a command on everything but the queue. -/
def exec (i : Instr) (s : State) : Host.Outcome State Fault Refusal :=
  match i with
  | .tickEdge => Sys2Proof.Machine.execTickEdge s
  | .drainEnd => Sys2Proof.Machine.execDrainEnd s
  | .commit => Sys2Proof.Machine.execCommit s
  | .stepStart => Sys2Proof.Machine.execStepStart s
  | .tickFlit l f => Sys2Proof.Machine.execTickFlit l f s
  | .tickLoss => Sys2Proof.Machine.execTickLoss s
  | .periodArm => Sys2Proof.Machine.execPeriodArm s
  | .periodApply => Sys2Proof.Machine.execPeriodApply s
  | .tckCountLoRead => Sys2Proof.Machine.execTckCountLoRead s
  | .paceCommit => Sys2Proof.Machine.execPaceCommit s
  | .patternSwitch => Sys2Proof.Machine.execPatternSwitch s
  | .budgetFault sp => Sys2Proof.Machine.execBudgetFault sp s
  | .seqNext sp => Sys2Proof.Machine.execSeqNext sp s
  | .sbegin sp => Sys2Proof.Machine.execSbegin sp s
  | .send sp => Sys2Proof.Machine.execSend sp s
  | .sendPublish sp => Sys2Proof.Machine.execSendPublish sp s
  | .pass sp => Sys2Proof.Machine.execPass sp s
  | .passArm sp => Sys2Proof.Machine.execPassArm sp s
  | .vec sp => Sys2Proof.Machine.execVec sp s
  | .dma sp => Sys2Proof.Machine.execDma sp s
  | .wait sp => Sys2Proof.Machine.execWait sp s
  | .waitSatisfied sp => Sys2Proof.Machine.execWaitSatisfied sp s
  | .push sp => Sys2Proof.Machine.execPush sp s
  | .pop sp => Sys2Proof.Machine.execPop sp s
  | .popTake sp => Sys2Proof.Machine.execPopTake sp s
  | .seqLoop sp => Sys2Proof.Machine.execSeqLoop sp s
  | .jmp sp => Sys2Proof.Machine.execJmp sp s
  | .stepend sp => Sys2Proof.Machine.execStepend sp s
  | .seth sp => Sys2Proof.Machine.execSeth sp s
  | .weightLoad sp => Sys2Proof.Machine.execWeightLoad sp s
  | .passStart sp => Sys2Proof.Machine.execPassStart sp s
  | .passComplete sp => Sys2Proof.Machine.execPassComplete sp s
  | .preemptReq sp => Sys2Proof.Machine.execPreemptReq sp s
  | .preemptionTaken sp => Sys2Proof.Machine.execPreemptionTaken sp s
  | .resume sp => Sys2Proof.Machine.execResume sp s
  | .gridFault sp later c row => Sys2Proof.Machine.execGridFault sp later c row s
  | .passRestart sp => Sys2Proof.Machine.execPassRestart sp s
  | .nonRestartableFault sp later c row => Sys2Proof.Machine.execNonRestartableFault sp later c row s
  | .triggerTake sp => Sys2Proof.Machine.execTriggerTake sp s
  | .vAdd sp => Sys2Proof.Machine.execVAdd sp s
  | .vSub sp => Sys2Proof.Machine.execVSub sp s
  | .vMul sp => Sys2Proof.Machine.execVMul sp s
  | .vFma sp => Sys2Proof.Machine.execVFma sp s
  | .vMin sp => Sys2Proof.Machine.execVMin sp s
  | .vMax sp => Sys2Proof.Machine.execVMax sp s
  | .vUnary sp => Sys2Proof.Machine.execVUnary sp s
  | .vCmp sp => Sys2Proof.Machine.execVCmp sp s
  | .vSel sp => Sys2Proof.Machine.execVSel sp s
  | .vShift sp => Sys2Proof.Machine.execVShift sp s
  | .vLogic sp => Sys2Proof.Machine.execVLogic sp s
  | .vAct sp => Sys2Proof.Machine.execVAct sp s
  | .vGate sp => Sys2Proof.Machine.execVGate sp s
  | .vDiv sp => Sys2Proof.Machine.execVDiv sp s
  | .vSqrt sp => Sys2Proof.Machine.execVSqrt sp s
  | .vRsqrt sp => Sys2Proof.Machine.execVRsqrt sp s
  | .vLn sp => Sys2Proof.Machine.execVLn sp s
  | .vReduce sp => Sys2Proof.Machine.execVReduce sp s
  | .vBcast sp => Sys2Proof.Machine.execVBcast sp s
  | .vPerm sp => Sys2Proof.Machine.execVPerm sp s
  | .vLd sp => Sys2Proof.Machine.execVLd sp s
  | .vSt sp => Sys2Proof.Machine.execVSt sp s
  | .vCvt sp => Sys2Proof.Machine.execVCvt sp s
  | .vVst sp => Sys2Proof.Machine.execVVst sp s
  | .vLdsd sp => Sys2Proof.Machine.execVLdsd sp s
  | .vMovs sp => Sys2Proof.Machine.execVMovs sp s
  | .vFtap sp => Sys2Proof.Machine.execVFtap sp s
  | .vRsfold sp => Sys2Proof.Machine.execVRsfold sp s
  | .vRsfin sp => Sys2Proof.Machine.execVRsfin sp s
  | .vPlyexp sp => Sys2Proof.Machine.execVPlyexp sp s
  | .vPlysplit sp => Sys2Proof.Machine.execVPlysplit sp s
  | .vPlycomb sp => Sys2Proof.Machine.execVPlycomb sp s
  | .vLp sp => Sys2Proof.Machine.execVLp sp s
  | .vHalt sp => Sys2Proof.Machine.execVHalt sp s
  | .vSeta sp => Sys2Proof.Machine.execVSeta sp s
  | .vSets sp => Sys2Proof.Machine.execVSets sp s
  | .vSetc sp => Sys2Proof.Machine.execVSetc sp s
  | .vIhold sp => Sys2Proof.Machine.execVIhold sp s
  | .vIrel sp => Sys2Proof.Machine.execVIrel sp s
  | .vReti sp => Sys2Proof.Machine.execVReti sp s
  | .vLpsave sp => Sys2Proof.Machine.execVLpsave sp s
  | .vLpload sp => Sys2Proof.Machine.execVLpload sp s
  | .vLpclr sp => Sys2Proof.Machine.execVLpclr sp s
  | .vNop sp => Sys2Proof.Machine.execVNop sp s
  | .vecInterruptEntry sp => Sys2Proof.Machine.execVecInterruptEntry sp s
  | .holdWindowExceeded sp => Sys2Proof.Machine.execHoldWindowExceeded sp s
  | .handlerForcedHalt sp => Sys2Proof.Machine.execHandlerForcedHalt sp s
  | .vecGo sp => Sys2Proof.Machine.execVecGo sp s
  | .slowSet k lanes => Sys2Proof.Machine.execSlowSet k lanes s
  | .phaseAdvance k => Sys2Proof.Machine.execPhaseAdvance k s
  | .laneStuck sp => Sys2Proof.Machine.execLaneStuck sp s
  | .sknStallCycle lanes => Sys2Proof.Machine.execSknStallCycle lanes s
  | .arbiterGrant a pc requests => Sys2Proof.Machine.execArbiterGrant a pc requests s
  | .arbCommit a => Sys2Proof.Machine.execArbCommit a s
  | .weftReadRequest src dst vc way => Sys2Proof.Machine.execWeftReadRequest src dst vc way s
  | .weftWrite src dst vc way => Sys2Proof.Machine.execWeftWrite src dst vc way s
  | .readResponse src dst vc way => Sys2Proof.Machine.execReadResponse src dst vc way s
  | .writeAcknowledgement src dst vc way => Sys2Proof.Machine.execWriteAcknowledgement src dst vc way s
  | .multicastWrite src way blocked => Sys2Proof.Machine.execMulticastWrite src way blocked s
  | .mcastBranchTimeout src stream branch => Sys2Proof.Machine.execMcastBranchTimeout src stream branch s
  | .fenceRequest d ep => Sys2Proof.Machine.execFenceRequest d ep s
  | .fenceDrainComplete d ep => Sys2Proof.Machine.execFenceDrainComplete d ep s
  | .wftFenceTimeout d ep => Sys2Proof.Machine.execWftFenceTimeout d ep s
  | .fenceRelease d ep => Sys2Proof.Machine.execFenceRelease d ep s
  | .creelRead src dst vc ecc => Sys2Proof.Machine.execCreelRead src dst vc ecc s
  | .creelLineFill src dst => Sys2Proof.Machine.execCreelLineFill src dst s
  | .creelInvalidate src dst => Sys2Proof.Machine.execCreelInvalidate src dst s
  | .creelEmptyRequest d => Sys2Proof.Machine.execCreelEmptyRequest d s
  | .memRead src dst vc => Sys2Proof.Machine.execMemRead src dst vc s
  | .memWrite src dst vc => Sys2Proof.Machine.execMemWrite src dst vc s
  | .memReadComplete c idx found => Sys2Proof.Machine.execMemReadComplete c idx found s
  | .retirementRequest c rank => Sys2Proof.Machine.execRetirementRequest c rank s
  | .commandParityError c rank pc => Sys2Proof.Machine.execCommandParityError c rank pc s
  | .refresh c pc bank => Sys2Proof.Machine.execRefresh c pc bank s
  | .selfRefreshEntry c pc => Sys2Proof.Machine.execSelfRefreshEntry c pc s
  | .selfRefreshExit c pc => Sys2Proof.Machine.execSelfRefreshExit c pc s
  | .scrub c rank pc line ecc => Sys2Proof.Machine.execScrub c rank pc line ecc s
  | .migrationStart t => Sys2Proof.Machine.execMigrationStart t s
  | .lineCopy t pc source target => Sys2Proof.Machine.execLineCopy t pc source target s
  | .migrationComplete t => Sys2Proof.Machine.execMigrationComplete t s
  | .memMigrating c idx => Sys2Proof.Machine.execMemMigrating c idx s
  | .dmaRequestIssue ch => Sys2Proof.Machine.execDmaRequestIssue ch s
  | .dmaPopFill ch => Sys2Proof.Machine.execDmaPopFill ch s
  | .dmaListComplete ch => Sys2Proof.Machine.execDmaListComplete ch s
  | .dmaResume ch => Sys2Proof.Machine.execDmaResume ch s
  | .linkRetrain l peer => Sys2Proof.Machine.execLinkRetrain l peer s
  | .linkRateStep l passed skew => Sys2Proof.Machine.execLinkRateStep l passed skew s
  | .linkLatencyMeasure l rtt => Sys2Proof.Machine.execLinkLatencyMeasure l rtt s
  | .lossOfSignal l lane lost => Sys2Proof.Machine.execLossOfSignal l lane lost s
  | .lossOfLock l lane lost => Sys2Proof.Machine.execLossOfLock l lane lost s
  | .linkAutoRetrain l peer => Sys2Proof.Machine.execLinkAutoRetrain l peer s
  | .slotBoundary l sliver => Sys2Proof.Machine.execSlotBoundary l sliver s
  | .dataFlit l f => Sys2Proof.Machine.execDataFlit l f s
  | .sliverFlit l f loop => Sys2Proof.Machine.execSliverFlit l f loop s
  | .creditFlit l f => Sys2Proof.Machine.execCreditFlit l f s
  | .idleFlit l f => Sys2Proof.Machine.execIdleFlit l f s
  | .replayFlit l f => Sys2Proof.Machine.execReplayFlit l f s
  | .abortFlit l f => Sys2Proof.Machine.execAbortFlit l f s
  | .streamHandlePop l stream => Sys2Proof.Machine.execStreamHandlePop l stream s
  | .fabricInboundRequest src dst vc => Sys2Proof.Machine.execFabricInboundRequest src dst vc s
  | .fabricInboundAnswer d ep idx data => Sys2Proof.Machine.execFabricInboundAnswer d ep idx data s
  | .fabEpTimeout d ep idx => Sys2Proof.Machine.execFabEpTimeout d ep idx s
  | .fabricOutboundRequest d ep write addr bytes tag => Sys2Proof.Machine.execFabricOutboundRequest d ep write addr bytes tag s
  | .ingestBeat d j addr data be => Sys2Proof.Machine.execIngestBeat d j addr data be s
  | .ingestPost d j ring handle => Sys2Proof.Machine.execIngestPost d j ring handle s
  | .doneHigh d => Sys2Proof.Machine.execDoneHigh d s
  | .releaseOutputs d => Sys2Proof.Machine.execReleaseOutputs d s
  | .releaseWriteEnables d => Sys2Proof.Machine.execReleaseWriteEnables d s
  | .releaseResets d => Sys2Proof.Machine.execReleaseResets d s
  | .regionClockSwitch r clk => Sys2Proof.Machine.execRegionClockSwitch r clk s
  | .regionPowerOff r => Sys2Proof.Machine.execRegionPowerOff r s
  | .regionFenceAssert r => Sys2Proof.Machine.execRegionFenceAssert r s
  | .regionClockGate r => Sys2Proof.Machine.execRegionClockGate r s
  | .regionFramesWritten r => Sys2Proof.Machine.execRegionFramesWritten r s
  | .regionClockUngate r => Sys2Proof.Machine.execRegionClockUngate r s
  | .regionFenceLift r => Sys2Proof.Machine.execRegionFenceLift r s
  | .captureArm d => Sys2Proof.Machine.execCaptureArm d s
  | .captureStop d => Sys2Proof.Machine.execCaptureStop d s
  | .captureReadoutComplete d frames => Sys2Proof.Machine.execCaptureReadoutComplete d frames s
  | .captureGo d => Sys2Proof.Machine.execCaptureGo d s
  | .bootAction => Sys2Proof.Machine.execBootAction s
  | .imageStaged flashOk => Sys2Proof.Machine.execImageStaged flashOk s
  | .authenticationPass => Sys2Proof.Machine.execAuthenticationPass s
  | .checkPass vccioOk designOk => Sys2Proof.Machine.execCheckPass vccioOk designOk s
  | .writePass => Sys2Proof.Machine.execWritePass s
  | .cfgDoneTimeout => Sys2Proof.Machine.execCfgDoneTimeout s
  | .progNLow => Sys2Proof.Machine.execProgNLow s
  | .progNRise => Sys2Proof.Machine.execProgNRise s
  | .barrierFrame rx ch f => Sys2Proof.Machine.execBarrierFrame rx ch f s
  | .barrierChannelFail rx ch => Sys2Proof.Machine.execBarrierChannelFail rx ch s
  | .barrierTraining txFailed rxFailed => Sys2Proof.Machine.execBarrierTraining txFailed rxFailed s
  | .mailboxDoorbell n length tag => Sys2Proof.Machine.execMailboxDoorbell n length tag s
  | .mailboxResponse n => Sys2Proof.Machine.execMailboxResponse n s
  | .mailboxTimeout n => Sys2Proof.Machine.execMailboxTimeout n s
  | .mailboxAck n => Sys2Proof.Machine.execMailboxAck n s
  | .mirrorUpdate => Sys2Proof.Machine.execMirrorUpdate s
  | .mirrorStale => Sys2Proof.Machine.execMirrorStale s
  | .bctlRecord n => Sys2Proof.Machine.execBctlRecord n s
  | .bulkPiece n entry host ecc => Sys2Proof.Machine.execBulkPiece n entry host ecc s
  | .bulkRetry n => Sys2Proof.Machine.execBulkRetry n s
  | .perstNLow => Sys2Proof.Machine.execPerstNLow s
  | .perstNRelease => Sys2Proof.Machine.execPerstNRelease s
  | .hostLinkDown => Sys2Proof.Machine.execHostLinkDown s
  | .queryStatus req => Sys2Proof.Machine.execQueryStatus req s
  | .telemetryRead req => Sys2Proof.Machine.execTelemetryRead req s
  | .logRead req => Sys2Proof.Machine.execLogRead req s
  | .attest req => Sys2Proof.Machine.execAttest req s
  | .patternStage req => Sys2Proof.Machine.execPatternStage req s
  | .patternVerify req => Sys2Proof.Machine.execPatternVerify req s
  | .patternArm req => Sys2Proof.Machine.execPatternArm req s
  | .patternDiscard req => Sys2Proof.Machine.execPatternDiscard req s
  | .jobSubmit req => Sys2Proof.Machine.execJobSubmit req s
  | .jobCancel req => Sys2Proof.Machine.execJobCancel req s
  | .jobStatus req => Sys2Proof.Machine.execJobStatus req s
  | .grantOpen req => Sys2Proof.Machine.execGrantOpen req s
  | .grantClose req => Sys2Proof.Machine.execGrantClose req s
  | .bulkIn req => Sys2Proof.Machine.execBulkIn req s
  | .bulkOut req => Sys2Proof.Machine.execBulkOut req s
  | .powerCapSet req => Sys2Proof.Machine.execPowerCapSet req s
  | .msgReset req => Sys2Proof.Machine.execMsgReset req s
  | .roleChallenge req => Sys2Proof.Machine.execRoleChallenge req s
  | .roleEnter req => Sys2Proof.Machine.execRoleEnter req s
  | .roleExit req => Sys2Proof.Machine.execRoleExit req s
  | .fabricLoad req => Sys2Proof.Machine.execFabricLoad req s
  | .fabricCapture req => Sys2Proof.Machine.execFabricCapture req s
  | .linkTest req errors => Sys2Proof.Machine.execLinkTest req errors s
  | .configSet req => Sys2Proof.Machine.execConfigSet req s
  | .fwStage req => Sys2Proof.Machine.execFwStage req s
  | .fwActivate req => Sys2Proof.Machine.execFwActivate req s
  | .fwConfirm req => Sys2Proof.Machine.execFwConfirm req s
  | .keyEnrol req => Sys2Proof.Machine.execKeyEnrol req s
  | .keyRevoke req => Sys2Proof.Machine.execKeyRevoke req s
  | .keyProgram req => Sys2Proof.Machine.execKeyProgram req s
  | .goldenStore req => Sys2Proof.Machine.execGoldenStore req s
  | .fuseProgram req => Sys2Proof.Machine.execFuseProgram req s
  | .testMode req => Sys2Proof.Machine.execTestMode req s
  | .raUnlock req => Sys2Proof.Machine.execRaUnlock req s
  | .roleIdleTimeout t => Sys2Proof.Machine.execRoleIdleTimeout t s
  | .nonceExpiry t => Sys2Proof.Machine.execNonceExpiry t s
  | .lockoutEnd t => Sys2Proof.Machine.execLockoutEnd t s
  | .watchdogHang u => Sys2Proof.Machine.execWatchdogHang u s
  | .agentHeartbeatMiss d => Sys2Proof.Machine.execAgentHeartbeatMiss d s
  | .coreHeartbeatMiss core => Sys2Proof.Machine.execCoreHeartbeatMiss core s
  | .spindleReset sp cause => Sys2Proof.Machine.execSpindleReset sp cause s
  | .spindlePowerCycle sp cause => Sys2Proof.Machine.execSpindlePowerCycle sp cause s
  | .spindleMarkedFailed sp cause => Sys2Proof.Machine.execSpindleMarkedFailed sp cause s
  | .skeinComputeReset k cause => Sys2Proof.Machine.execSkeinComputeReset k cause s
  | .dieComputeReset d cause => Sys2Proof.Machine.execDieComputeReset d cause s
  | .deviceComputeReset cause => Sys2Proof.Machine.execDeviceComputeReset cause s
  | .fullDeviceReset cause found => Sys2Proof.Machine.execFullDeviceReset cause found s
  | .fltResetTimeout u => Sys2Proof.Machine.execFltResetTimeout u s
  | .restoreComplete => Sys2Proof.Machine.execRestoreComplete s
  | .returnToService => Sys2Proof.Machine.execReturnToService s
  | .wftEdgeDown edge => Sys2Proof.Machine.execWftEdgeDown edge s
  | .fltEdgeFailed edge => Sys2Proof.Machine.execFltEdgeFailed edge s
  | .functionDisable f => Sys2Proof.Machine.execFunctionDisable f s
  | .functionDrainComplete f => Sys2Proof.Machine.execFunctionDrainComplete f s
  | .functionEnable f => Sys2Proof.Machine.execFunctionEnable f s
  | .alertNLow => Sys2Proof.Machine.execAlertNLow s
  | .thermalReadingsStale d => Sys2Proof.Machine.execThermalReadingsStale d s
  | .emergencyFwForce on => Sys2Proof.Machine.execEmergencyFwForce on s
  | .emergencyThrottleEnd => Sys2Proof.Machine.execEmergencyThrottleEnd s
  | .thermalReading d sensors stackSet modules => Sys2Proof.Machine.execThermalReading d sensors stackSet modules s
  | .thermalLevelStepDown d => Sys2Proof.Machine.execThermalLevelStepDown d s
  | .thermalTrip d sensor tempC => Sys2Proof.Machine.execThermalTrip d sensor tempC s
  | .thermtripRelease => Sys2Proof.Machine.execThermtripRelease s
  | .fltEnvironment rail => Sys2Proof.Machine.execFltEnvironment rail s
  | .fltRefclk c => Sys2Proof.Machine.execFltRefclk c s
  | .vbatLoss => Sys2Proof.Machine.execVbatLoss s
  | .avsSetPoint d mv answer => Sys2Proof.Machine.execAvsSetPoint d mv answer s
  | .pmbusPoll readings => Sys2Proof.Machine.execPmbusPoll readings s
  | .sysRstNLow => Sys2Proof.Machine.execSysRstNLow s
  | .sysRstNRise failMode boot coreBad warpBad => Sys2Proof.Machine.execSysRstNRise failMode boot coreBad warpBad s
  | .tickInEdge => Sys2Proof.Machine.execTickInEdge s
  | .tickInMissed => Sys2Proof.Machine.execTickInMissed s
  | .registerWrite sp offset value => Sys2Proof.Machine.execRegisterWrite sp offset value s
  | .userClockEdge d domain x => Sys2Proof.Machine.execUserClockEdge d domain x s
  | .tapClockEdge tms tdi => Sys2Proof.Machine.execTapClockEdge tms tdi s
  | .powerRemoval => Sys2Proof.Machine.execPowerRemoval s
  | .hostLinkUp msix => Sys2Proof.Machine.execHostLinkUp msix s
  | .pciePowerStateChange d3hot msix => Sys2Proof.Machine.execPciePowerStateChange d3hot msix s
  | .bar0Access offset bytes write => Sys2Proof.Machine.execBar0Access offset bytes write s
  | .rungComplete u => Sys2Proof.Machine.execRungComplete u s
  | .dieEdgeRetrained edge => Sys2Proof.Machine.execDieEdgeRetrained edge s
  | .creelEmptyComplete d => Sys2Proof.Machine.execCreelEmptyComplete d s

end Sys2Proof.Machine
end

