-- ==== Sys2Proof/WellFormed.lean ====
section
/-!
DEFINITION. Well-formed commands: operands of the sizes that the interfaces of the block carry. The operands whose types
already bound them (indices, bit vectors) need no check. `exec` is total and does not depend on it.
-/
namespace Sys2Proof

/-- A flit carries 240 bytes of payload (R304). -/
def Flit.wf (f : Flit) : Bool := f.payload.length == 240

/-- A frame carries 256 bytes of payload, padded, and states a true length of at most 256 (R382). -/
def Frame.wf (f : Frame) : Bool := f.payload.length == 256 && decide (f.len.toNat ≤ 256)

/-- A message fits the request buffer of 4,096 bytes (R391, R414). -/
def Request.wf (q : Request) : Bool := decide (q.bytes.length ≤ 4096)

/-- Training finds the modules of each of the 12 channels, and at most one peer on a link (R246, R295). -/
def Training.wf (t : Training) : Bool := t.ddr.length == 12 && decide ((t.peers.map (·.1)).Nodup)

/-- An edge's inputs name elements of a die: 2,048 slices, 2,457,600 flip-flops, and no port of a RAM twice (R327, R329, R334). -/
def EdgeInputs.wf (x : EdgeInputs) : Bool :=
  x.slices.all (fun q => decide (q.slice < 2048)) && x.flops.all (fun q => decide (q.flop < 2457600)) &&
  decide ((x.rams.map (fun a => (a.ram, a.port))).Nodup)

/-- What host memory answers is at most one piece of 4 KiB (R403). -/
def HostData.wf : HostData → Bool
  | .data bs => decide (bs.length ≤ 4096)
  | .failed | .poisoned => true

/-- A well-formed command. -/
def Instr.wf : Instr → Bool
  | .slotBoundary _ sliver => sliver.all (fun p => decide (16 ≤ p.length) && decide (p.length ≤ 240))
  | .sliverFlit _ f _ => f.wf
  | .tickFlit _ f | .dataFlit _ f | .creditFlit _ f | .idleFlit _ f | .replayFlit _ f | .abortFlit _ f => f.wf
  | .barrierFrame _ _ f => f.wf
  | .sknStallCycle lanes => decide lanes.Nodup
  | .fabricInboundAnswer _ _ _ data => decide (data.length ≤ 4096)
  | .fabricOutboundRequest _ _ write _ bytes _ =>
    match write with
    | some bs => decide (bs.length ≤ 4096)
    | none => decide (bytes ≤ 4096)
  | .ingestBeat _ _ _ data _ => data.length == 64
  | .captureReadoutComplete _ frames => decide (frames.length ≤ 16 * 3275520)
  | .bulkPiece _ entry host _ => entry.length % 16 == 0 && decide (entry.length ≤ 65536) && host.wf
  | .thermalReading _ sensors stackSet modules => sensors.length == 32 && stackSet.length == 3 && modules.length == 3
  | .multicastWrite _ _ blocked => decide blocked.Nodup
  | .memReadComplete _ _ found => decide (found.length ≤ 17)
  | .pmbusPoll readings => decide (readings.map (·.rail)).Nodup
  | .fullDeviceReset _ found => found.wf
  | .userClockEdge _ _ x => x.wf
  | .bar0Access _ bytes write => write.all (fun bs => bs.length == bytes)
  | .queryStatus q | .telemetryRead q | .logRead q | .attest q | .patternStage q | .patternVerify q | .patternArm q
  | .patternDiscard q | .jobSubmit q | .jobCancel q | .jobStatus q | .grantOpen q | .grantClose q | .bulkIn q | .bulkOut q
  | .powerCapSet q | .msgReset q | .roleChallenge q | .roleEnter q | .roleExit q | .fabricLoad q | .fabricCapture q
  | .linkTest q _ => q.wf
  | .configSet q | .fwStage q | .fwActivate q | .fwConfirm q | .keyEnrol q | .keyRevoke q | .keyProgram q
  | .goldenStore q | .fuseProgram q | .testMode q | .raUnlock q => q.wf
  | _ => true

end Sys2Proof
end

