-- ==== Sys2Proof/Safety.lean ====
section
/-!
DEFINITION. The terms in which statements about the model are made: the canonical form of its stores, the parts of State that a
command may change, and the conditions under which a unit takes its next step.
-/
namespace Sys2Proof.Safety
open Sys2Proof.Machine

/-- Strictly rising. -/
def rising : List Nat → Bool
  | a :: b :: l => decide (a < b) && rising (b :: l)
  | _ => true

/-- Device memory and flash are canonical lists, and the poisoned lines stand in rising order: equal contents are equal data. -/
abbrev Canonical (s : State) : Prop :=
  Memory.wf s.mem = true ∧ rising s.poison = true ∧ Cells.wf 0xFF s.flash = true

/-- The clocks of the compute dies run (R523). -/
abbrev Clocked (s : State) : Prop := s.pwr.thermtripLow = false

/-- An outcome is a next state of which `p` holds. -/
def Completes (o : Out) (p : State → Prop) : Prop := ∃ t, o = .next t ∧ p t

/-- Device memory reads the same at an address. -/
abbrev SameByte (s t : State) (a : Nat) : Prop := Cells.get memDefault t.mem a = Cells.get memDefault s.mem a

/-- The parts of State outside one spindle, one skein and so on stand as they were. -/
abbrev OnlySpindle (i : Spindle) (s t : State) : Prop :=
  t = { s with spindles := t.spindles } ∧ ∀ j : Spindle, j ≠ i → t.spindles[j] = s.spindles[j]
/-- One spindle's sequencer alone may have changed. -/
abbrev OnlySeq (i : Spindle) (s t : State) : Prop :=
  OnlySpindle i s t ∧ t.spindles[i] = { s.spindles[i] with seq := (t.spindles[i]).seq }
/-- One skein alone may have changed. -/
abbrev OnlySkein (k : Skein) (s t : State) : Prop :=
  t = { s with skeins := t.skeins } ∧ ∀ j : Skein, j ≠ k → t.skeins[j] = s.skeins[j]
/-- One link alone may have changed. -/
abbrev OnlyLink (l : Link) (s t : State) : Prop :=
  t = { s with links := t.links } ∧ ∀ j : Link, j ≠ l → t.links[j] = s.links[j]
/-- One die's fabric alone may have changed. -/
abbrev OnlyFabric (d : Die) (s t : State) : Prop :=
  t = { s with fabric := t.fabric } ∧ ∀ j : Die, j ≠ d → t.fabric[j] = s.fabric[j]

/-- Sequencer i may issue (with this stall of its own at most) and stands at word w of opcode op (R34, R37). -/
abbrev AtWord (s : State) (i : Spindle) (stalled : Stall) (w : Word64) (op : Nat) : Prop :=
  s.seqReady i stalled = true ∧ (s.spindles[i]).seq.word (s.spindles[i]).seq.pc = w ∧ wbits w 63 58 = op
/-- The state as a word's issue leaves the count of issued words. -/
def counted (s : State) (i : Spindle) : State :=
  s.modSp i (fun x => { x with seq := { x.seq with words := x.seq.words + 1 } })

/-- The state in which the reports of spindle i's complete vector instructions have counted, as the next word finds it (R109). -/
abbrev reported (s : State) (i : Spindle) : State := s.takeReports i (s.spindles[i]).vec.cycle
/-- The vector engine of spindle i issues the word `n` of an opcode now, every complete instruction having reported, and the word finds the
spindle as `x` (R164 to R167, R182, R183). -/
abbrev Issues (s : State) (i : Spindle) (op : Nat) (n : VIns) (x : SpindleState) : Prop :=
  s.vecReady i = true ∧ s.handlerOver i = false ∧ s.holdOver i = false ∧
  ((s.spindles[i]).vec.pending = 0 ∨ (s.spindles[i]).vec.openBoundary = false) ∧
  ((s.spindles[i]).vec.atBreak = true → (s.spindles[i]).vec.brkEn = true ∧ (s.spindles[i]).vec.openBoundary = false) ∧
  parseVec ((s.spindles[i]).seq.word (s.spindles[i]).vec.pc) = n ∧ n.op = op ∧ n.ok = true ∧ s.vecAt i = x
/-- What a vector instruction is given beside its spindle. -/
def vecCtx (s : State) (i : Spindle) (n : VIns) : VCtx := { ins := n, sp := i, free := s.fresh, seed := s.seed }
/-- Element j of a type is active under the instruction's mask. -/
def active (c : VCtx) (x : SpindleState) (j : Nat) : Bool := (c.maskOf x).getLsbD (tyBytes c.ins.ty * j)
/-- The window offset of a memory result of `cnt` elements. -/
def resultPlace (c : VCtx) (x : SpindleState) (cnt : Nat) : Except VFault Nat :=
  x.place (specAdr c.ins.dst) (cnt * tyBytes c.ins.ty)
    (if cnt * tyBytes c.ins.ty = 256 then c.ins.align else cnt * tyBytes c.ins.ty) 0
/-- The destination takes a result of `cnt` elements: a register, or unprotected window bytes in their path's range. -/
def Takes (c : VCtx) (x : SpindleState) (cnt : Nat) : Prop :=
  specMem c.ins.dst = false ∨ ∃ o, resultPlace c x cnt = .ok o ∧ x.protects o (cnt * tyBytes c.ins.ty) = false
/-- `y` is `x` with one result on its way: `cnt` elements of codes `f` where `act` says so, to a register, whose bytes past them become 0, or
to memory, whose other bytes stand, with the address register's post-update. -/
def Sends (c : VCtx) (x y : SpindleState) (cnt : Nat) (act : Nat → Bool) (f : Nat → Nat) : Prop :=
  (specMem c.ins.dst = false → ∃ w : RegWrite,
    y = { x with vec := { x.vec with regWrites := addByDue (·.due) w x.vec.regWrites } } ∧
    w.reg = specReg c.ins.dst ∧ w.due = x.vec.cycle + c.ins.latency ∧
    ∀ j, j < tyCount c.ins.ty →
      elemAt (8 * tyBytes c.ins.ty) w.mask j = (if j < cnt ∧ act j = false then 0 else 2 ^ (8 * tyBytes c.ins.ty) - 1) ∧
      (j < cnt → act j = true → elemAt (8 * tyBytes c.ins.ty) w.bytes j = f j % 2 ^ (8 * tyBytes c.ins.ty)) ∧
      (cnt ≤ j → elemAt (8 * tyBytes c.ins.ty) w.bytes j = 0)) ∧
  (specMem c.ins.dst = true → ∀ o, resultPlace c x cnt = .ok o → ∃ w : MemWrite,
    y = ({ x with vec := { x.vec with memWrites := addByDue (·.due) w x.vec.memWrites } } : SpindleState).post c.ins.dst ∧
    w.at_ = o ∧ w.due = x.vec.cycle + c.ins.memLatency ∧ w.bytes.length = cnt * tyBytes c.ins.ty ∧
    ∀ j b, j < cnt → b < tyBytes c.ins.ty → w.bytes[j * tyBytes c.ins.ty + b]? =
      some (if act j then some (BitVec.ofNat 8 (f j / 2 ^ (8 * b))) else none))
/-- What an element-wise instruction does: its sources read in order, its results go to the destination, and what it reports is what its
active elements report; a source that cannot be read, and two operands through one path, fault it. -/
def ElementResult (k : Instr) (u s : State) (i : Spindle) (n : VIns) (srcs : List Nat) (f : List Src → Nat → ElemOut) : Prop :=
  (∀ ss x, pathsOk i srcs = true → readSrcs (vecCtx s i n) srcs 0 (s.vecAt i) = .ok (ss, x) → Takes (vecCtx s i n) x (tyCount n.ty) →
    ∃ y rep, exec k u = .next (s.vecDone i n { x := y, rep := rep }) ∧
      Sends (vecCtx s i n) x y (tyCount n.ty) (active (vecCtx s i n) x) (fun j => (f ss j).code) ∧
      rep.code = 0 ∧ ∀ b : Nat, b < 7 → (rep.flags.getLsbD b = true ↔
        ∃ j, j < tyCount n.ty ∧ active (vecCtx s i n) x j = true ∧ (f ss j).rep.flags.getLsbD b = true)) ∧
  (pathsOk i srcs = false → exec k u = .next (s.vecFault i 2)) ∧
  (∀ e, pathsOk i srcs = true → readSrcs (vecCtx s i n) srcs 0 (s.vecAt i) = .error e → exec k u = .next (s.vecStop i e))

/-- The distaff serves request q of an opcode now: it lives, no answer of the BMC's is outstanding, the request passes its checks, its core is
free, and the record it needs can be written (R415, R436, R439, R454, R471). -/
abbrev Serves (s : State) (q : Request) (op : Nat) (r : OpRow) : Prop :=
  s.dist.alive = true ∧ s.i3cBusy q.transport = false ∧ lacksRecord q = false ∧ opcodeOf q = op ∧ opRow op = some r ∧ (s.i3cRead q.transport).checkMessage q = 0 ∧
  s.flt.coreHalted.getLsbD r.core = false ∧ (op = 1 ∨ (s.i3cRead q.transport).coreWait r.core = 0)
/-- The state that a served request finds. -/
def admitted (s : State) (q : Request) (r : OpRow) : State := ((s.i3cRead q.transport).touchRole q).admitRequest q r
/-- The response to request q. -/
def replyTo (q : Request) (status : Code) (retry : Nat) (payload : List Byte) : Response :=
  { transport := q.transport, crossing := q.crossing, bytes := responseBytes q.bytes status retry payload }
/-- The answer to request q is the newest response; the responses that stood before stand. -/
abbrev Replies (s t : State) (q : Request) (status : Code) (payload : List Byte) : Prop :=
  t.dist.responses = (s.i3cRead q.transport).dist.responses ++ [replyTo q status 0 payload]
/-- The request is in the audit log with its event, status, role and transport, while the ring has room (R452 to R454). -/
def Logged (s t : State) (q : Request) (event : Nat) (status : Code) : Prop :=
  s.sec.audit.length + 1 < 127 * 512 → ∃ x, t.sec.audit = s.sec.audit ++ [x] ∧ t.sec.auditSeq = s.sec.auditSeq + 1 ∧
    field x 2 2 = event ∧ field x 4 2 = status.toNat ∧ field x 6 1 = s.roleNumber q.transport ∧ field x 7 1 = q.transport.val
/-- The message rows with their opcodes (R416, R461). -/
def messageOps : List ((Request → Instr) × Nat) :=
  [(.queryStatus, 0x0001), (.telemetryRead, 0x0002), (.logRead, 0x0003), (.attest, 0x0004), (.patternStage, 0x0010),
   (.patternVerify, 0x0011), (.patternArm, 0x0012), (.patternDiscard, 0x0013), (.jobSubmit, 0x0020), (.jobCancel, 0x0021),
   (.jobStatus, 0x0022), (.grantOpen, 0x0030), (.grantClose, 0x0031), (.bulkIn, 0x0032), (.bulkOut, 0x0033), (.powerCapSet, 0x0040),
   (.msgReset, 0x0050)] ++
  [(.roleChallenge, 0x0100), (.roleEnter, 0x0101), (.roleExit, 0x0102), (.fabricLoad, 0x0110), (.fabricCapture, 0x0111),
   (fun q => .linkTest q 0, 0x0112), (.configSet, 0x0120), (.fwStage, 0x0130), (.fwActivate, 0x0131), (.fwConfirm, 0x0132), (.keyEnrol, 0x0133),
   (.keyRevoke, 0x0134), (.keyProgram, 0x0135), (.goldenStore, 0x0138), (.fuseProgram, 0x0139), (.testMode, 0x013A), (.raUnlock, 0x013B)]

/-- A rung may start over a unit: the device is not held for good, and no running rung over the unit is as high (R477, R479). -/
abbrev RungFree (s : State) (u : ResetUnit) (rung : Nat) : Prop :=
  s.flt.dead = false ∧ ∀ r ∈ s.flt.rungs, unitIn u r.unit = true → r.rung < rung
/-- The cause that a rung carries (R481). -/
def rungCause (c : Code) : Code := if c = 0 then 0x0814 else c
/-- A rung over a unit runs since `at_`, for a cause. -/
abbrev RungRuns (s : State) (u : ResetUnit) (rung : Nat) (cause : Code) (at_ : Time) : Prop :=
  ∃ r ∈ s.flt.rungs, r.unit = u ∧ r.rung = rung ∧ r.cause = cause ∧ r.startedAt = at_

/-- A 32-bit write of `v` at control offset `off` reaches register `o` of block `b`: aligned, defined, answered, in no running rung and with no 1 in
a reserved bit (R15, R535, R537). -/
abbrev Writes (s : State) (off : Nat) (v : Word) (b : Block) (o : Nat) : Prop :=
  off % 4 = 0 ∧ blockAt off = some (b, o) ∧ s.blockSilent b o = false ∧ s.unitInRung b = false ∧
  (s.regNow b o).any (fun r => v &&& ~~~r.named == 0) = true
/-- Bits `hi:lo` of a written word. -/
def bitsOf (v : Word) (hi lo : Nat) : BitVec (hi + 1 - lo) := v.extractLsb' lo (hi + 1 - lo)

/-- Register `o` of block `b` reads `v` right after reset. -/
abbrev ResetsTo (b : Block) (o : Nat) (v : Word) : Prop := (State.reset.regNow b o).map (·.value) = some v

/-- The commands that may store to device memory: writes that reach a controller or no longer wait there, a bulk piece, a capture's frames, the
statistics of a step that commits, a deferred token, and what starts a rung (its crash record, or the loss of all of memory). -/
def Stores : Instr → Prop
  | .memWrite .. | .lineCopy .. | .memMigrating .. | .scrub .. | .bulkPiece .. | .captureReadoutComplete .. | .commit .. | .streamHandlePop ..
  | .registerWrite .. | .msgReset .. | .laneStuck .. | .spindleReset .. | .spindlePowerCycle .. | .spindleMarkedFailed .. | .skeinComputeReset ..
  | .dieComputeReset .. | .deviceComputeReset .. | .fullDeviceReset .. | .fltResetTimeout .. | .fltEdgeFailed .. | .watchdogHang .. | .sysRstNLow ..
  | .sysRstNRise .. | .powerRemoval .. => True
  | _ => False
/-- The commands beside those that poison a line: a read that finds an uncorrectable error. -/
def Poisons (i : Instr) : Prop :=
  Stores i ∨ (match i with | .memReadComplete .. => True | _ => False)
/-- The commands that write flash: the golden store, a staged firmware image, and the primary copy that a passed check stores. -/
def StoresFlash : Instr → Prop
  | .checkPass .. | .fwStage .. | .goldenStore .. => True
  | _ => False

/-- The register block that holds an arbiter's fields, at +0x100 (R232). -/
def arbBlock : ArbId → Block
  | .board k => .skn k
  | .creel d => .crl d
  | .mem c => .ctl c
  | .sliver d => .wft d
/-- The offsets of an arbiter's shadowed registers in its block. -/
def arbShadowed : List Nat := [0x100, 0x104, 0x108, 0x10C, 0x110]
/-- The offsets of the pacer's shadowed registers: the floor and the 16 coefficients. -/
def paceShadowed : List Nat := 0x040 :: (List.range 16).map (fun n => 0x044 + 4 * n)

end Sys2Proof.Safety
end

