-- ==== Sys2Proof/Certificates/Slice0/Obligations.lean ====
section
/-!
DEFINITION. The statements for the provers.
-/
open Sys2Proof Sys2Proof.Machine Sys2Proof.Safety

/-- One step takes the command at the front of the queue and runs it on the state with the queue's rest. -/
def Obligations.StepRunsFrontCommand : Prop :=
  ∀ (c : Instr) (s : State) (rest : List Instr), step { s with pending := c :: rest } = exec c { s with pending := rest }

/-- On an empty queue a spindle cycle of 10/17 ns passes and the watchdog samples every unit; between step windows nothing else changes (DESIGN CHOICE,
log 1). -/
def Obligations.EmptyQueuePassesCycle : Prop :=
  ∀ s : State, s.pending = [] →
    Completes (step s) (fun t => t.now = s.now + 10 ∧ t.pending = [] ∧
      (s.step.phase ≠ .window → t = { s with now := t.now, flt := t.flt }) ∧
      t = { s with now := t.now, tick := t.tick, spindles := t.spindles, skeins := t.skeins, flt := t.flt } ∧
      t.flt = { s.flt with watchSpindle := t.flt.watchSpindle, watchChannel := t.flt.watchChannel, watchBoard := t.flt.watchBoard
                           watchRouters := t.flt.watchRouters, watchCrossbar := t.flt.watchCrossbar } ∧
      ∀ u : WatchUnit, t.watched u = true → (t.sampleOf u).seen = t.progress u ∧
        ((s.sampleOf u).seen = t.progress u → (t.sampleOf u).since = (s.sampleOf u).since) ∧
        ((s.sampleOf u).seen ≠ t.progress u → (t.sampleOf u).since = t.now))

/-- TICK_EDGE while a step window is open or no step runs: the counter increments, the next edge is one period later, TICK_OUT is high for 10 ns and the
drain begins.
TICK_EDGE on the last count the counter can hold stops the model: the spec defines no wrap (R22).
TICK_EDGE that finds a spindle short of STEPEND overruns the step and leaves a cause. -/
def Obligations.TickEdgeCommand : Prop :=
  (∀ (s : State) (edge : Time), Clocked s → s.tick.enable = true → s.tick.src ≠ 3 →
     (if s.tick.src = 2 then s.tick.tickInAt = some edge else edge = s.tick.nextEdge) → edge ≤ s.now →
     (s.step.phase = .idle ∨ s.step.phase = .window) → s.tick.count ≠ 0xFFFFFFFFFFFF →
     Completes (exec .tickEdge s) (fun t =>
       t.tick.count = s.tick.count + 1 ∧ t.tick.lastEdge = edge ∧ t.tick.nextEdge = edge + 17 * s.tick.periodNs.toNat ∧
       t.tick.tickOutUntil = s.now + 170 ∧ t.tick.periodNs = s.tick.periodNs ∧ t.step.phase = .drain ∧
       (s.step.phase = .idle → t.step.begun = false ∧ t.mem = s.mem))) ∧
  (∀ (s : State) (edge : Time), Clocked s → s.tick.enable = true → s.tick.src ≠ 3 →
     (if s.tick.src = 2 then s.tick.tickInAt = some edge else edge = s.tick.nextEdge) → edge ≤ s.now →
     (s.step.phase = .idle ∨ s.step.phase = .window) → s.tick.count = 0xFFFFFFFFFFFF →
     exec .tickEdge s = .refused .tickWrap) ∧
  (∀ (s : State) (i : Spindle), Clocked s → s.tick.enable = true → s.tick.src = 0 → s.tick.nextEdge ≤ s.now →
     s.step.phase = .window → s.tick.count ≠ 0xFFFFFFFFFFFF →
     (s.spindles[i]).seq.runs = true → (s.spindles[i]).seq.idle = false → s.laneExcused i = false →
     Completes (exec .tickEdge s) (fun t => t.step.overrun = true ∧ t.step.faulted = true ∧ t.step.phase = .drain))

/-- STEP_START for a job that is due: the device begins step committed_step of that job under the pattern in effect, and every spindle starts afresh.
DRAIN_END and COMMIT at their times: the drain ends with or without an overrun, and a statistics record that cannot be written aborts the step; a good
step commits, its last step delivers the job, and a discarded one is only recorded. -/
def Obligations.StepsBeginAndClose : Prop :=
  (∀ (s : State) (j : Job) (im : Image), Clocked s → s.step.phase = .idle → s.step.closed = true → s.tick.enable = true →
     s.tick.stopped = false → s.endCancelled.jobDue = some j → s.endCancelled.dist.active = some im →
     Completes (exec .stepStart s) (fun t =>
       t.step.phase = .window ∧ t.step.begun = true ∧ t.step.tick = s.tick.count ∧ t.step.index = j.commit.committedStep.toNat ∧
       t.step.beganAt = s.now ∧ t.stats = [] ∧ t.streams = [] ∧
       ∀ i : Spindle, (t.spindles[i]).passCount = 0 ∧ (t.spindles[i]).cause = 0 ∧ (t.spindles[i]).barred = false ∧
         (t.spindles[i]).seq.pc = 0 ∧ (t.spindles[i]).seq.runs = im.spindleRuns i ∧ (t.spindles[i]).seq.idle = !im.spindleRuns i ∧
         (t.spindles[i]).seq.stapleId = 0xFFFF ∧ (t.spindles[i]).vec.running = false ∧ (t.spindles[i]).num.flags = 0)) ∧
  ((∀ s : State, Clocked s → s.step.phase = .drain → s.tick.lastEdge + 17 * s.drainNs ≤ s.now →
     (s.step.begun = true ∧ s.outstanding = true →
       Completes (exec .drainEnd s) (fun t => t.step.phase = .spread ∧ t.step.overrun = true)) ∧
     (s.step.begun = false ∨ s.outstanding = false ∧ s.stats = [] →
       exec .drainEnd s = .next { s with step := { s.step with phase := .spread } }) ∧
     (s.step.begun = true → s.outstanding = false → (∃ r ∈ s.stats, (s.writeRecord r).2 ≠ 0) →
       Completes (exec .drainEnd s) (fun t => t.step.phase = .spread ∧ t.step.faulted = true ∧ t.mem = s.mem))) ∧
   (∀ (s : State) (j : Job), Clocked s → s.step.phase = .spread → s.tick.lastEdge + 17 * s.tick.holdNs.toNat ≤ s.now →
     s.step.begun = true → s.runningJob = some j →
     (s.step.overrun = false ∧ s.step.aborted = false ∧ s.step.faulted = false → s.step.index + 1 ≠ j.steps →
       Completes (exec .commit s) (fun t => t.step.phase = .idle ∧ t.step.closed = true ∧
         t.dist.jobs = s.dist.jobs.map (fun x => if x.id = j.id then { x with
           commit := { jobId := x.id, currentHalf := (match s.dist.active with
                         | some im => flipHalves im j.commit.currentHalf
                         | none => j.commit.currentHalf)
                       committedTick := s.step.tick.setWidth 64, committedStep := BitVec.ofNat 64 (s.step.index + 1) }
           poisonRerun := false } else x))) ∧
     (s.step.overrun = false ∧ s.step.aborted = false ∧ s.step.faulted = false → s.step.index + 1 = j.steps →
       Completes (exec .commit s) (fun t => t.step.phase = .idle ∧ t.step.closed = true ∧
         t.dist.ended.head?.map (fun x => (x.id, x.state, x.endCode, x.commit.committedStep)) =
           some (j.id, .delivered, 0, BitVec.ofNat 64 j.steps) ∧
         t.dist.jobs = s.dist.jobs.filter (fun x => x.id != j.id))) ∧
     (s.step.overrun = true ∨ s.step.aborted = true ∨ s.step.faulted = true →
       Completes (exec .commit s) (fun t => t.step.phase = .idle ∧ t.step.closed = true ∧
         ∀ y ∈ t.dist.jobs, ∃ x ∈ s.dist.jobs, x.id = y.id ∧ x.commit = y.commit))))

/-- TCK_ commands: arming a period, its application at the named tick, the latched read of the counter, and the pacer's commit write. Each changes the
tick block alone.
TICK_LOSS after `limit` missed edges stops the follower, aborts and reports; PATTERN_SWITCH at the armed tick makes the verified pattern the one in
effect and swaps every spindle's banks.
TICK_FLIT on a link that is up: from its upstream link's good flit a follower takes the edge of the tick it is in, or, when the flit comes before the
local edge, the next edge; another link's flit and a flit that fails its CRC are dropped and counted; a flit of another period places no edge. An
accepted flit goes on on every link of the tick tree. -/
def Obligations.TickBlockCommands : Prop :=
  ((∀ s : State,
     (20000 ≤ s.tick.periodNext.toNat ∧ s.tick.periodNext.toNat ≤ 200000000 ∧ s.tick.count.toNat + 2 ≤ s.tick.applyTick →
       exec .periodArm s = .next { s with tick := { s.tick with periodArm := true } }) ∧
     (s.tick.periodNext.toNat < 20000 ∨ 200000000 < s.tick.periodNext.toNat ∨ s.tick.applyTick < s.tick.count.toNat + 2 →
       exec .periodArm s = .next { s with tick := { s.tick with periodArm := false, badPeriod := true } })) ∧
   (∀ s : State, Clocked s → s.tick.periodArm = true → s.tick.applyTick = s.tick.count.toNat →
     exec .periodApply s = .next { s with tick := { s.tick with
       periodNs := s.tick.periodNext, periodArm := false, nextEdge := s.tick.lastEdge + 17 * s.tick.periodNext.toNat } }) ∧
   (∀ s : State, exec .tckCountLoRead s = .next { s with tick := { s.tick with countHi := s.tick.count.extractLsb' 32 16 } }) ∧
   (∀ s : State, Completes (exec .paceCommit s) (fun t =>
     t = { s with tick := { s.tick with floorUj := t.tick.floorUj, coef := t.tick.coef } } ∧
     t.tick.floorUj = { eff := s.tick.floorUj.shadow.getD s.tick.floorUj.eff, shadow := none } ∧
     ∀ n : Fin 16, t.tick.coef[n] = { eff := (s.tick.coef[n]).shadow.getD (s.tick.coef[n]).eff, shadow := none }))) ∧
  ((∀ s : State, Clocked s → s.tick.enable = true → s.tick.src = 0 → s.tick.lost = false → s.tick.lossLimit.toNat ≤ s.tick.missed →
     Completes (exec .tickLoss s) (fun t =>
       t.tick = { s.tick with stopped := true, lost := true, locked := false } ∧ t.flt.lastFault = 0x0808 ∧
       (s.stepOpen = true → t.step.faulted = true ∧ t.step.cause ≠ 0) ∧
       (s.stepOpen = false → (∀ c, s.step.nextCause = some c → c.1 ≠ s.tick.count) →
         t.step.nextCause = some (s.tick.count, 0x0808, s.rank)))) ∧
   (∀ (s : State) (g : Staged), Clocked s → s.dist.staged = some g → g.armedAt = some s.tick.count.toNat →
     s.step.phase = .idle → s.step.closed = true →
     Completes (exec .patternSwitch s) (fun t =>
       t.dist.active = some g.image ∧ t.dist.staged = none ∧
       (∀ i : Spindle, (t.spindles[i]).seq.activeBank = !(s.spindles[i]).seq.activeBank ∧
         (t.spindles[i]).seq.bank0 = (s.spindles[i]).seq.bank0 ∧ (t.spindles[i]).seq.bank1 = (s.spindles[i]).seq.bank1 ∧
         (t.spindles[i]).num.mask = BitVec.ofNat 7 g.image.numericMask) ∧
       t = { s with dist := t.dist, spindles := t.spindles, skeins := t.skeins, dies := t.dies, links := t.links, slv := t.slv }))) ∧
  (∀ (l : Link) (f : Flit) (s : State), (s.links[l]).phase = .up → s.looped l = false →
     (flitGood f = false → exec (.tickFlit l f) s = .next (s.modLink l (fun x => { x with
       crcErr := satAdd 16 x.crcErr 1, tickDrop := satAdd 32 x.tickDrop 1 }))) ∧
     (flitGood f = true → f.kind = 4 → (s.tick.enable = false ∨ s.tick.src ≠ 0 ∨ s.tick.upLink.toNat ≠ l.val) →
       exec (.tickFlit l f) s = .next ((s.takeAck l f).modLink l (fun x => { x with tickDrop := satAdd 32 x.tickDrop 1 }))) ∧
     (flitGood f = true → f.kind = 4 → s.tick.enable = true → s.tick.src = 0 → s.tick.upLink.toNat = l.val →
       Completes (exec (.tickFlit l f) s) (fun t =>
         (let n : BitVec 48 := BitVec.ofNat 48 (field f.payload 0 6)
          let period := s.tick.periodAt n
          let placed := s.now - (s.tick.linkComp.toNat + field f.payload 8 4) * 17 / 16
          (field f.payload 16 4 = period.toNat → n = s.tick.count →
            t.tick.flitSeen = true ∧ t.tick.lastEdge = placed ∧ t.tick.nextEdge = placed + 17 * period.toNat ∧ t.tick.count = s.tick.count) ∧
          (field f.payload 16 4 = period.toNat → n = s.tick.count + 1 →
            t.tick.flitEarly = true ∧ t.tick.nextEdge = placed ∧ t.tick.lastEdge = s.tick.lastEdge ∧ t.tick.count = s.tick.count ∧
            t.tick.flitSeen = s.tick.flitSeen) ∧
          (field f.payload 16 4 ≠ period.toNat →
            t.tick.flitSeen = s.tick.flitSeen ∧ t.tick.flitEarly = s.tick.flitEarly ∧ t.tick.lastEdge = s.tick.lastEdge ∧
            t.tick.nextEdge = s.tick.nextEdge ∧ t.tick.count = s.tick.count ∧ t.tick.locked = false)) ∧
         t.tick.periodNs = s.tick.periodNs ∧ t.step = s.step ∧
         (∀ m : Link, (s.links[m]).phase = .up → (s.links[m]).tickDown = true →
           ((t.links[m]).tickDue.map (·.depth)) = some (BitVec.ofNat 16 (field f.payload 12 2) + 1) ∧
           ((t.links[m]).tickDue.map (·.tick)) = some (BitVec.ofNat 48 (field f.payload 0 6))))))

/-- LOOP, JMP, SETH, SBEGIN, SEND and STEPEND of a sequencer that may issue them: what each leaves in its sequencer, and that nothing else changes. -/
def Obligations.SequencerWords : Prop :=
  ∀ (s : State) (i : Spindle) (w : Word64),
    (AtWord s i .none w 0xB → (s.spindles[i]).seq.taken = none →
      Completes (exec (.jmp i) s) (fun t => OnlySeq i s t ∧ (t.spindles[i]).seq.pc = BitVec.ofNat 13 (wbits w 12 0) ∧
        (t.spindles[i]).seq.loops = (s.spindles[i]).seq.loops.dropWhile
          (fun l => decide (wbits w 12 0 < l.start) || decide (l.stop < wbits w 12 0)))) ∧
    (AtWord s i .none w 0xA → (s.spindles[i]).seq.taken = none → wbits w 15 0 ≠ 0 → wbits w 28 16 ≠ 0 →
      (s.spindles[i]).seq.loops.length < 2 →
      (∀ l ∈ (s.spindles[i]).seq.loops.head?, (s.spindles[i]).seq.pc.toNat + wbits w 28 16 ≤ l.stop) →
      Completes (exec (.seqLoop i) s) (fun t => OnlySeq i s t ∧ (t.spindles[i]).seq.pc = (s.spindles[i]).seq.pc + 1 ∧
        (t.spindles[i]).seq.loops = { start := (s.spindles[i]).seq.pc.toNat + 1, stop := (s.spindles[i]).seq.pc.toNat + wbits w 28 16, left := wbits w 15 0 } :: (s.spindles[i]).seq.loops)) ∧
    (AtWord s i .none w 0xD → (s.spindles[i]).seq.taken = none →
      exec (.seth i) s = .next (s.modSp i (fun x => { x with seq := ({ x.seq with
        words := x.seq.words + 1
        h := x.seq.h.set (wbits w 4 0 % 32) (BitVec.ofNat 32 (wbits w 47 16)) (by omega) } : Seq).finish }))) ∧
    (AtWord s i .none w 3 → (s.spindles[i]).seq.taken = none → (s.spindles[i]).seq.inStaple = true →
      Completes (exec (.send i) s) (fun t => OnlySeq i s t ∧ (t.spindles[i]).seq.stall = .send ∧
        (t.spindles[i]).seq.pc = (s.spindles[i]).seq.pc)) ∧
    (∀ st : Staple, AtWord s i .none w 2 → (s.spindles[i]).seq.taken = some st → (s.spindles[i]).seq.inStaple = false →
      st.id = BitVec.ofNat 16 (wbits w 47 32) → st.budget = wbits w 31 0 →
      Completes (exec (.sbegin i) s) (fun t => (t.spindles[i]).seq.inStaple = true ∧ (t.spindles[i]).seq.taken = none ∧
        (t.spindles[i]).seq.stapleId = st.id ∧ (t.spindles[i]).seq.budget = st.budget ∧
        (t.spindles[i]).seq.h = Vector.replicate 32 0)) ∧
    (AtWord s i .stepend w 0xC → (s.spindles[i]).seq.taken = none → (s.spindles[i]).seq.inStaple = false →
      (s.spindles[i]).armed = [] → (∀ p ∈ (s.spindles[i]).passes, p.held = none) →
      Completes (exec (.stepend i) s) (fun t => (t.spindles[i]).seq.idle = true ∧ (t.spindles[i]).seq.stall = .none ∧
        (t.spindles[i]).seq.stepCycles = satAdd 32 0 ((s.now - (s.spindles[i]).seq.startedAt) / 10)))

/-- NEXT outside a staple: it takes what the board gives its lane and jumps to the staple's entry, ready 8 sc later for its own work and 60 sc for stolen
work; it stalls while the board is not done, and falls through once it is done or no board is active.
The order in which NEXT takes work (R196): a returned staple that the lane may take; else, unless the lane is slow, the head of its own list, then the
tail of the victim's; a slow lane takes a head pinned to it; an excluded lane steals nothing. -/
def Obligations.NextTakesStaple : Prop :=
  (∀ (s : State) (i : Spindle) (w : Word64), AtWord s i .next w 1 → (s.spindles[i]).seq.taken = none →
     (s.spindles[i]).seq.inStaple = false →
     ((s.skeins[skeinOf i]).boardActive = false → exec (.seqNext i) s = .next ((counted s i).seqNext i)) ∧
     ((s.skeins[skeinOf i]).boardActive = true → ∀ (st : Staple) (b : SkeinState),
       ((s.skeins[skeinOf i]).take (laneOf i) = some (.own st, b) →
         Completes (exec (.seqNext i) s) (fun t =>
           (t.spindles[i]).seq.taken = some st ∧ (t.spindles[i]).seq.pc = BitVec.ofNat 13 (wbits w 15 0 + st.entry) ∧
           (t.spindles[i]).seq.readyAt = s.now + 80 ∧ (t.skeins[skeinOf i]).takes = satAdd 32 b.takes 1 ∧
           (t.skeins[skeinOf i]).inProgress = b.inProgress ++ [(laneOf i, st)])) ∧
       ((s.skeins[skeinOf i]).take (laneOf i) = some (.stolen st, b) →
         Completes (exec (.seqNext i) s) (fun t =>
           (t.spindles[i]).seq.taken = some st ∧ (t.spindles[i]).seq.pc = BitVec.ofNat 13 (wbits w 15 0 + st.entry) ∧
           (t.spindles[i]).seq.readyAt = s.now + 600 ∧ (t.skeins[skeinOf i]).steals = satAdd 32 b.steals 1 ∧
           (t.skeins[skeinOf i]).inProgress = b.inProgress ++ [(laneOf i, st)]))) ∧
     ((s.skeins[skeinOf i]).boardActive = true → (s.skeins[skeinOf i]).take (laneOf i) = none →
       Completes (exec (.seqNext i) s) (fun t => OnlySeq i s t ∧
         ((s.skeins[skeinOf i]).done = false → (t.spindles[i]).seq.stall = .next ∧
           (t.spindles[i]).seq.pc = (s.spindles[i]).seq.pc) ∧
         ((s.skeins[skeinOf i]).done = true → (t.spindles[i]).seq.stall = .none)))) ∧
  (∀ (x : SkeinState) (l : Fin 8),
     (∀ (st : Staple) (rest : List Staple), x.excludedNow.getLsbD l.val = false → x.slow.getLsbD l.val = false →
       x.returned = st :: rest → st.pinned = false ∨ st.owner = l →
       x.take l = some (.own st, { x with returned := rest })) ∧
     (∀ (st : Staple) (rest : List Staple), x.excludedNow.getLsbD l.val = false → x.slow.getLsbD l.val = false →
       x.returned = [] → x.list l = st :: rest → x.take l = some (.own st, x.modList l (·.drop 1))) ∧
     (∀ (v : Fin 8) (st : Staple), x.excludedNow.getLsbD l.val = false → x.slow.getLsbD l.val = false →
       x.returned = [] → x.list l = [] → x.victim l = some v → (x.list v).getLast? = some st →
       x.take l = some (.stolen st, x.modList v (·.dropLast))) ∧
     (∀ (st : Staple) (rest : List Staple), x.excludedNow.getLsbD l.val = false → x.slow.getLsbD l.val = true →
       x.returned = [] → x.list l = st :: rest →
       x.take l = if st.pinned then some (.own st, x.modList l (·.drop 1)) else none) ∧
     (x.excludedNow.getLsbD l.val = true → x.take l = none) ∧
     (∀ v, x.victim l = some v → v ≠ l ∧ (∃ st, (x.list v).getLast? = some st ∧ st.pinned = false) ∧
       ∀ u : Fin 8, u ≠ l → (∃ st, (x.list u).getLast? = some st ∧ st.pinned = false) →
         x.remain u < x.remain v ∨ x.remain u = x.remain v ∧ v ≤ u))

/-- WAIT goes on when its event has come and else stalls; WAIT_SATISFIED ends the stall; POP stalls on the staple's next consumer position, and POP_TAKE
takes its handle into the register and holds the position.
PUSH appends the handle to the staple's unpublished pushes at its next producer position; SEND_PUBLISH, once the staple's work is complete and there
is space, fills those positions, frees the popped ones and ends the staple. -/
def Obligations.SequencerWaitsAndPublishes : Prop :=
  (∀ (s : State) (i : Spindle) (w : Word64),
     (∀ e : Nat, AtWord s i .none w 7 → (s.spindles[i]).seq.taken = none → wbits w 7 0 = e → e ≤ 36 →
       32 ≤ e ∨ ((s.spindles[i]).seq.inStaple = true ∧ ((s.skeins[skeinOf i]).ring e).wiring ≠ none) →
       (s.eventCome i e = true → exec (.wait i) s = .next ((counted s i).seqNext i)) ∧
       (s.eventCome i e = false → Completes (exec (.wait i) s) (fun t => OnlySeq i s t ∧
         (t.spindles[i]).seq.stall = .event e ∧ (t.spindles[i]).seq.pc = (s.spindles[i]).seq.pc))) ∧
     (∀ e : Nat, (s.spindles[i]).seq.stall = .event e → s.seqReady i (.event e) = true →
       exec (.waitSatisfied i) s = .next (if s.eventCome i e then s.seqNext i else s)) ∧
     (AtWord s i .none w 9 → (s.spindles[i]).seq.taken = none → (s.spindles[i]).seq.inStaple = true →
       s.nextPop i (wbits w 4 0) ≠ none →
       Completes (exec (.pop i) s) (fun t => OnlySeq i s t ∧
         (t.spindles[i]).seq.stall = .popWait (wbits w 4 0) (wbits w 12 8) ∧ (t.spindles[i]).seq.pc = (s.spindles[i]).seq.pc)) ∧
     (∀ (r reg pos : Nat) (wi : RingWiring) (h : Word), r < 32 → reg < 32 → (s.spindles[i]).seq.stall = .popWait r reg →
       s.seqReady i (.popWait r reg) = true → s.nextPop i r = some pos → ((s.skeins[skeinOf i]).ring r).wiring = some wi →
       ((s.skeins[skeinOf i]).ring r).handleAt pos = some h → wi.fits h = true →
       Completes (exec (.popTake i) s) (fun t =>
         (t.spindles[i]).seq.h = (s.spindles[i]).seq.h.setIfInBounds reg h ∧ (t.spindles[i]).seq.stall = .none ∧
         (t.spindles[i]).seq.pops = (s.spindles[i]).seq.pops ++ [{ skein := skeinOf i, ring := r, pos := pos, handle := h }] ∧
         ((t.skeins[skeinOf i]).ring r).held = ((s.skeins[skeinOf i]).ring r).held ++ [pos] ∧
         ((t.skeins[skeinOf i]).ring r).filled = ((s.skeins[skeinOf i]).ring r).filled))) ∧
  (∀ (s : State) (i : Spindle),
     (∀ (w : Word64) (k : Skein) (wi : RingWiring) (pos : Nat), AtWord s i .none w 8 → (s.spindles[i]).seq.taken = none →
       (s.spindles[i]).seq.inStaple = true → s.pushRing (skeinOf i) (wbits w 4 0) = some k →
       ((s.skeins[k]).ring (wbits w 4 0)).wiring = some wi → wi.fits ((s.spindles[i]).seq.h[wbits w 12 8 % 32]) = true →
       nthPos ((s.skeins[k]).ring (wbits w 4 0)).producers (s.spindles[i]).seq.stapleId
         ((s.spindles[i]).seq.pushes.filter (fun p => p.skein == k && p.ring == wbits w 4 0)).length = some pos →
       Completes (exec (.push i) s) (fun t => OnlySeq i s t ∧
         (t.spindles[i]).seq.pushes = (s.spindles[i]).seq.pushes ++
           [{ skein := k, ring := wbits w 4 0, pos := pos, handle := (s.spindles[i]).seq.h[wbits w 12 8 % 32] }])) ∧
     ((s.spindles[i]).seq.stall = .send → s.seqReady i .send = true → (s.spindles[i]).passes = [] → (s.spindles[i]).armed = [] →
       s.stapleDmaDone i = true → (∀ p ∈ (s.spindles[i]).seq.pushes, s.pushSpace p = true) →
       Completes (exec (.sendPublish i) s) (fun t =>
         (t.spindles[i]).seq.inStaple = false ∧ (t.spindles[i]).seq.stapleId = 0xFFFF ∧ (t.spindles[i]).seq.pops = [] ∧
         (t.spindles[i]).seq.pushes = [] ∧ (t.spindles[i]).seq.stall = .none ∧
         (t.skeins[skeinOf i]).sends = satAdd 32 (s.skeins[skeinOf i]).sends 1 ∧
         (∀ p ∈ (t.skeins[skeinOf i]).inProgress, p.1 ≠ laneOf i) ∧
         (∀ p, (s.spindles[i]).seq.pushes = [p] → p.ring < 32 → (s.spindles[i]).seq.pops = [] →
           ((t.skeins[p.skein]).ring p.ring).filled = ((s.skeins[p.skein]).ring p.ring).filled ++ [(p.pos, p.handle)]) ∧
         (∀ p, (s.spindles[i]).seq.pops = [p] → p.ring < 32 → (s.spindles[i]).seq.pushes = [] →
           ((t.skeins[p.skein]).ring p.ring).filled = ((s.skeins[p.skein]).ring p.ring).filled.filter (·.1 ≠ p.pos) ∧
           ((t.skeins[p.skein]).ring p.ring).done = p.pos :: ((s.skeins[p.skein]).ring p.ring).done))))

/-- PASS, PASS_ARM, VEC and DMA (R37, R87, R88, R155, R164, R273, R290). PASS queues the pass of a good descriptor while the queue has a place and nothing
is armed, and stalls until it ends where the word waits; PASS_ARM arms a triggered pass on its staple's next ring position; VEC starts a routine at
its address with the registers as they are; DMA hands a list to a channel, which accepts it a cycle later, and a channel that drains or is off makes
the lane record a sequencer fault and the step fail with 0x0810 or 0x0811. -/
def Obligations.SequencerStartsWork : Prop :=
  ∀ (s : State) (i : Spindle) (w : Word64), (s.spindles[i]).seq.taken = none →
    (∀ (o : Nat) (d : PassDesc) (c : Option ChainDesc), AtWord s i .none w 4 → (s.spindles[i]).descriptor w = (o, d, c) →
      (s.spindles[i]).passes.length < 2 → (s.spindles[i]).armed = [] → (∀ ch ∈ c, ch.trigger = false) →
      (s.spindles[i]).descOk i o d c = true →
      Completes (exec (.pass i) s) (fun t => OnlySpindle i s t ∧
        (t.spindles[i]).passes = (s.spindles[i]).passes ++ [(s.spindles[i]).newPass s.now w o d c] ∧
        (t.spindles[i]).lastPass = some d ∧
        (bit w.toNat 24 = true → (t.spindles[i]).seq.stall = .passWait) ∧
        (bit w.toNat 24 = false → (t.spindles[i]).seq.stall = .none))) ∧
    (∀ (o pos : Nat) (d : PassDesc) (ch : ChainDesc), AtWord s i .none w 4 → (s.spindles[i]).descriptor w = (o, d, some ch) →
      ch.trigger = true → (s.spindles[i]).armed.length < 4 → (s.spindles[i]).descOk i o d (some ch) = true →
      s.nextPop i ch.trigRing = some pos →
      Completes (exec (.passArm i) s) (fun t => OnlySpindle i s t ∧
        (t.spindles[i]).armed = (s.spindles[i]).armed ++
          [{ (s.spindles[i]).newPass s.now w o d (some ch) with wantPos := pos }] ∧
        (t.spindles[i]).passes = (s.spindles[i]).passes)) ∧
    (AtWord s i .none w 5 → wbits w 15 13 = 0 → (s.spindles[i]).vec.running = false → (s.spindles[i]).vec.barred = false →
      Completes (exec (.vec i) s) (fun t => OnlySpindle i s t ∧ (t.spindles[i]).vec.running = true ∧
        (t.spindles[i]).vec.pc = BitVec.ofNat 13 (wbits w 12 0) ∧ (t.spindles[i]).vec.loops = [] ∧
        (t.spindles[i]).vec.v = (s.spindles[i]).vec.v ∧ (t.spindles[i]).seq.stall = .vec)) ∧
    (∀ c : Fin 4, AtWord s i .none w 6 → wbits w 1 0 = c.val → wbits w 31 16 < (s.skeins[skeinOf i]).lists.length →
      ((s.flt.chanFn[chanOf (skeinOf i) c]).st = .on →
        ((s.skeins[skeinOf i]).channels[c]).run = none ∨ ((s.skeins[skeinOf i]).channels[c]).queued = none →
        Completes (exec (.dma i) s) (fun t =>
          ((if ((s.skeins[skeinOf i]).channels[c]).run = none then ((t.skeins[skeinOf i]).channels[c]).run
            else ((t.skeins[skeinOf i]).channels[c]).queued).map (fun r => (r.list, r.lane, r.acceptedAt))) =
            some (wbits w 31 16, laneOf i, s.now + 10) ∧
          (t.spindles[i]).seq.stall = .none ∧
          t = { s with spindles := t.spindles, skeins := t.skeins })) ∧
      ((s.flt.chanFn[chanOf (skeinOf i) c]).st ≠ .on →
        Completes (exec (.dma i) s) (fun t => (t.spindles[i]).seq.seqFault = true ∧ t.step.faulted = true ∧
          (s.step.cause = 0 → t.step.cause = (if (s.flt.chanFn[chanOf (skeinOf i) c]).st = .draining then 0x0810 else 0x0811)))))

/-- WEIGHT_LOAD, PASS_START, PASS_COMPLETE and PASS_RESTART at their conditions: the weights go into the shadow, the head pass starts on them, and its end
writes its rows, flips their select bits and leaves the queue.
What the end of a pass writes (R64, R73): its accumulator words go to the copies that are not selected, and the select bits of its rows flip, of no
other row. -/
def Obligations.GridRunsPasses : Prop :=
  (∀ (s : State) (i : Spindle) (p : Pass), Clocked s → s.spDown i = false →
     (∀ rest, (s.spindles[i]).passes.filter (fun q => q.startedAt.isNone) = p :: rest → p.noLoad = false → p.weights = none →
       p.loadAt = none → p.issuedAt ≤ s.now →
       (∀ g ∈ (s.spindles[i]).inGrid, g.restartAt = none ∧ ∃ t ∈ g.startedAt, t + 10 ≤ s.now) →
       Completes (exec (.weightLoad i) s) (fun t => OnlySpindle i s t ∧
         (t.spindles[i]).shadow = some ((s.spindles[i]).fetchWeights p.desc) ∧ (t.spindles[i]).active = (s.spindles[i]).active ∧
         (t.spindles[i]).passes = modPass (fun q => q == p) (fun q => { q with loadAt := some s.now }) (s.spindles[i]).passes)) ∧
     ((s.spindles[i]).head = some p → s.mayStart i p = true → (∀ c ∈ p.chain, (s.spindles[i]).areasOk p.desc c = true) →
       Completes (exec (.passStart i) s) (fun t =>
         (p.weights = none → p.noLoad = false → (t.spindles[i]).active = (s.spindles[i]).shadow ∧ (t.spindles[i]).shadow = none) ∧
         (p.weights = none → p.noLoad = true → (t.spindles[i]).active = (s.spindles[i]).active) ∧
         (p.weights ≠ none → (t.spindles[i]).active = p.weights ∧ (t.spindles[i]).shadow = (s.spindles[i]).shadow) ∧
         (t.spindles[i]).gridFree = some (s.now + 10 * p.desc.interval, p.desc.interval) ∧
         (t.spindles[i]).scratch = (s.spindles[i]).scratch ∧ (t.spindles[i]).sel = (s.spindles[i]).sel ∧
         t = { s with spindles := t.spindles, tick := t.tick } ∧ (p.charged = true → t.tick = s.tick))) ∧
     (∀ (rest : List Pass) (st : Time) (o : PassOut) (w : WeightSet), (s.spindles[i]).inGrid = p :: rest →
       p.restartAt = none → p.startedAt = some st → st + 10 * p.desc.latency ≤ s.now → (s.spindles[i]).operandsBad p = false →
       p.weights = some w → (s.spindles[i]).runPass p.desc p.chain w s.seed = o → o.record = none → o.rep = {} → p.held = none →
       Completes (exec (.passComplete i) s) (fun t => OnlySpindle i s t ∧
         (t.spindles[i]).sel = (((s.spindles[i]).complete p.desc o).sel) ∧
         (t.spindles[i]).acc0 = (((s.spindles[i]).complete p.desc o).acc0) ∧
         (t.spindles[i]).acc1 = (((s.spindles[i]).complete p.desc o).acc1) ∧
         (t.spindles[i]).scratch = (((s.spindles[i]).complete p.desc o).scratch) ∧
         (t.spindles[i]).passCount = (s.spindles[i]).passCount + 1 ∧
         (t.spindles[i]).rowCount = satAdd 32 (s.spindles[i]).rowCount p.desc.m ∧
         (t.spindles[i]).passes = (s.spindles[i]).passes.filter (· != p))) ∧
     ((s.spindles[i]).passes.find? (fun q => q.restartAt.isSome) = some p → (∀ at_ ∈ p.restartAt, at_ ≤ s.now) →
       Completes (exec (.passRestart i) s) (fun t => OnlySpindle i s t ∧ (t.spindles[i]).active = p.weights ∧
         (t.spindles[i]).gridFree = some (s.now + 10 * p.desc.interval, p.desc.interval) ∧
         (t.spindles[i]).passes = (s.spindles[i]).passes.map
           (fun q => if q == p then { q with startedAt := some s.now, restartAt := none } else q)))) ∧
  (∀ (x : SpindleState) (d : PassDesc) (o : PassOut),
     (∀ r, r < 4096 → d.accRow + d.rows ≤ 4096 → o.writes = [] →
       (x.complete d o).sel.getLsbD r = (x.sel.getLsbD r != (decide (d.accRow ≤ r) && decide (r < d.accRow + d.rows)))) ∧
     (∀ (a : Nat) (w : Word), o.acc = [(a, w)] → o.writes = [] →
       (x.sel.getLsbD (a / 128) = true → (x.complete d o).acc0 = Cells.put 0 x.acc0 a w ∧ (x.complete d o).acc1 = x.acc1) ∧
       (x.sel.getLsbD (a / 128) = false → (x.complete d o).acc1 = Cells.put 0 x.acc1 a w ∧ (x.complete d o).acc0 = x.acc0)))

/-- GRID_FAULT restarts its pass 133 sc later while restarts are left, and the passes behind it in the grid; under a resume pre-emption they go back to
the head of the queue and under an abandon they drop; past the limit it records cause 8 and fails the step. NON_RESTARTABLE_FAULT discards the pass,
bars the spindle and fails the step with 0x0840 + cause. -/
def Obligations.GridFaults : Prop :=
  ∀ (s : State) (i : Spindle) (before after : List Pass) (p : Pass) (row : BitVec 12) (later : Bool), Clocked s →
    (s.spindles[i]).inGrid = before ++ p :: after → before.length = (if later then 1 else 0) → p ∉ before → p.restartAt = none →
    (∀ c : GridCause, p.restarts < (s.spindles[i]).retryLimit.toNat → (s.spindles[i]).preemptPending ≠ some .abandon →
      Completes (exec (.gridFault i later c row) s) (fun t =>
        (t.spindles[i]).restarted = true ∧ (t.spindles[i]).restarts = satAdd 16 (s.spindles[i]).restarts 1 ∧
        (t.spindles[i]).barred = (s.spindles[i]).barred ∧ t.step = s.step ∧
        ((s.spindles[i]).preemptPending = none → (t.spindles[i]).passes = (s.spindles[i]).passes.map (fun q =>
          if q == p then { q with restartAt := some (s.now + 1330), restarts := q.restarts + 1 }
          else if after.contains q then q.backToQueue (s.now + 1330) false else q.reload s.now (s.now + 1330))) ∧
        ((s.spindles[i]).preemptPending = some .resume → (t.spindles[i]).takeAt = s.now + 50 ∧
          (t.spindles[i]).passes = (s.spindles[i]).passes.map (fun q => if q == p then q.backToQueue (s.now + 50) true
            else if after.contains q then q.backToQueue (s.now + 50) false else q)) ∧
        ((s.spindles[i]).faultSeen = false → (t.spindles[i]).cause = gridCauseCode c ∧ (t.spindles[i]).faultTag = p.desc.tag ∧
          (t.spindles[i]).faultRow = row) ∧
        ((s.spindles[i]).faultSeen = true → (t.spindles[i]).cause = (s.spindles[i]).cause) ∧
        t = { s with spindles := t.spindles, skeins := t.skeins })) ∧
    (∀ c : GridCause, (s.spindles[i]).preemptPending = some .abandon →
      Completes (exec (.gridFault i later c row) s) (fun t => t.step = s.step ∧
        (∀ q ∈ (t.spindles[i]).passes, q ≠ p ∧ q ∉ after) ∧
        (t.spindles[i]).takeAt = s.now + 50 ∧ (t.spindles[i]).restarts = (s.spindles[i]).restarts)) ∧
    (∀ c : GridCause, (s.spindles[i]).retryLimit.toNat ≤ p.restarts → (s.spindles[i]).preemptPending ≠ some .abandon →
      s.stepOpen = true → s.step.cause = 0 →
      Completes (exec (.gridFault i later c row) s) (fun t =>
        (t.spindles[i]).barred = true ∧ t.step.faulted = true ∧ t.step.cause = 0x0848 ∧
        (∀ q ∈ (t.spindles[i]).passes, q ≠ p ∧ q ∉ after) ∧ (t.spindles[i]).cause = 8)) ∧
    (∀ c : HardCause, s.stepOpen = true → s.step.cause = 0 →
      Completes (exec (.nonRestartableFault i later c row) s) (fun t =>
        (t.spindles[i]).barred = true ∧ t.step.faulted = true ∧ t.step.cause = 0x0840 + (hardCauseCode c).setWidth 16 ∧
        t.step.unit = BitVec.ofNat 16 i.val ∧ (∀ q ∈ (t.spindles[i]).passes, q ≠ p) ∧
        ((s.spindles[i]).faultSeen = false → (t.spindles[i]).cause = hardCauseCode c ∧ (t.spindles[i]).faultRow = row)))

/-- PREEMPT_REQ, PREEMPTION_TAKEN and RESUME: the request waits for the grid to empty, the spindle then stands pre-empted, and RESUME lets it continue; an
abandoned staple returns, once its lists have stopped, to its skein's queue and its lane goes back to the NEXT that took it.
BUDGET_FAULT marks the lane slow and requests abandon pre-emption, and fails the step at a second fault of one staple; LANE_STUCK reports a lane that
has not stopped in time and starts rung 1; TRIGGER_TAKE issues the oldest armed pass with the buffer's address and holds the ring position. -/
def Obligations.PreemptionAndTriggers : Prop :=
  (∀ (s : State) (i : Spindle),
     ((s.spindles[i]).preemptPending = none → (s.spindles[i]).preempted = false →
       exec (.preemptReq i) s = .next (s.modSp i (fun x => { x with
         preemptPending := some .resume, stopReqAt := s.now, takeAt := s.now + 10 }))) ∧
     (Clocked s → (s.spindles[i]).inGrid = [] → (s.spindles[i]).takeAt ≤ s.now → (s.spindles[i]).preemptPending = some .resume →
       Completes (exec (.preemptionTaken i) s) (fun t => OnlySpindle i s t ∧ (t.spindles[i]).preempted = true ∧
         (t.spindles[i]).preemptPending = none ∧ (t.spindles[i]).passes = (s.spindles[i]).passes ∧
         ((s.spindles[i]).vec.running = true → (s.spindles[i]).vec.preEn = true →
           (t.spindles[i]).vec.pending = (s.spindles[i]).vec.pending ||| 1))) ∧
     (Clocked s → (s.spindles[i]).inGrid = [] → (s.spindles[i]).takeAt ≤ s.now → (s.spindles[i]).preemptPending = some .abandon →
       s.listsStopping i = false →
       Completes (exec (.preemptionTaken i) s) (fun t =>
         (t.spindles[i]).preemptPending = none ∧ (t.spindles[i]).returning = none ∧ (t.spindles[i]).seq.inStaple = false ∧
         (t.spindles[i]).seq.pushes = [] ∧ (t.spindles[i]).seq.pops = [] ∧
         ((s.spindles[i]).returning = none → (t.spindles[i]).preempted = true) ∧
         (∀ st : Staple, (s.spindles[i]).returning = some st → (t.spindles[i]).seq.pc = (s.spindles[i]).seq.nextPc ∧
           (t.skeins[skeinOf i]).returned = (s.skeins[skeinOf i]).returned ++ [st] ∧
           (t.skeins[skeinOf i]).inProgress = (s.skeins[skeinOf i]).inProgress.filter (fun p => p.1 != laneOf i)))) ∧
     (exec (.resume i) s = .next (s.modSp i (fun x => { x with preempted := false })))) ∧
  (∀ (s : State) (i : Spindle),
     ((s.spindles[i]).seq.inStaple = true → (s.spindles[i]).seq.budget = 0 → (s.spindles[i]).returning = none →
       s.step.phase = .window → s.spDown i = false → s.step.faulted = false → s.step.aborted = false →
       (s.spindles[i]).preemptPending = none → (s.skeins[skeinOf i]).faultedOnce.contains (s.spindles[i]).seq.stapleId = false →
       Completes (exec (.budgetFault i) s) (fun t =>
         (t.spindles[i]).seq.budgetFault = true ∧ (t.spindles[i]).preemptPending = some .abandon ∧
         (t.spindles[i]).stopReqAt = s.now ∧ (∀ q ∈ (t.spindles[i]).armed, q.startedAt ≠ none) ∧
         (t.skeins[skeinOf i]).slow = (s.skeins[skeinOf i]).slow ||| (1#8 <<< (laneOf i).val) ∧
         (t.spindles[i]).returning = ((s.skeins[skeinOf i]).inProgress.find? (fun p => p.1 == laneOf i)).map (·.2) ∧
         t.step = s.step)) ∧
     ((s.spindles[i]).seq.inStaple = true → (s.spindles[i]).seq.budget = 0 → (s.spindles[i]).returning = none →
       s.step.phase = .window → s.spDown i = false → s.step.faulted = false → s.step.aborted = false →
       (s.skeins[skeinOf i]).faultedOnce.contains (s.spindles[i]).seq.stapleId = true → s.step.cause = 0 →
       Completes (exec (.budgetFault i) s) (fun t => (t.skeins[skeinOf i]).budgetRepeat = true ∧ t.step.faulted = true ∧
         t.step.cause = 0x0913 ∧ t.step.unit = BitVec.ofNat 16 (skeinOf i).val)) ∧
     (∀ st : Staple, Clocked s → (s.spindles[i]).returning = some st → (s.spindles[i]).preemptPending = some .abandon →
       ((s.spindles[i]).stopReqAt + 43620 < s.now → RungFree s (.spindle i) 1 → (s.spindles[i]).power ≠ .failed →
         (s.rungEntries i).length < s.flt.repeatLimit.toNat → Completes (exec (.laneStuck i) s) (fun t =>
           t.flt.lastFault = 0x0815 ∧ RungRuns t (.spindle i) 1 0x0815 s.now ∧ (t.spindles[i]).returning = some st ∧
           (t.spindles[i]).power = .resetting)) ∧
       (s.now ≤ (s.spindles[i]).stopReqAt + 43620 → exec (.laneStuck i) s = .next s)) ∧
     (∀ (p : Pass) (rest : List Pass) (c : ChainDesc) (w : RingWiring) (h : Word) (d : PassDesc), (s.spindles[i]).armed = p :: rest →
       p.chain = some c → c.trigRing < 32 → ((s.skeins[skeinOf i]).ring c.trigRing).wiring = some w →
       ((s.skeins[skeinOf i]).ring c.trigRing).handleAt p.wantPos = some h → (s.spindles[i]).passes.length < 2 →
       (s.spindles[i]).preemptPending ≠ some .abandon → s.spDown i = false →
       d = (if c.trigW then { p.desc with wAddr := w.bufferIn i (h.toNat % 4096) }
            else { p.desc with aAddr := w.bufferIn i (h.toNat % 4096) }) →
       (c.trigW = false → (d.m - 1) * d.aStride + d.rowBytes ≤ h.toNat / 4096 * 256) →
       (c.trigW = true → d.shape = 3 → (d.m - 1) * d.wStride + d.rowBytes ≤ h.toNat / 4096 * 256) →
       (c.trigW = true → d.shape ≠ 3 → 0x8000 ≤ h.toNat / 4096 * 256) →
       inScratch d.aRows = true → inScratch d.wRows = true → w.bufferIn i (h.toNat % 4096) % 256 = 0 →
       isIngest i = true ∨ (∀ g ∈ groupsOf d.aRows, g ∉ groupsOf d.wRows) →
       Completes (exec (.triggerTake i) s) (fun t =>
         (c.trigW = false → (t.spindles[i]).armed = rest) ∧
         (c.trigW = true → (t.spindles[i]).armed = ((s.spindles[i]).relink p d.wAddr rest).armed) ∧
         (t.spindles[i]).passes = (s.spindles[i]).passes ++ [{ p with
           desc := d
           held := some { ring := c.trigRing, pos := p.wantPos, handle := h }
           issuedAt := if c.trigW then s.now else p.issuedAt
           blockAddr := if c.trigW then d.wAddr else p.blockAddr }] ∧
         ((t.skeins[skeinOf i]).ring c.trigRing).held = ((s.skeins[skeinOf i]).ring c.trigRing).held ++ [p.wantPos] ∧
         t = { s with spindles := t.spindles, skeins := t.skeins })))

/-- SLOW_SET, PHASE_ADVANCE and SKN_STALL_CYCLE on a skein's board.
ARBITER_GRANT changes the arbiter of its instance alone, as one grant cycle over the requesters that the instance lists; at a memory controller every
25th slot of the channel, and every slot of a migrating one while no step runs, is offered first to requester 18, which gets no other; ARB_COMMIT
makes the shadowed fields take effect.
A grant cycle (R230): without a request nobody wins and nobody waits; the winner requests; every requester but the winner that could win and lost
counts one loss more; on a fair cycle a requester that has waited at least as long as every other wins; the winner's counters are 0. -/
def Obligations.BoardsAndArbiters : Prop :=
  ((∀ (s : State) (k : Skein) (lanes : BitVec 8),
     Completes (exec (.slowSet k lanes) s) (fun t => OnlySkein k s t ∧
       t.skeins[k] = { s.skeins[k] with slow := (s.skeins[k]).slow ||| lanes })) ∧
   (∀ (s : State) (k : Skein) (at_ : Time), Clocked s → (s.skeins[k]).completeAt = some at_ →
     (s.now < at_ + 40 → exec (.phaseAdvance k) s = .next s) ∧
     (at_ + 40 ≤ s.now → Completes (exec (.phaseAdvance k) s) (fun t =>
       (t.skeins[k]).phase = (s.skeins[k]).phase + 1 ∧ (t.skeins[k]).phaseAt = s.now ∧
       (∀ l : Fin 8, (t.spindles[spindleOf k l]).seq.stall =
         if (s.spindles[spindleOf k l]).seq.stall = .next then .none else (s.spindles[spindleOf k l]).seq.stall) ∧
       (∀ i : Spindle, skeinOf i ≠ k → t.spindles[i] = s.spindles[i]) ∧
       t = { s with spindles := t.spindles, skeins := t.skeins }))) ∧
   (∀ (s : State) (lanes : List Spindle) (k : Skein), Clocked s → (∃ i ∈ lanes, s.ringWaits i = true) →
     (∀ i ∈ lanes, (s.spindles[i]).seq.atEnd = true ∨ s.ringWaits i = true) →
     (∀ i ∈ lanes, s.ringWaits i = true → (∀ w ∈ s.waitedOn i, s.closedBy lanes w = true) ∧
       (s.spindles[i]).seq.waitSince + 10 * (s.skeins[skeinOf i]).limit.toNat < s.now) →
     (∃ i ∈ lanes, skeinOf i = k) → (s.skeins[k]).stallEn = true → s.stepOpen = true → s.step.cause = 0 →
     Completes (exec (.sknStallCycle lanes) s) (fun t =>
       (t.skeins[k]).stallFault = true ∧ t.step.faulted = true ∧ t.step.cause = 0x0910 ∧
       ((s.skeins[k]).code = 0 → (t.skeins[k]).code = 0x0910)))) ∧
  ((∀ (s : State) (k : Skein) (pc : Fin 64) (req : BitVec 32), Clocked s →
     exec (.arbiterGrant (.board k) pc req) s = .next (s.modSk k (fun x => { x with arb := (x.arb.grant (req &&& 0xFF)).2 }))) ∧
   (∀ (s : State) (d : Die) (pc : Fin 64) (req : BitVec 32), Clocked s →
     exec (.arbiterGrant (.creel d) pc req) s =
       .next (s.modDie d (fun x => { x with creelArb := (x.creelArb.grant (req &&& 0x3FFFF)).2 })) ∧
     exec (.arbiterGrant (.sliver d) pc req) s =
       .next (s.modDie d (fun x => { x with sliverArb := (x.sliverArb.grant (req &&& 0x1F)).2 }))) ∧
   (∀ (s u : State) (c : Ctl) (pc slot : Fin 64) (n : Nat) (req : BitVec 32), Clocked s → slot = (match c.tier with | .hbm => pc | .ddr => 0) →
     n = (s.ctl c).slotNo[slot] + 1 → u = s.modCtl c (fun x => { x with slotNo := vmod x.slotNo slot (fun _ => n) }) →
     (n % 25 ≠ 0 ∧ (s.stepRuns = true ∨ s.migrating c = false) ∨ req.getLsbD 18 = false →
       exec (.arbiterGrant (.mem c) pc req) s = .next (u.modCtl c (fun x => { x with arb := (x.arb.grant (req &&& 0x3FFFF)).2 }))) ∧
     (n % 25 = 0 ∨ s.stepRuns = false ∧ s.migrating c = true → req.getLsbD 18 = true →
       exec (.arbiterGrant (.mem c) pc req) s = .next (u.modCtl c (fun x => { x with
         arb := { x.arb with waiting := vall x.arb.waiting (waitAfter (req &&& 0x3FFFF)) } })))) ∧
   (∀ (s : State) (a : ArbId), exec (.arbCommit a) s = .next (s.modArbiter a Arbiter.commit)) ∧
   (∀ a : Arbiter, a.backoffEn.shadow ≠ none ∨ a.fairN.shadow ≠ none →
     a.commit.g = 0 ∧ a.commit.fairN.shadow = none ∧ a.commit.backoffEn.shadow = none ∧
     a.commit.backoffEn.eff = a.backoffEn.shadow.getD a.backoffEn.eff ∧
     a.commit.fairN.eff.toNat = min 64 (max 2 (a.fairN.shadow.getD a.fairN.eff).toNat) ∧
     a.commit.loss = a.loss ∧ a.commit.waiting = a.waiting)) ∧
  (∀ (a : Arbiter) (req : BitVec 32),
     (req = 0 → (a.grant req).1 = none ∧ (a.grant req).2 = { a with waiting := (a.grant req).2.waiting } ∧
       ∀ i : Fin 32, (a.grant req).2.waiting[i] = 0) ∧
     (∀ (w : Fin 32) (b : Arbiter), a.grant req = (some w, b) →
       req.getLsbD w.val = true ∧ b.loss[w] = 0 ∧ b.backoff[w] = 0 ∧ b.waiting[w] = 0 ∧ b.last = BitVec.ofNat 5 w.val ∧
       (∀ i : Fin 32, i ≠ w → b.waiting[i] = if req.getLsbD i.val then a.waiting[i] + 1 else 0) ∧
       (∀ i : Fin 32, i ≠ w → b.loss[i] =
         if req.getLsbD i.val = true ∧ a.backoff[i] = 0 then a.loss[i] + 1 else a.loss[i]) ∧
       ((a.g + 1) % a.fairN.eff.toNat = 0 → ∀ i : Fin 32, req.getLsbD i.val = true → a.waiting[i] ≤ a.waiting[w]) ∧
       ((a.g + 1) % a.fairN.eff.toNat ≠ 0 → a.backoff[w] = 0 ∧ ∀ i : Fin 32, req.getLsbD i.val = true → a.backoff[i] = 0 →
         min 15 (a.base i + a.loss[i]) ≤ min 15 (a.base w + a.loss[w]))) ∧
     (req ≠ 0 → (a.grant req).2.g = a.g + 1))

/-- A packet arrives once: of the packets between two endpoints on a channel the oldest leaves the weft, if it is of the kind, and every other packet
stays in order (R224).
WEFT_READ_REQUEST and WEFT_WRITE at a spindle that is up: the window's bytes go back, or the bytes are stored and the write is acknowledged; the
answer travels back on the response channel, words corrected on the way count at the dies passed, and an uncorrectable one fails the step with 0x0986.
READ_RESPONSE and WRITE_ACKNOWLEDGEMENT reach the owner of their request. At another endpoint the packet travels on. -/
def Obligations.WeftPackets : Prop :=
  (∀ (s u : State) (k : PacketKind) (src dst : Endpoint) (vc : BitVec 2) (p : Packet), s.arrive k src dst vc = some (p, u) →
     ∃ before after, s.flight = before ++ p :: after ∧ u.flight = before ++ after ∧
       p.kind = k ∧ p.src = src ∧ p.dst = dst ∧ p.vc = vc ∧ s.routeUp src dst = true ∧
       (∀ q ∈ before, ¬ (q.kind ≠ .mcast ∧ q.src = src ∧ q.dst = dst ∧ q.vc = vc)) ∧
       u = { s with flight := u.flight, dies := u.dies } ∧ (vc ≠ 1 → u.dies = s.dies)) ∧
  ((∀ (s u : State) (i : Spindle) (src dst : Endpoint) (vc : BitVec 2) (way : Transit) (p : Packet) (j : Spindle) (o : Nat),
     spindleAt dst = some i → s.arrive .readReq src dst vc = some (p, u) → u.spDown i = false → u.decodeAddr p.addr = .spindle j o →
     (way.bad = false → Completes (exec (.weftReadRequest src dst vc way) s) (fun t =>
       t.spindles = s.spindles ∧ t.mem = s.mem ∧ t.fresh = s.fresh + p.bytes ∧
       (∀ d : Die, (t.dies[d]).corr = if onRoute src dst d then satAdd 32 (s.dies[d]).corr (way.fixed[d]).toNat else (s.dies[d]).corr) ∧
       t.flight = u.flight ++ [{ kind := .readResp, src := dst, dst := src, vc := 2, owner := p.owner, tag := p.tag, addr := p.addr
                                 bytes := p.bytes, data := (u.spindles[i]).readBytes u.fresh o p.bytes
                                 status := if (u.spindles[i]).bad o p.bytes then 0x0401 else 0
                                 poison := (u.spindles[i]).bad o p.bytes, sentAt := s.now }])) ∧
     (way.bad = true → s.stepOpen = true → s.step.cause = 0 → Completes (exec (.weftReadRequest src dst vc way) s) (fun t =>
       t.step.faulted = true ∧ t.step.cause = 0x0986 ∧ (t.dies[dst.die]).poison = true ∧ t.mem = s.mem))) ∧
   (∀ (s u : State) (i : Spindle) (src dst : Endpoint) (vc : BitVec 2) (way : Transit) (p : Packet) (j : Spindle) (o : Nat),
     spindleAt dst = some i → s.arrive .write src dst vc = some (p, u) → u.spDown i = false → u.decodeAddr p.addr = .spindle j o →
     (u.spindles[i]).protects o p.data.length = false →
     (p.poison = false → way.bad = false → Completes (exec (.weftWrite src dst vc way) s) (fun t =>
       t.spindles[i] = ((u.spindles[i]).putBytes o p.data).noteBad o p.data.length false ∧
       (∀ k : Spindle, k ≠ i → t.spindles[k] = s.spindles[k]) ∧ t.mem = s.mem ∧ t.step = s.step ∧
       t.flight = u.flight ++ [{ kind := .writeAck, src := dst, dst := src, vc := 2, owner := p.owner, tag := p.tag, addr := p.addr
                                 bytes := p.bytes, data := [], status := 0, poison := false, sentAt := s.now }])) ∧
     (p.poison = true ∨ way.bad = true → s.stepOpen = true → s.step.cause = 0 → Completes (exec (.weftWrite src dst vc way) s) (fun t =>
       t.step.faulted = true ∧ t.step.cause = 0x0986 ∧ (t.dies[dst.die]).poison = true ∧ t.mem = s.mem))) ∧
   (∀ (s : State) (src dst : Endpoint) (vc : BitVec 2) (way : Transit), spindleAt dst = none →
     exec (.weftReadRequest src dst vc way) s = .next (s.markWay src dst vc way) ∧
     exec (.weftWrite src dst vc way) s = .next (s.markWay src dst vc way)) ∧
   (∀ (s u : State) (src dst : Endpoint) (vc : BitVec 2) (way : Transit) (p : Packet),
     (s.arrive .readResp src dst vc = some (p, u) →
       exec (.readResponse src dst vc way) s = .next (if (sliceAt dst).isSome then s.markWay src dst vc way
         else (u.wayRecords p way).deliverRead { p with poison := p.poison || way.bad })) ∧
     (s.arrive .writeAck src dst vc = some (p, u) →
       exec (.writeAcknowledgement src dst vc way) s = .next ((u.wayRecords p way).deliverAck p))) ∧
   (∀ (s : State) (p : Packet) (e : Fin 16), p.owner = .fabric → fabricAtEp p.dst = some e →
     ((s.fabric[p.dst.die]).eps[e]).outstanding.any (fun o => o.tag == BitVec.ofNat 12 p.tag) = true →
     ((s.deliverRead p).fabric[p.dst.die].eps[e]).answers =
       ((s.fabric[p.dst.die]).eps[e]).answers ++ [(BitVec.ofNat 12 p.tag, p.status, p.data)] ∧
     ((s.deliverAck p).fabric[p.dst.die].eps[e]).answers =
       ((s.fabric[p.dst.die]).eps[e]).answers ++ [(BitVec.ofNat 12 p.tag, p.status, [])]))

/-- MULTICAST_WRITE to a group of one receiver whose way is open stores the packet there and acknowledges it; to an empty group it answers 0x0985.
MCAST_BRANCH_TIMEOUT prunes the output after 512 sc, whose receivers are torn, and fails the step.
FENCE_REQUEST, FENCE_DRAIN_COMPLETE, WFT_FENCE_TIMEOUT and FENCE_RELEASE of a Basez endpoint: the drain starts, ends fenced once nothing is owed or,
past the limit, with every request answered 0x0982, and a release takes effect 4 sc later. -/
def Obligations.MulticastAndFences : Prop :=
  ((∀ (s u : State) (src : Endpoint) (way : Transit) (blocked : List McOut) (p : Packet), Clocked s → s.streams = [] →
     s.takePacket (fun q => q.kind == .mcast && q.src == src) = some (p, u) →
     (if h : p.group < 64 then (s.dies[src.die]).mcast[p.group] else 0) = 0 →
     exec (.multicastWrite src way blocked) s = .next ((u.countCorr (fun _ => true) way).send (p.answer .writeAck 0x0985 [] false))) ∧
   (∀ (s u : State) (src : Endpoint) (way : Transit) (p : Packet) (i : Spindle) (h : p.group < 64), Clocked s → s.streams = [] →
     s.takePacket (fun q => q.kind == .mcast && q.src == src) = some (p, u) →
     (s.dies[src.die]).mcast[p.group] = 1#128 <<< i.val → (∀ e : Fin 4, .edge e ∈ dieRoute src.die (dieOf i) → (s.edges[e]).up = true) →
     s.spDown i = false → p.poison = false → way.bad = false → p.last = false → (s.spindles[i]).protects p.addr p.data.length = false →
     Completes (exec (.multicastWrite src way []) s) (fun t =>
       t.spindles[i] = ((s.spindles[i]).putBytes p.addr p.data).noteBad p.addr p.data.length false ∧
       (∀ k : Spindle, k ≠ i → t.spindles[k] = s.spindles[k]) ∧ t.mem = s.mem ∧ t.step = s.step ∧
       t.flight = u.flight ++ [{ p.answer .writeAck 0 [] false with sentAt := s.now }])) ∧
   (∀ (s : State) (src : Endpoint) (stream : BitVec 8) (b : McOut) (st : McStream) (at_ : Time), Clocked s →
     s.streams.find? (fun x => x.src == src && x.stream == stream.toNat) = some st → (st.branch b).since = some at_ →
     (s.now < at_ + 5120 → exec (.mcastBranchTimeout src stream b) s = .next s) ∧
     (at_ + 5120 ≤ s.now → s.stepOpen = true → s.step.cause = 0 →
       Completes (exec (.mcastBranchTimeout src stream b) s) (fun t =>
         t.step.faulted = true ∧ t.step.cause = 0x0984 ∧ (t.dies[outDie b src.die]).torn = true ∧
         (∀ x ∈ t.streams, x.src = src → x.stream = stream.toNat → (x.branch b).pruned = true ∧ (x.branch b).skid = [] ∧
           ∀ i ∈ s.below st b, x.torn.getLsbD i.val = true))))) ∧
  (∀ (s : State) (d : Die) (e : Fin 16),
     ((s.dies[d]).basez.getLsbD e.val = true → (s.dies[d]).fenced.getLsbD e.val = false → (s.dies[d]).draining.getLsbD e.val = false →
       Completes (exec (.fenceRequest d e) s) (fun t =>
         (t.dies[d]).draining = (s.dies[d]).draining ||| (1#16 <<< e.val) ∧ (t.dies[d]).fenceAt[e] = s.now ∧
         (t.dies[d]).fenced = (s.dies[d]).fenced ∧ t = { s with dies := t.dies })) ∧
     (Clocked s → (s.dies[d]).draining.getLsbD e.val = true → ((s.fabric[d]).eps[e]).inFlight = [] →
       ((s.fabric[d]).eps[e]).outstanding = [] → (s.dies[d]).releaseHeld.getLsbD e.val = false →
       ((s.fabric[d]).regions[e]).switching = none →
       Completes (exec (.fenceDrainComplete d e) s) (fun t =>
         (t.dies[d]).fenced.getLsbD e.val = true ∧ (t.dies[d]).draining.getLsbD e.val = false ∧ t = { s with dies := t.dies })) ∧
     (Clocked s → (s.dies[d]).draining.getLsbD e.val = true →
       (s.dies[d]).fenceAt[e] + 10 * (s.dies[d]).fenceLimit.toNat < s.now →
       (s.dies[d]).releaseHeld.getLsbD e.val = false → ((s.fabric[d]).regions[e]).switching = none →
       Completes (exec (.wftFenceTimeout d e) s) (fun t =>
         (t.dies[d]).fenced.getLsbD e.val = true ∧ (t.dies[d]).fenceTimeout = true ∧
         ((t.fabric[d]).eps[e]).inFlight = [] ∧ ((t.fabric[d]).eps[e]).outstanding = [] ∧ t.flt.lastFault = 0x0983 ∧
         (∀ q ∈ ((s.fabric[d]).eps[e]).inFlight, q.pkt.kind = .readReq →
           { q.pkt.answer .readResp 0x0982 [] false with sentAt := s.now } ∈ t.flight))) ∧
     ((s.dies[d]).draining.getLsbD e.val = false → (s.dies[d]).fenced.getLsbD e.val = true →
       Completes (exec (.fenceRelease d e) s) (fun t =>
         (t.dies[d]).fenced.getLsbD e.val = false ∧ (t.dies[d]).acceptAt[e] = s.now + 40 ∧ t = { s with dies := t.dies })) ∧
     ((s.dies[d]).draining.getLsbD e.val = true →
       Completes (exec (.fenceRelease d e) s) (fun t =>
         (t.dies[d]).releaseHeld.getLsbD e.val = true ∧ (t.dies[d]).draining.getLsbD e.val = true ∧ t = { s with dies := t.dies })))

/-- CREEL_READ of one line: a hit answers with the line's bytes and touches memory nowhere, and counts an error that its code corrects; a line with an
uncorrectable error is dropped and fetched again; a miss starts one fetch and waits; with the creel off the read goes on to its controller.
CREEL_LINE_FILL allocates the line and answers the reads that wait for it.
CREEL_INVALIDATE drops the line at its home slice and counts one acknowledgement less to wait for; CREEL_EMPTY_REQUEST drops every line of the die's
creel, and CREEL_EMPTY_COMPLETE ends the bypassing. -/
def Obligations.CreelCommands : Prop :=
  (∀ (s u : State) (src dst : Endpoint) (vc : BitVec 2) (p : Packet) (x : Fin 8), sliceAt dst = some x →
     (∀ ecc : Ecc, s.arrive .readReq src dst vc = some (p, u) → (s.dies[dst.die]).creelEn = false ∨ (s.dies[dst.die]).emptying ≠ none ∨
         s.creelClass dst.die p.addr = 0 →
       exec (.creelRead src dst vc ecc) s = .next (u.bypass p)) ∧
     (∀ (n : Nat) (l : CreelLine) (ecc : Ecc), s.arrive .readReq src dst vc = some (p, u) → (s.dies[dst.die]).creelEn = true →
       (s.dies[dst.die]).emptying = none → s.creelClass dst.die p.addr ≠ 0 → linesOf p.addr p.bytes = [n] →
       ((s.dies[dst.die]).slices[homeSlice n]).lines.find? (fun y => y.n == n) = some l →
       (ecc ≠ .uncorrectable → Completes (exec (.creelRead src dst vc ecc) s) (fun t =>
         t.flight = u.flight ++ [{ p.answer .readResp 0 ((l.data.drop (p.addr % 256)).take p.bytes) false with sentAt := s.now }] ∧
         (t.dies[dst.die]).hits = satAdd 32 (s.dies[dst.die]).hits 1 ∧ (t.dies[dst.die]).misses = (s.dies[dst.die]).misses ∧
         (t.dies[dst.die]).crlCorr = (if ecc = .corrected then satAdd 32 (s.dies[dst.die]).crlCorr 1 else (s.dies[dst.die]).crlCorr) ∧
         (t.dies[dst.die]).crlUncorr = (s.dies[dst.die]).crlUncorr ∧ t = { s with flight := t.flight, dies := t.dies })) ∧
       (((s.dies[dst.die]).slices[homeSlice n]).fetches.find? (fun f => f.n == n && !f.stale) = none →
         ((s.dies[dst.die]).slices[homeSlice n]).fetches.length < 64 →
         Completes (exec (.creelRead src dst vc .uncorrectable) s) (fun t =>
           (t.dies[dst.die]).crlUncorr = satAdd 32 (s.dies[dst.die]).crlUncorr 1 ∧
           (t.dies[dst.die]).misses = satAdd 32 (s.dies[dst.die]).misses 1 ∧
           (∀ y ∈ ((t.dies[dst.die]).slices[homeSlice n]).lines, y.n ≠ n) ∧
           (∃ f, ((t.dies[dst.die]).slices[homeSlice n]).fetches = ((s.dies[dst.die]).slices[homeSlice n]).fetches ++ [f] ∧ f.n = n) ∧
           t.mem = s.mem ∧ t.poison = s.poison ∧ t.step = s.step))) ∧
     (∀ (n : Nat) (ecc : Ecc), s.arrive .readReq src dst vc = some (p, u) → (s.dies[dst.die]).creelEn = true →
       (s.dies[dst.die]).emptying = none → s.creelClass dst.die p.addr ≠ 0 → linesOf p.addr p.bytes = [n] →
       ((s.dies[dst.die]).slices[homeSlice n]).lines.find? (fun y => y.n == n) = none →
       ((s.dies[dst.die]).slices[homeSlice n]).fetches.find? (fun f => f.n == n && !f.stale) = none →
       ((s.dies[dst.die]).slices[homeSlice n]).fetches.length < 64 →
       Completes (exec (.creelRead src dst vc ecc) s) (fun t =>
         (t.dies[dst.die]).misses = satAdd 32 (s.dies[dst.die]).misses 1 ∧
         (∃ f, ((t.dies[dst.die]).slices[homeSlice n]).fetches = ((s.dies[dst.die]).slices[homeSlice n]).fetches ++ [f] ∧ f.n = n ∧
           f.stale = false) ∧
         (t.dies[dst.die]).waits.length = (s.dies[dst.die]).waits.length + 1 ∧ t.mem = s.mem)) ∧
     (∀ (f : CreelFetch) (rest : List CreelFetch), s.takePacket (fun q => q.kind == .readResp && q.src == src && q.dst == dst) = some (p, u) →
       takeFirst (fun (f : CreelFetch) => f.id == p.tag) ((s.dies[dst.die]).slices[x]).fetches = some (f, rest) →
       f.allocate = true → f.stale = false → p.status = 0 → p.poison = false →
       (∀ l ∈ ((s.dies[dst.die]).slices[x]).lines, l.n ≠ f.n) →
       Completes (exec (.creelLineFill src dst) s) (fun t =>
         ((t.dies[dst.die]).slices[x]).fetches = rest ∧
         (∃ l ∈ ((t.dies[dst.die]).slices[x]).lines, l.n = f.n ∧ l.data = p.data) ∧
         (∀ w ∈ (t.dies[dst.die]).waits, (f.n, f.id) ∉ w.need) ∧ t = { s with flight := t.flight, dies := t.dies }))) ∧
  ((∀ (s u : State) (src dst : Endpoint) (p : Packet) (x : Fin 8) (c : Ctl), sliceAt dst = some x → ctlAt src = some c →
     s.arrive .inval src dst 1 = some (p, u) →
     Completes (exec (.creelInvalidate src dst) s) (fun t =>
       ((t.dies[dst.die]).slices[homeSlice (p.addr / 256)]).lines =
         ((s.dies[dst.die]).slices[homeSlice (p.addr / 256)]).lines.filter (fun l => l.n != p.addr / 256) ∧
       (∀ f ∈ ((t.dies[dst.die]).slices[homeSlice (p.addr / 256)]).fetches, f.n = p.addr / 256 → f.stale = true) ∧
       (∀ o ∈ (t.ctl c).owed, o.id = p.tag → ∃ q ∈ (s.ctl c).owed, q.id = p.tag ∧ o.left + 1 = q.left) ∧
       (∀ o ∈ (s.ctl c).owed, o.id = p.tag → o.left = 1 → { o.ack with sentAt := s.now } ∈ t.flight) ∧ t.mem = s.mem)) ∧
   (∀ (s : State) (d : Die), Completes (exec (.creelEmptyRequest d) s) (fun t =>
     (∀ x : Fin 8, ((t.dies[d]).slices[x]).lines = []) ∧ (t.dies[d]).emptying = some s.now ∧ t = { s with dies := t.dies } ∧
     ∀ e : Die, e ≠ d → t.dies[e] = s.dies[e])) ∧
   (∀ (s : State) (d : Die), Clocked s →
     exec (.creelEmptyComplete d) s = .next (s.modDie d (fun x => { x with emptying := none }))))

/-- MEM_READ and MEM_WRITE at a controller whose channel is on: the read enters the queue with the bytes that the writes before it left; the write changes
the bytes it covers and no other, and is acknowledged at once where no creel window covers it; it waits behind a copy or an earlier write of one of
its lines, and a locked rank refuses it.
MEM_READ_COMPLETE: the data come back, poisoned and with a code exactly when some line is poisoned or has an uncorrectable error; of a read of one
line, a corrected error is counted, a poisoned line answers 0x0402, and an uncorrectable error poisons the line, is counted and latched, and answers
0x0401. MEM_MIGRATING answers 0x0405 after 1,024 sc and does not perform its access. -/
def Obligations.MemoryAccesses : Prop :=
  (∀ (s u : State) (src dst : Endpoint) (vc : BitVec 2) (p : Packet) (c : Ctl) (pc loc : Nat) (r : Fin 4) (q : MemReq), ctlAt dst = some c →
     s.ctlPlace c p.addr = some (pc, r, loc) → s.placeStatus c pc r = 0 →
     q = { pkt := p, r := r, pc := queueOf c.tier pc p.addr, arrived := s.now } →
     (s.arrive .readReq src dst vc = some (p, u) →
       Completes (exec (.memRead src dst vc) s) (fun t =>
         (t.ctl c).queue = (s.ctl c).queue ++ [{ q with data := s.memRead p.addr p.bytes }] ∧
         t.mem = s.mem ∧ t.poison = s.poison ∧ t.flight = u.flight)) ∧
     (s.arrive .write src dst vc = some (p, u) →
       (Canonical s → s.waitsCopy q = none → behindWrite (s.ctl c).queue q = false → s.rankState c.tier (s.server c.tier ⟨c.n, r⟩) ≠ 4 →
         Completes (exec (.memWrite src dst vc) s) (fun t =>
           (∀ i, i < p.data.length → Cells.get memDefault t.mem (p.addr + i) = p.data.getD i 0) ∧
           (∀ a, a < p.addr ∨ p.addr + p.data.length ≤ a → SameByte s t a) ∧
           (p.poison = true → ∀ l ∈ linesOf p.addr p.data.length, l ∈ t.poison) ∧
           (∀ l, l ∉ linesOf p.addr p.data.length → (l ∈ t.poison ↔ l ∈ s.poison)) ∧
           ((∀ l ∈ linesOf p.addr p.bytes, s.creelClass (ctlDie c) (256 * l) = 0) →
             ∃ code, t.flight = u.flight ++ [{ p.answer .writeAck code [] false with sentAt := s.now }] ∧
               ((∀ l ∈ linesOf p.addr p.data.length, l ∉ s.poison) → code = 0)))) ∧
       (s.waitsCopy q ≠ none ∨ behindWrite (s.ctl c).queue q = true →
         Completes (exec (.memWrite src dst vc) s) (fun t => (t.ctl c).queue = (s.ctl c).queue ++ [q] ∧ t.mem = s.mem ∧
           t.poison = s.poison ∧ t.flight = u.flight)) ∧
       (s.waitsCopy q = none → behindWrite (s.ctl c).queue q = false → s.rankState c.tier (s.server c.tier ⟨c.n, r⟩) = 4 →
         Completes (exec (.memWrite src dst vc) s) (fun t => t.mem = s.mem ∧ t.poison = s.poison ∧
           t.flight = u.flight ++ [{ p.answer .writeAck 0x0404 [] false with sentAt := s.now }])))) ∧
  (∀ (s : State) (c g : Ctl) (i : Nat) (q : MemReq), Clocked s → (s.ctl c).queue[i]? = some q →
     g = ⟨c.tier, (s.server c.tier ⟨c.n, q.r⟩).n⟩ →
     (∀ found : List Ecc, q.pkt.kind = .readReq → s.waitsCopy q = none → behindWrite ((s.ctl c).queue.take i) q = false → s.awake c q = true →
       Completes (exec (.memReadComplete c i found) s) (fun t => t.mem = s.mem ∧
         (t.ctl c).queue = (s.ctl c).queue.eraseIdx i ∧
         (∃ code, t.flight = s.flight ++ [{ q.pkt.answer .readResp code q.data (code != 0) with sentAt := s.now }] ∧
           (code = 0 ↔ ∀ l ∈ (linesOf q.pkt.addr q.pkt.bytes).zipIdx, l.1 ∉ s.poison ∧ found[l.2]?.getD .clean ≠ .uncorrectable)) ∧
         (∀ n : Nat, linesOf q.pkt.addr q.pkt.bytes = [n] →
           (n ∈ s.poison → t.poison = s.poison ∧
             t.flight = s.flight ++ [{ q.pkt.answer .readResp 0x0402 q.data true with sentAt := s.now }]) ∧
           (n ∉ s.poison → found[0]?.getD .clean = .clean → t.poison = s.poison ∧ (t.ctl g).corr = (s.ctl g).corr) ∧
           (n ∉ s.poison → found[0]? = some .corrected → t.poison = s.poison ∧ (t.ctl g).corr = satAdd 32 (s.ctl g).corr 1) ∧
           (n ∉ s.poison → found[0]? = some .uncorrectable → t.poison = poisonLine n s.poison ∧
             (t.ctl g).uncorr = satAdd 32 (s.ctl g).uncorr 1 ∧ (t.ctl g).errValid = true ∧
             ((s.ctl g).errValid = false → (t.ctl g).errAddr = BitVec.ofNat 48 (256 * n) ∧ (t.ctl g).errKind = 0) ∧
             t.flight = s.flight ++ [{ q.pkt.answer .readResp 0x0401 q.data true with sentAt := s.now }])))) ∧
     (∀ at_ : Time, s.waitsCopy q = some at_ →
       (s.now ≤ at_ + 10240 → exec (.memMigrating c i) s = .next s) ∧
       (at_ + 10240 < s.now → Completes (exec (.memMigrating c i) s) (fun t =>
         (∃ more, t.flight = s.flight ++ [{ q.pkt.answer (if q.pkt.kind == .readReq then .readResp else .writeAck) 0x0405 [] false with
           sentAt := s.now }] ++ more) ∧
         (t.ctl c).queue.length < (s.ctl c).queue.length ∧
         ((s.ctl c).queue = [q] → (t.ctl c).queue = [] ∧ t.mem = s.mem ∧ t.poison = s.poison)))))

/-- REFRESH, SELF_REFRESH_ENTRY, SELF_REFRESH_EXIT, SCRUB and COMMAND_PARITY_ERROR of a controller.
RETIREMENT_REQUEST reserves the lowest-numbered free spare, or locks the rank; MIGRATION_START makes the rank retiring and its spare the target;
LINE_COPY advances its channel by one line, poisoning what it could not read, and gives up a target that fails; MIGRATION_COMPLETE, once every channel
is copied, retires the source and puts the target in its place. -/
def Obligations.MemoryUpkeep : Prop :=
  (∀ (s : State) (c : Ctl), Clocked s →
     (∀ (pc : Fin 64) (bank : Nat), (s.ctl c).inSr.getLsbD pc.val = false →
       exec (.refresh c pc bank) s = .next ((s.cmdDone c pc.val).modCtl c (fun x => { x with
         refreshes := vmod x.refreshes pc (· + 1), refBank := vmod x.refBank pc (fun _ => bank) }))) ∧
     (∀ pc : Fin 64, c.tier = .hbm → s.idleEligible c pc.val = true → (s.ctl c).srEn = true →
       (s.ctl c).idleClocks.toNat * s.clockPeriod c ≤ 1000 * (s.now - (s.ctl c).lastCmd[pc]) →
       exec (.selfRefreshEntry c pc) s = .next (s.modCtl c (fun x => { x with inSr := x.inSr ||| (1#64 <<< pc.val) }))) ∧
     (∀ pc : Fin 64, c.tier = .ddr → s.idleEligible c pc.val = true → (s.ctl c).srEn = true →
       (s.ctl c).idleClocks.toNat * s.clockPeriod c ≤ 1000 * (s.now - (s.ctl c).lastCmd[0]) →
       exec (.selfRefreshEntry c pc) s = .next (s.modCtl c (fun x => { x with inSr := x.inSr ||| 1 }))) ∧
     (∀ pc : Fin 64, c.tier = .hbm → (s.ctl c).inSr.getLsbD pc.val = true →
       exec (.selfRefreshExit c pc) s = .next (s.modCtl c (fun x => { x with
         inSr := x.inSr &&& ~~~(1#64 <<< pc.val), wakeAt := vmod x.wakeAt pc (fun _ => s.now + 6800)
         lastCmd := vmod x.lastCmd pc (fun _ => s.now) }))) ∧
     (∀ pc : Fin 64, c.tier = .ddr → (s.ctl c).inSr.getLsbD 0 = true →
       exec (.selfRefreshExit c pc) s = .next (s.modCtl c (fun x => { x with
         inSr := x.inSr &&& ~~~1, wakeAt := vmod x.wakeAt 0 (fun _ => s.now + 20400)
         lastCmd := vmod x.lastCmd 0 (fun _ => s.now) }))) ∧
     (∀ (rank : Fin 4) (pc : Fin 64) (line : Nat) (u : State), line < s.rankLines c.tier c.n → srIndex c.tier pc.val = pc →
       u = (s.wake c pc.val).cmdDone c pc.val →
       (scrubbed (s.rankState c.tier ⟨c.n, rank⟩) = true →
         exec (.scrub c rank pc line .clean) s = .next (if s.lastScrubbed c rank pc.val line then
           u.modCtl c (fun x => { x with scrubs := satAdd 16 x.scrubs 1 }) else u) ∧
         (s.lastScrubbed c rank pc.val line = false →
           exec (.scrub c rank pc line .corrected) s = .next (u.modCtl c (fun x => { x with corr := satAdd 32 x.corr 1 })))) ∧
       (∀ a : Nat, s.rankState c.tier ⟨c.n, rank⟩ = 0 → s.physAddr c.tier ⟨c.n, rank⟩ pc.val (256 * line) = some a →
         Completes (exec (.scrub c rank pc line .uncorrectable) s) (fun t => t.poison = poisonLine (a / 256) s.poison ∧
           t.mem = s.mem ∧ (t.ctl c).uncorr = satAdd 32 (s.ctl c).uncorr 1)) ∧
       (s.rankState c.tier ⟨c.n, rank⟩ = 1 → (∀ w ∈ (s.tier c.tier).waiting, w.1 ≠ ⟨c.n, rank⟩) →
         Completes (exec (.scrub c rank pc line .uncorrectable) s) (fun t => t.rankState c.tier ⟨c.n, rank⟩ = 6 ∧ t.poison = s.poison ∧
           t.mem = s.mem ∧ (t.ctl c).uncorr = satAdd 32 (s.ctl c).uncorr 1))) ∧
     (∀ (rank : Fin 4) (pc : Fin 64), (s.ctl c).retry = none →
       exec (.commandParityError c rank pc) s = .next (s.modCtl c (fun x => { x with
         cmdRetry := satAdd 32 x.cmdRetry 1, retry := some { r := rank, pc := pc.val, tries := 1 } }))) ∧
     (∀ (rank : Fin 4) (pc : Fin 64), (s.ctl c).retry = some { r := rank, pc := pc.val, tries := 2 } → (s.ctl c).code = 0 →
       Completes (exec (.commandParityError c rank pc) s) (fun t =>
         (t.ctl c).cmdErr = true ∧ (t.ctl c).retry = none ∧ (t.ctl c).code = 0x0407 ∧ (t.ctl c).errValid = true ∧
         ((s.ctl c).errValid = false → (t.ctl c).errKind = 1)))) ∧
  (∀ (s : State) (t : Tier),
     (∀ (n : Fin 12) (r : Fin 4), s.rankState t ⟨n, r⟩ = 0 → (s.tier t).waiting.any (fun w => w.1 == ⟨n, r⟩) = false →
       (∀ y : RankId, s.pickSpare t ⟨n, r⟩ = some y →
         Completes (exec (.retirementRequest ⟨t, n⟩ r) s) (fun u =>
           (u.tier t).waiting = (s.tier t).waiting ++ [(⟨n, r⟩, some y)] ∧ u.flt.lastFault = 0x0403 ∧ u.mem = s.mem ∧
           u.rankState t ⟨n, r⟩ = 0)) ∧
       (s.pickSpare t ⟨n, r⟩ = none →
         Completes (exec (.retirementRequest ⟨t, n⟩ r) s) (fun u =>
           (u.tier t).waiting = (s.tier t).waiting ++ [(⟨n, r⟩, none)] ∧ u.flt.lastFault = 0x0406 ∧
           u.rankState t ⟨n, r⟩ = 4))) ∧
     (∀ (x y : RankId), Clocked s → (s.tier t).mig = none → (s.tier t).waiting.find? (fun w => w.2.isSome) = some (x, some y) → x ≠ y →
       Completes (exec (.migrationStart t) s) (fun u =>
         u.rankState t x = 2 ∧ u.rankState t y = 5 ∧
         (∃ m, (u.tier t).mig = some m ∧ m.src = x ∧ m.tgt = y ∧ m.lines = s.rankLines t x.n ∧ m.line = Vector.replicate 64 0 ∧
           ∀ i : Fin 64, m.since[i] = if t = .hbm ∨ i = 0 then some s.now else none) ∧
         (u.tier t).waiting = (s.tier t).waiting.filter (fun w => w.1 != x) ∧ (u.ctl ⟨t, x.n⟩).migLines = 0 ∧ u.mem = s.mem)) ∧
     (∀ (m : Migration) (pc : Fin 64), Clocked s → (s.tier t).mig = some m → m.line[pc] < m.lines → srIndex t pc.val = pc →
       ((∀ a ∈ s.physAddr t m.src pc.val (256 * m.line[pc]), a / 256 ∉ s.poison) →
         Completes (exec (.lineCopy t pc .clean .clean) s) (fun u =>
           (∃ m', (u.tier t).mig = some m' ∧ m'.src = m.src ∧ m'.tgt = m.tgt ∧ m'.line[pc] = m.line[pc] + 1 ∧
             m'.since[pc] = (if m.line[pc] + 1 < m.lines then some s.now else none) ∧
             ∀ i : Fin 64, i ≠ pc → m'.line[i] = m.line[i] ∧ m'.since[i] = m.since[i]) ∧
           (u.ctl ⟨t, m.src.n⟩).migLines = satAdd 32 (s.ctl ⟨t, m.src.n⟩).migLines 1 ∧
           (u.ctl ⟨t, m.src.n⟩).migPoisoned = (s.ctl ⟨t, m.src.n⟩).migPoisoned ∧
           ((∀ n : Fin 12, (s.ctl ⟨t, n⟩).queue = []) → u.mem = s.mem ∧ u.poison = s.poison))) ∧
       (∀ a : Nat, s.physAddr t m.src pc.val (256 * m.line[pc]) = some a → (∀ n : Fin 12, (s.ctl ⟨t, n⟩).queue = []) →
         Completes (exec (.lineCopy t pc .uncorrectable .clean) s) (fun u =>
           u.poison = poisonLine (a / 256) s.poison ∧ u.mem = s.mem ∧
           (u.ctl ⟨t, m.src.n⟩).migPoisoned = satAdd 32 (s.ctl ⟨t, m.src.n⟩).migPoisoned 1 ∧
           (u.ctl ⟨t, m.src.n⟩).uncorr = satAdd 32 (s.ctl ⟨t, m.src.n⟩).uncorr 1)) ∧
       (m.src ≠ m.tgt → Completes (exec (.lineCopy t pc .clean .uncorrectable) s) (fun u => u.rankState t m.tgt = 6 ∧
         (∀ y : RankId, (s.setRank t m.tgt 6).pickSpare t m.src = some y → u.rankState t y = 5 ∧ u.flt.lastFault = 0x0403 ∧
           (u.tier t).mig.map (fun x => (x.src, x.tgt, x.line)) = some (m.src, y, Vector.replicate 64 0)) ∧
         ((s.setRank t m.tgt 6).pickSpare t m.src = none → (s.tier t).poolPending = false →
           u.rankState t m.src = 4 ∧ u.flt.lastFault = 0x0406 ∧ (u.tier t).mig = none)))) ∧
     (∀ m : Migration, Clocked s → (s.tier t).mig = some m → (∀ i : Fin 64, srIndex t i.val = i → m.lines ≤ m.line[i]) →
       (s.tier t).poolPending = false → m.src ≠ m.tgt →
       Completes (exec (.migrationComplete t) s) (fun u =>
         u.rankState t m.src = 3 ∧ u.rankState t m.tgt = 0 ∧ (u.tier t).mig = none ∧ u.mem = s.mem ∧
         ((u.ctl ⟨t, m.src.n⟩).remap >>> (8 * m.src.r.val)).toNat % 256 = m.tgt.n.val + 16 * m.tgt.r.val + 128)))

/-- DMA_REQUEST_ISSUE: with a unit landed, its write goes out to the resolved destination with the landed bytes; else an index read as far as the prefetch
allows, or the next read, goes out to the resolved source. A request that no grant covers is not sent and halts the channel.
DMA_POP_FILL, DMA_LIST_COMPLETE and DMA_RESUME: a popped handle becomes the descriptor's source; two cycles after its last descriptor the list ends
and the next one starts; a list that failed waits and resumes from its resume point, or past the retry limit halts for good. -/
def Obligations.DmaCommands : Prop :=
  (∀ (s : State) (c : Chan) (r : DmaRun) (d : DmaDesc), Clocked s → (s.chan c).run = some r → (s.chan c).halted = false →
     (s.chan c).halting = false → (s.chan c).doneAt = none → (s.chan c).failing = none →
     r.acceptedAt + 40 ≤ s.now → (s.chan c).disable = false ∨ r.atBoundary = false →
     (s.skeins[chanSkein c]).runDesc r = some d → d.pop = false ∨ r.popped ≠ none →
     (∀ (data : List Byte) (a : Nat) (e : Endpoint), d.kind ≠ 3 → d.kind ≠ 4 → r.wUnit < d.units →
       (s.chan c).stopping = false ∨ r.wUnit < (s.chan c).stopAt → (s.chan c).writes.length < 64 →
       r.writeData d r.wUnit r.wPiece = some data →
       s.resolve (r.spindle (chanSkein c)) d.dstSpace d.dstRegion (d.writeAddr ((r.index d r.wUnit).getD 0) r.wUnit r.wPiece) data.length = some a →
       s.granted true d.dstSpace a data.length = true → (s.decodeAddr a).endpoint = some e →
       Completes (exec (.dmaRequestIssue c) s) (fun t => t.mem = s.mem ∧ t.spindles = s.spindles ∧
         ∃ p, t.flight = s.flight ++ [p] ∧ p.kind = .write ∧ p.src = dmaEndpoint (chanSkein c) ∧ p.dst = e ∧ p.addr = a ∧
           p.data = data ∧ p.owner = .chan c ∧ p.sentAt = s.now)) ∧
     (r.unit < d.units → (s.chan c).stopping = false ∨ r.unit < (s.chan c).stopAt →
       (¬ r.wUnit < d.units) ∨ 64 ≤ (s.chan c).writes.length ∨ r.writeData d r.wUnit r.wPiece = none →
       (s.dies[dieOfSkein (chanSkein c)]).creelEn = false →
       (∀ (a : Nat) (e : Endpoint), d.kind = 0 ∨ d.kind = 1 → ((s.chan c).reads.filter (fun q => q.use != .index)).length < 64 →
         s.resolve (r.spindle (chanSkein c)) d.srcSpace d.srcRegion
           (d.readAddr ((r.index d (d.elemAt r.unit r.elem)).getD 0) r.unit r.piece) (d.pieceLen r.piece) = some a →
         (s.granted false d.srcSpace a (d.pieceLen r.piece) = true → (s.decodeAddr a).endpoint = some e →
           Completes (exec (.dmaRequestIssue c) s) (fun t => t.mem = s.mem ∧
             (t.chan c).run = some (r.afterRead d) ∧ (t.chan c).nextTag = (s.chan c).nextTag + 1 ∧
             ∃ p, t.flight = s.flight ++ [p] ∧ p.kind = .readReq ∧ p.src = dmaEndpoint (chanSkein c) ∧ p.dst = e ∧ p.addr = a ∧
               p.bytes = d.pieceLen r.piece ∧ p.tag = (s.chan c).nextTag ∧ p.owner = .chan c ∧ p.sentAt = s.now)) ∧
         (s.granted false d.srcSpace a (d.pieceLen r.piece) = false →
           Completes (exec (.dmaRequestIssue c) s) (fun t => t.flight = s.flight ∧ t.mem = s.mem ∧
             ((s.chan c).reads = [] → (s.chan c).writes = [] → (s.chan c).retryAt = none →
               (t.chan c).halted = true ∧ (t.chan c).code = 0x0481 ∧ (s.stepOpen = true → s.step.cause = 0 → t.step.cause = 0x0481))))) ∧
       (∀ (a n : Nat) (e : Endpoint), d.kind = 2 → r.idxAsked < r.indexLimit d → n = min 256 (d.idxCount * d.idxBytes - 256 * r.idxAsked) →
         s.resolve (r.spindle (chanSkein c)) d.idxSpace d.idxRegion (d.idxAddr + 256 * r.idxAsked) n = some a →
         s.granted false d.idxSpace a n = true → (s.decodeAddr a).endpoint = some e →
         Completes (exec (.dmaRequestIssue c) s) (fun t => t.mem = s.mem ∧
           (t.chan c).run = some { r with idxAsked := r.idxAsked + 1 } ∧
           ∃ p, t.flight = s.flight ++ [p] ∧ p.kind = .readReq ∧ p.dst = e ∧ p.addr = a ∧ p.bytes = n ∧ p.owner = .chan c)))) ∧
  (∀ (s : State) (c : Chan) (r : DmaRun), Clocked s →
     (∀ (d : DmaDesc) (h : Word) (w : RingWiring), (s.chan c).run = some r → d.ring < 32 → (s.skeins[chanSkein c]).runDesc r = some d →
       d.pop = true → r.popped = none → (s.chan c).stopping = false → (s.chan c).failing = none → (s.chan c).pushDue = [] →
       ((s.skeins[chanSkein c]).ring d.ring).wiring = some w →
       ((s.skeins[chanSkein c]).ring d.ring).handleAt ((s.skeins[chanSkein c]).ring d.ring).nextTake = some h →
       r.wUnit < ({ d with len0 := h.toNat / 4096 * 256 } : DmaDesc).units →
       Completes (exec (.dmaPopFill c) s) (fun t =>
         (t.chan c).run = some { r with
           pops := (r.desc, { space := if w.laneLocal then 1 else 0, addr := w.bufferBase + h.toNat % 4096 * w.bufferStride
                              len := h.toNat / 4096 * 256 }) :: r.pops
           heldDesc := r.desc
           held := some { ring := d.ring, pos := ((s.skeins[chanSkein c]).ring d.ring).nextTake, handle := h } } ∧
         ((t.skeins[chanSkein c]).ring d.ring).nextTake = ((s.skeins[chanSkein c]).ring d.ring).nextTake + 1 ∧
         t = { s with skeins := t.skeins })) ∧
     (∀ at_ : Time, (s.chan c).run = some r → (s.chan c).doneAt = some at_ →
       (s.now < at_ + 20 → exec (.dmaListComplete c) s = .next s) ∧
       (at_ + 20 ≤ s.now → Completes (exec (.dmaListComplete c) s) (fun t =>
         (t.chan c).listsDone = (if r.again then (s.chan c).listsDone else satAdd 32 (s.chan c).listsDone 1) ∧ (t.chan c).doneAt = none ∧
         (∀ x rest, (s.chan c).parked = x :: rest → (t.chan c).run = some x) ∧
         ((s.chan c).parked = [] → (t.chan c).run.map (·.list) = (s.chan c).queued.map (·.list) ∧ (t.chan c).queued = none) ∧
         t = { s with skeins := t.skeins, tick := t.tick }))) ∧
     (∀ (at_ : Time) (f : DmaFail), (s.chan c).failing = some r → (s.chan c).retryAt = some at_ → at_ ≤ s.now → r.fail = some f →
       r ∈ (s.chan c).past ∨ (s.chan c).run = some r →
       Completes (exec (.dmaResume c) s) (fun t =>
         (t.chan c).halting = false ∧ (t.chan c).retryAt = none ∧ (t.chan c).retries = satAdd 32 (s.chan c).retries 1 ∧
         (∃ r', (t.chan c).run = some r' ∧ r'.desc = f.desc ∧ r'.unit = f.unit ∧ r'.wUnit = f.unit ∧ r'.fail = none ∧ r'.landed = [] ∧
           r'.list = r.list) ∧ t = { s with skeins := t.skeins })) ∧
     (∀ (t : State) (f : DmaFail), (s.chan c).failing = some r → r.fail = some f → (s.chan c).reads = [] → (s.chan c).writes = [] →
       (s.chan c).retryAt = none → t = s.settleChan c →
       (t.chan c).haltSeen = true ∧ (t.chan c).res.valid = true ∧ (t.chan c).res.list = r.list ∧ (t.chan c).res.desc = f.desc ∧
       (retryable f.code = true → (t.chan c).res.attempts ≤ (s.skeins[chanSkein c]).retryLimit.toNat → r.gone = false →
         (s.chan c).stopping = false →
         (t.chan c).retryAt = some (s.now + 10 * (s.skeins[chanSkein c]).retryDelay.toNat) ∧ (t.chan c).code = f.code ∧
         t = { s with skeins := t.skeins }) ∧
       (retryable f.code = false ∨ (s.skeins[chanSkein c]).retryLimit.toNat < (t.chan c).res.attempts → s.stepOpen = true → s.step.cause = 0 →
         (t.chan c).halted = true ∧ (t.chan c).run = none ∧ t.step.faulted = true ∧ (t.chan c).code = t.step.cause ∧
         t.step.cause = if retryable f.code then 0x0485 else f.code)))

/-- Bring-up of a link: LINK_RETRAIN starts training at rate 0, each LINK_RATE_STEP that passes goes one rate up to the target, the third failure falls
back, LINK_LATENCY_MEASURE brings the link up, and 1 ms after a loss LINK_AUTO_RETRAIN trains again.
LOSS_OF_SIGNAL and LOSS_OF_LOCK: a detector that reports a loss takes the link down and empties its link layer; a link in use fails the step with
0x0501, and one that is not in use does not. A detector that clears restarts the time after which a lost link trains again. -/
def Obligations.LinkBringUpAndLoss : Prop :=
  (∀ (s : State) (l : Link), Clocked s →
     (∀ peer : PeerIdent,
       ((s.links[l]).enable = false → Completes (exec (.linkRetrain l peer) s) (fun t => (t.links[l]).phase = .down)) ∧
       ((s.links[l]).enable = true → s.pwr.refWarpBad.getLsbD (linkDie l).val = false →
         (s.links[l]).peerCheck = false ∨ ((s.links[l]).peerRank = peer.rank ∧ (s.links[l]).peerLink = peer.link) →
         Completes (exec (.linkRetrain l peer) s) (fun t => (t.links[l]).phase = .training ∧ (t.links[l]).rate = 0 ∧
           (t.links[l]).target = (if (s.links[l]).maxRate.ule peer.maxRate then (s.links[l]).maxRate else peer.maxRate))) ∧
       ((s.links[l]).enable = true → s.pwr.refWarpBad.getLsbD (linkDie l).val = false → (s.links[l]).peerCheck = true →
         (s.links[l]).peerRank ≠ peer.rank ∨ (s.links[l]).peerLink ≠ peer.link →
         Completes (exec (.linkRetrain l peer) s) (fun t => (t.links[l]).phase = .down ∧ (t.links[l]).mismatch = true ∧
           (t.links[l]).downAt = none ∧ (0x0504 : Code) ∈ t.dist.training))) ∧
     (∀ (ok : Bool) (skew : BitVec 10), (s.links[l]).phase = .training →
       Completes (exec (.linkRateStep l ok skew) s) (fun t => t = { s with links := t.links, dist := t.dist } ∧
         (∀ m : Link, m ≠ l → t.links[m] = s.links[m]) ∧ (t.links[l]).skew = skew ∧
         (¬(2 ≤ (s.links[l]).tries ∧ (ok = false ∨ 512 < skew.toNat) ∧ (s.links[l]).rate ≠ 0) → t.dist = s.dist) ∧
         (ok = true → skew.toNat ≤ 512 → (s.links[l]).rate = (s.links[l]).target → (t.links[l]).phase = .measuring ∧
           (t.links[l]).rate = (s.links[l]).rate) ∧
         (ok = true → skew.toNat ≤ 512 → (s.links[l]).rate ≠ (s.links[l]).target → (t.links[l]).phase = .training ∧
           (t.links[l]).rate = (s.links[l]).rate + 1 ∧ (t.links[l]).tries = 0) ∧
         (ok = false ∨ 512 < skew.toNat → (t.links[l]).failedRate = (s.links[l]).rate ∧
           ((s.links[l]).tries < 2 → (t.links[l]).phase = .training ∧ (t.links[l]).rate = (s.links[l]).rate) ∧
           (2 ≤ (s.links[l]).tries → (s.links[l]).rate = 0 → (t.links[l]).phase = .down) ∧
           (2 ≤ (s.links[l]).tries → (s.links[l]).rate ≠ 0 → (t.links[l]).phase = .measuring ∧
             (t.links[l]).rate = (s.links[l]).rate - 1 ∧ ((s.links[l]).code = 0 → (t.links[l]).code = 0x0503) ∧
             ((s.links[l]).rate - 1 ≠ (s.links[l]).target → t.dist.training = s.dist.training ++ [0x0503]))))) ∧
     (∀ rtt : BitVec 24, (s.links[l]).phase = .measuring →
       Completes (exec (.linkLatencyMeasure l rtt) s) (fun t => t = { s with links := t.links, tick := t.tick } ∧
         (∀ m : Link, m ≠ l → t.links[m] = s.links[m]) ∧ (t.links[l]).phase = .up ∧ (t.links[l]).rtt = rtt ∧
         (t.links[l]).rate = (s.links[l]).rate ∧
         (s.tick.src = 0 ∧ s.tick.upLink.toNat = l.val → t.tick = { s.tick with linkComp := BitVec.ofNat _ (rtt.toNat / 2) }) ∧
         (¬(s.tick.src = 0 ∧ s.tick.upLink.toNat = l.val) → t.tick = s.tick))) ∧
     (∀ (peer : PeerIdent) (at_ : Time), (s.links[l]).enable = true → (s.links[l]).autoRetrain = true → (s.links[l]).fn.st = .on →
       s.pwr.refWarpBad.getLsbD (linkDie l).val = false → (s.links[l]).phase = .down → (s.links[l]).downAt = some at_ →
       (s.links[l]).los = 0 → (s.links[l]).lol = 0 →
       (s.now < at_ + 17000000 → exec (.linkAutoRetrain l peer) s = .next s) ∧
       (at_ + 17000000 ≤ s.now → exec (.linkAutoRetrain l peer) s = .next (s.bringUp l peer)))) ∧
  (∀ (s : State) (l : Link) (lane : Fin 2),
     (∀ lost : Bool,
       Completes (exec (.lossOfSignal l lane lost) s) (fun t => (t.links[l]).lol = (s.links[l]).lol ∧
         (t.links[l]).los = (if lost then (s.links[l]).los ||| (1#2 <<< lane.val) else (s.links[l]).los &&& ~~~(1#2 <<< lane.val))) ∧
       Completes (exec (.lossOfLock l lane lost) s) (fun t => (t.links[l]).los = (s.links[l]).los ∧
         (t.links[l]).lol = (if lost then (s.links[l]).lol ||| (1#2 <<< lane.val) else (s.links[l]).lol &&& ~~~(1#2 <<< lane.val)))) ∧
     ((s.links[l]).phase = .up → ∀ k ∈ [Instr.lossOfSignal l lane true, .lossOfLock l lane true],
       Completes (exec k s) (fun t => (t.links[l]).phase = .down ∧ (t.links[l]).downSeen = true ∧
         (t.links[l]).replay = [] ∧ (t.links[l]).txSeq = 0 ∧ (t.links[l]).rxNext = 0 ∧ (t.links[l]).downAt = some s.now ∧
         (s.linkInUse l = false → t = { s with links := t.links }) ∧
         (s.linkInUse l = true → s.stepOpen = true → s.step.cause = 0 → t.step.faulted = true ∧ t.step.cause = 0x0501))) ∧
     (∀ k ∈ [Instr.lossOfSignal l lane false, .lossOfLock l lane false],
       Completes (exec k s) (fun t => OnlyLink l s t ∧ (t.links[l]).phase = (s.links[l]).phase ∧
         (t.links[l]).downAt = (s.links[l]).downAt.map (fun _ => s.now))))

/-- SLOT_BOUNDARY sends one flit by priority: an IDLE owed since 4,095 slots, else a TICK due, else an ABORT, else a REPLAY, else a flit of the replay
buffer, ahead of any stream; then the slot's own stream; a message for the peer comes last. The slot counter advances.
STREAM_HANDLE_POP of a plain stream pops its ring's next handle and splits the buffer's bytes into flits of at most 240 bytes, the last of them
marked; nothing but the ring and the stream changes. -/
def Obligations.LinkSends : Prop :=
  (∀ (s : State) (l : Link) (sliver : Option (List Byte)), Clocked s → (s.links[l]).phase = .up → s.looped l = false →
     (4095 ≤ (s.links[l]).slotsSinceIdle →
       Completes (exec (.slotBoundary l sliver) s) (fun t => OnlyLink l s t ∧ (t.links[l]).slot = (s.links[l]).slot + 1 ∧
         ((t.links[l]).wire.map (·.kind)) = some 0 ∧ (t.links[l]).slotsSinceIdle = 0 ∧ (t.links[l]).tickDue = (s.links[l]).tickDue ∧
         (t.links[l]).aborts = (s.links[l]).aborts ∧ (t.links[l]).replay = (s.links[l]).replay)) ∧
     ((s.links[l]).slotsSinceIdle < 4095 →
       (∀ p : TickPayload, (s.links[l]).tickDue = some p →
         Completes (exec (.slotBoundary l sliver) s) (fun t => OnlyLink l s t ∧ (t.links[l]).slot = (s.links[l]).slot + 1 ∧
           (t.links[l]).tickDue = none ∧ ((t.links[l]).wire.map (·.kind)) = some 4 ∧ (t.links[l]).replay = (s.links[l]).replay)) ∧
       (∀ (p : List Byte) (rest : List (List Byte)), (s.links[l]).tickDue = none → (s.links[l]).aborts = p :: rest →
         (s.links[l]).replay.length < 256 →
         Completes (exec (.slotBoundary l sliver) s) (fun t => OnlyLink l s t ∧ (t.links[l]).aborts = rest ∧
           ((t.links[l]).wire.map (·.kind)) = some 5 ∧ ((t.links[l]).wire.map (·.payload)) = some (sliceBytes p 0 240) ∧
           (t.links[l]).txSeq = (s.links[l]).txSeq + 1 ∧ (t.links[l]).replay.length = (s.links[l]).replay.length + 1)) ∧
       (∀ why : BitVec 8, (s.links[l]).tickDue = none → (s.links[l]).aborts = [] → (s.links[l]).replayDue = some why →
         Completes (exec (.slotBoundary l sliver) s) (fun t => (t.links[l]).replayDue = none ∧
           ((t.links[l]).wire.map (·.kind)) = some 6 ∧
           (¬(s.step.begun = true ∧ s.step.phase ≠ .idle) → OnlyLink l s t ∧ (t.links[l]).replaysStep = (s.links[l]).replaysStep) ∧
           (s.step.begun = true → s.step.phase ≠ .idle → (s.links[l]).replaysStep.toNat < 2 →
             OnlyLink l s t ∧ (t.links[l]).replaysStep = (s.links[l]).replaysStep + 1) ∧
           (s.step.begun = true → s.step.phase ≠ .idle → (s.links[l]).replaysStep = 2 →
             (t.links[l]).budget = true ∧ ((s.links[l]).code = 0 → (t.links[l]).code = 0x0502) ∧
             (s.stepOpen = true → s.step.cause = 0 → t.step.faulted = true ∧ t.step.cause = 0x0502)))) ∧
       (∀ (f : Flit) (rest : List Flit), (s.links[l]).tickDue = none → (s.links[l]).aborts = [] → (s.links[l]).replayDue = none →
         (s.links[l]).resend = f :: rest →
         Completes (exec (.slotBoundary l sliver) s) (fun t => OnlyLink l s t ∧ (t.links[l]).resend = rest ∧
           ((t.links[l]).wire.map (fun g => (g.kind, g.seq, g.payload))) = some (f.kind, f.seq, f.payload) ∧
           (t.links[l]).replay = (s.links[l]).replay ∧ (t.links[l]).txSeq = (s.links[l]).txSeq)) ∧
       ((s.links[l]).tickDue = none → (s.links[l]).aborts = [] → (s.links[l]).replayDue = none → (s.links[l]).resend = [] →
         (s.links[l]).replay.length < 256 →
         (∀ t0 : StreamTx, (s.links[l]).owner = some t0 → t0.ready = true → (s.links[l]).displaced = [] → s.computeDown = false →
           Completes (exec (.slotBoundary l sliver) s) (fun t => OnlyLink l s t ∧ (t.links[l]).txSeq = (s.links[l]).txSeq + 1 ∧
             ((t.links[l]).wire.map (fun g => (g.kind, g.stream))) = some (1, BitVec.ofNat 16 t0.e.stream))) ∧
         (∀ p : List Byte, sliver = some p → (s.links[l]).slivers = [] → (∀ x ∈ (s.links[l]).tx, x.ready = false) →
           (∀ x ∈ (s.links[l]).rx, x.creditsDue = 0) →
           Completes (exec (.slotBoundary l sliver) s) (fun t => OnlyLink l s t ∧ (t.links[l]).slivers = [] ∧
             ((t.links[l]).wire.map (fun g => (g.kind, g.payload))) = some (2, sliceBytes p 0 240)))))) ∧
  (∀ (s : State) (l : Link) (n : BitVec 12) (t0 : StreamTx) (h : Word) (w : RingWiring), Clocked s → t0.e.ring < 32 →
     (s.links[l]).tx.find? (fun t => t.e.stream == n.toNat) = some t0 → s.step.phase = .window → t0.out = [] → t0.e.token = false →
     s.linkFits l = true → (s.links[l]).phase = .up →
     ((s.skeins[linkSkein l]).ring t0.e.ring).wiring = some w →
     ((s.skeins[linkSkein l]).ring t0.e.ring).handleAt ((s.skeins[linkSkein l]).ring t0.e.ring).nextTake = some h →
     (s.readDevice l (w.buffer (linkSkein l) (h.toNat % 4096)) (h.toNat / 4096 * 256)).2.2 = false →
     Completes (exec (.streamHandlePop l n) s) (fun t => t = { s with links := t.links, skeins := t.skeins, dies := t.dies } ∧
       ((t.skeins[linkSkein l]).ring t0.e.ring).nextTake = ((s.skeins[linkSkein l]).ring t0.e.ring).nextTake + 1 ∧
       ∃ u, (t.links[l]).tx.find? (fun x => x.e.stream == n.toNat) = some u ∧
         (u.out.map (·.1)).flatten = (s.readDevice l (w.buffer (linkSkein l) (h.toNat % 4096)) (h.toNat / 4096 * 256)).2.1 ∧
         (∀ x ∈ u.out, x.1.length ≤ 240) ∧ (∃ b, u.out.getLast? = some (b, true)) ∧ (∀ x ∈ u.out.dropLast, x.2 = false)))

/-- A sequenced flit is taken exactly when its CRC is good and its seq is the next one (R306): the next seq advances. Otherwise it is discarded; a CRC
failure asks for a replay unless an earlier request is still on its way (R307).
DATA, SLIVER, CREDIT, IDLE, REPLAY and ABORT flits in sequence on a link that is up. -/
def Obligations.LinkReceives : Prop :=
  (∀ (s : State) (l : Link) (f : Flit),
     (∀ u : State, s.receiveSeq l f = some u → flitGood f = true ∧ f.seq = (s.links[l]).rxNext ∧
       (u.links[l]).rxNext = (s.links[l]).rxNext + 1 ∧ (u.links[l]).askedAt = none ∧
       u = { s with links := u.links, skeins := u.skeins } ∧ ∀ m : Link, m ≠ l → u.links[m] = s.links[m]) ∧
     (s.receiveSeq l f = none ↔ flitGood f = false ∨ f.seq ≠ (s.links[l]).rxNext) ∧
     ((s.links[l]).phase = .up → s.looped l = false →
       (flitGood f = false → ∀ (loop : Option (Link × Bool)),
         ∀ k ∈ [Instr.dataFlit l f, .sliverFlit l f loop, .creditFlit l f, .abortFlit l f],
           Completes (exec k s) (fun t => OnlyLink l s t ∧ (t.links[l]).crcErr = satAdd 16 (s.links[l]).crcErr 1 ∧
             (t.links[l]).rxNext = (s.links[l]).rxNext ∧
             ((∀ a : Time, (s.links[l]).askedAt = some a → a + (s.links[l]).replayTime ≤ s.now) →
               (t.links[l]).replayDue = some 0 ∧ (t.links[l]).askedAt = some s.now) ∧
             (∀ a : Time, (s.links[l]).askedAt = some a → s.now < a + (s.links[l]).replayTime →
               (t.links[l]).replayDue = (s.links[l]).replayDue))) ∧
       (f.kind = 1 → flitGood f = true → f.seq ≠ (s.links[l]).rxNext → (f.seq - (s.links[l]).rxNext).toNat < 2048 →
         Completes (exec (.dataFlit l f) s) (fun t => t = { s with links := t.links, skeins := t.skeins } ∧
           (t.links[l]).rxNext = (s.links[l]).rxNext ∧ (t.links[l]).rx = (s.links[l]).rx ∧
           ((s.links[l]).askedAt = none → (t.links[l]).replayDue = some 1))))) ∧
  (∀ (s u : State) (l : Link) (f : Flit), (s.links[l]).phase = .up → s.looped l = false →
     (∀ (r : StreamRx) (w : RingWiring) (e : Endpoint) (out carry : List Byte), f.kind = 1 → s.receiveSeq l f = some u → u.computeDown = false → u.step.phase = .window →
       (u.links[l]).rx.find? (fun r => r.e.stream == f.stream.toNat) = some r → r.staged = [] →
       ((u.skeins[linkSkein l]).ring r.e.ring).wiring = some w → ((u.skeins[linkSkein l]).ring r.e.ring).space (r.pos + w.preload) = true →
       r.unit s.fresh (f.payload.take (16 * f.len.toNat)) f.last = (out, carry) → out ≠ [] →
       (u.decodeAddr (w.buffer (linkSkein l) ((r.pos + w.preload) % max 1 w.bufferCount) + r.bytes)).endpoint = some e →
       Completes (exec (.dataFlit l f) s) (fun t => t.mem = s.mem ∧ t.spindles = s.spindles ∧
         t.flight = s.flight ++ [{ kind := .write, src := dmaEndpoint (linkSkein l), dst := e, vc := 1
                                   owner := .link l f.stream.toNat, tag := r.nextTag
                                   addr := w.buffer (linkSkein l) ((r.pos + w.preload) % max 1 w.bufferCount) + r.bytes
                                   bytes := out.length, data := out
                                   poison := f.poison || r.carryBad, sentAt := s.now }])) ∧
     (∀ loop : Option (Link × Bool), f.kind = 2 → s.receiveSeq l f = some u →
       Completes (exec (.sliverFlit l f loop) s) (fun t => (t.links[l]).sliverIn = (u.links[l]).sliverIn ++ [f.payload] ∧
         (loop = none → t = u.modLink l (fun x => { x with sliverIn := x.sliverIn ++ [f.payload] })) ∧
         (∀ m : Link, loop = some (m, true) → u.linkInUse m = true → (t.links[m]).farEnd = (u.links[m]).farEnd) ∧
         (∀ m : Link, loop = some (m, true) → u.linkInUse m = false → (t.links[m]).farEnd = true) ∧
         (∀ m : Link, loop = some (m, false) → (t.links[m]).farEnd = false))) ∧
     (f.kind = 3 → s.receiveSeq l f = some u →
       Completes (exec (.creditFlit l f) s) (fun t => OnlyLink l u t ∧
         (t.links[l]).tx = (u.links[l]).tx.map (fun x => { x with credits := x.credits +
           (((List.range 30).filter (fun i => field f.payload (8 * i) 2 == x.e.stream)).map
             (fun i => field f.payload (8 * i + 2) 2)).sum }))) ∧
     (f.kind = 0 → flitGood f = true → exec (.idleFlit l f) s = .next (s.takeAck l f)) ∧
     (flitGood f = false →
       exec (.idleFlit l f) s = .next (s.modLink l (fun x => { x with crcErr := satAdd 16 x.crcErr 1 }))) ∧
     (f.kind = 6 → flitGood f = true → (s.links[l]).replaysStep.toNat < 2 →
       Completes (exec (.replayFlit l f) s) (fun t =>
         (t.links[l]).resend = ((s.takeAck l f).links[l]).replay.dropWhile (fun g => g.seq != BitVec.ofNat 12 (field f.payload 0 2)) ∧
         (t.links[l]).replaysStep = (if s.step.begun && s.step.phase != .idle then (s.links[l]).replaysStep + 1
           else (s.links[l]).replaysStep) ∧ t.step = s.step)) ∧
     (f.kind = 5 → s.receiveSeq l f = some u → s.step.phase ≠ .idle → BitVec.ofNat 48 (field f.payload 0 6) = s.step.tick →
       s.step.seen.contains (s.step.tick, BitVec.ofNat 16 (field f.payload 6 2)) = false → s.step.cause = 0 →
       Completes (exec (.abortFlit l f) s) (fun t => t.step.aborted = true ∧ t.step.cause = BitVec.ofNat 16 (field f.payload 8 2) ∧
         t.step.origin = BitVec.ofNat 16 (field f.payload 6 2) ∧
         ∀ m : Link, m ≠ l → (s.links[m]).phase = .up → (t.links[m]).aborts = (s.links[m]).aborts ++
           [abortPayload s.step.tick (BitVec.ofNat 16 (field f.payload 6 2)) (BitVec.ofNat 16 (field f.payload 8 2))
             (field f.payload 10 2 + 1)])))

/-- BARRIER_FRAME, BARRIER_CHANNEL_FAIL and BARRIER_TRAINING: a good frame in sequence is delivered and held for an ACK, a bad one is counted and asked
for again; a failed bulk channel's role goes to the lowest spare; training that is due and has no failures brings the barrier up.
PERST_N_LOW and PERST_N_RELEASE, the host link going down and coming up, and D3hot (R388, R407, R408). -/
def Obligations.BarrierAndHostLink : Prop :=
  ((∀ (s : State) (rx : Bool) (ch : Fin 20) (f : Frame), s.slv.perst = false → ((s.slv.dir rx)[ch]).failed = false →
     ((s.slv.dir rx)[ch]).role ≠ .out →
     (frameGood f = true → f.seq = ((s.slv.dir rx)[ch]).seq →
       Completes (exec (.barrierFrame rx ch f) s) (fun t => ((t.slv.dir rx)[ch]).seq = ((s.slv.dir rx)[ch]).seq + 1 ∧
         ((t.slv.dir rx)[ch]).asked = none ∧ ((t.slv.dir rx)[ch]).replay.getLast? = some f ∧
         (∀ c : Fin 20, c ≠ ch → (t.slv.dir rx)[c] = (s.slv.dir rx)[c]) ∧
         (f.kind ≠ 5 → t.slv.dir (!rx) = s.slv.dir (!rx)) ∧
         (f.kind = 5 → ((t.slv.dir (!rx))[ch]).replay =
           uncovered (BitVec.ofNat 8 (field f.payload 0 1)) ((s.slv.dir (!rx))[ch]).replay) ∧
         t = { s with slv := { s.slv with tx := t.slv.tx, rx := t.slv.rx } })) ∧
     (frameGood f = true → f.seq ≠ ((s.slv.dir rx)[ch]).seq →
       Completes (exec (.barrierFrame rx ch f) s) (fun t => ((t.slv.dir rx)[ch]).seq = ((s.slv.dir rx)[ch]).seq ∧
         ((t.slv.dir rx)[ch]).asked ≠ none ∧ ((t.slv.dir rx)[ch]).replay = ((s.slv.dir rx)[ch]).replay)) ∧
     (frameGood f = false → ((s.slv.dir rx)[ch]).errors.length < s.slv.errLimit.toNat →
       Completes (exec (.barrierFrame rx ch f) s) (fun t => t.slv.crc = satAdd 32 s.slv.crc 1 ∧
         ((t.slv.dir rx)[ch]).seq = ((s.slv.dir rx)[ch]).seq ∧ ((t.slv.dir rx)[ch]).asked ≠ none ∧
         ((t.slv.dir rx)[ch]).failed = false))) ∧
   (∀ (s : State) (rx : Bool) (ch sp : Fin 20), ((s.slv.dir rx)[ch]).failed = false → ((s.slv.dir rx)[ch]).role = .bulk →
     spareOf (s.slv.dir rx) = some sp → 8 ≤ roleCount (s.slv.dir rx) .bulk → 1 ≤ roleCount (s.slv.dir rx) .msg →
     Completes (exec (.barrierChannelFail rx ch) s) (fun t => ((t.slv.dir rx)[ch]).failed = true ∧ ((t.slv.dir rx)[ch]).role = .out ∧
       ((t.slv.dir rx)[sp]).role = .bulk ∧
       ((t.slv.dir rx)[sp]).replay = ((s.slv.dir rx)[sp]).replay ++ ((s.slv.dir rx)[ch]).replay ∧
       t.slv.repairs = satAdd 32 s.slv.repairs 1 ∧ t.slv.barrierUp = s.slv.barrierUp)) ∧
   (∀ s : State, s.slv.perst = false → s.slv.computePower = true → s.inFullReset = false → s.slv.barrierUp = false →
     (s.slv.trainDue = false → ∀ a b : BitVec 20, exec (.barrierTraining a b) s = .next s) ∧
     (s.slv.trainDue = true → Completes (exec (.barrierTraining 0 0) s) (fun t => t.slv.barrierUp = true ∧ t.slv.trainDue = false ∧
       (∀ c : Fin 20, (t.slv.tx[c]).role = trainedRole c ∧ (t.slv.rx[c]).role = trainedRole c ∧ (t.slv.tx[c]).failed = false))))) ∧
  (∀ s : State,
     (Completes (exec .perstNLow s) (fun t => t.slv.perst = true ∧ t.slv.barrierUp = false ∧
       (∀ n : Fin 8, (t.slv.mb[n]).state = .idle ∧ (t.slv.mb[n]).crossing = (s.slv.mb[n]).crossing) ∧
       (∀ (n : Fin 8) (b : Bulk), t.slv.bulk[n] = some b → b.ended = true) ∧ t.mem = s.mem ∧ t.step = s.step)) ∧
     (s.slv.perst = true → Completes (exec .perstNRelease s) (fun t => t.slv.perst = false ∧ t.slv.computePower = s.supplied ∧
       t = { s with slv := t.slv })) ∧
     (Completes (exec .hostLinkDown s) (fun t => t.slv.linkUp = false ∧ (∀ (n : Fin 8) (b : Bulk), t.slv.bulk[n] = some b → b.ended = true) ∧
       t = { s with slv := t.slv })) ∧
     (s.slv.perst = false → ∀ msix : Bool,
       Completes (exec (.hostLinkUp msix) s) (fun t => t.slv.linkUp = true ∧ t.slv.fnMask = !msix ∧ t = { s with slv := t.slv } ∧
         (s.slv.d3hot = true ∨ msix = false → t.slv.pba = s.slv.pba ∧ t.slv.posted = s.slv.posted) ∧
         (s.slv.d3hot = false → msix = true → ∀ v : Fin 64, s.slv.pba.getLsbD v.val = true → (s.slv.msix[v]).2.2 = false →
           t.slv.pba.getLsbD v.val = false ∧ t.slv.posted[v] = s.slv.posted[v] + 1)) ∧
       (∀ d3 : Bool, Completes (exec (.pciePowerStateChange d3 msix) s) (fun t => t.slv.d3hot = d3 ∧ t.slv.fnMask = !msix ∧
         t = { s with slv := t.slv } ∧ (d3 = true ∨ msix = false → t.slv.pba = s.slv.pba ∧ t.slv.posted = s.slv.posted)))))

/-- A mailbox (R392 to R395): the doorbell takes a well-formed request and makes the mailbox busy; a bad length fails it with cause 5, no supply with 4,
no barrier with 3; the response for the crossing under way makes it done; past the timeout it fails with 1; an acknowledge makes it idle.
MIRROR_UPDATE and MIRROR_STALE (R398 to R400): an update across a barrier that is up makes the mirror valid and the distaff alive; past stale_ms the
mirror is not valid, the distaff is not alive and every busy mailbox fails with cause 2. -/
def Obligations.MailboxesAndMirror : Prop :=
  (∀ (s : State) (n : Fin 8),
     (∀ (len : BitVec 13) (tag : BitVec 16), s.slv.perst = false → (s.slv.mb[n]).state = .idle →
       (32 ≤ len.toNat → len.toNat ≤ 4096 → len.toNat % 8 = 0 → s.slv.computePower = true → s.slv.barrierUp = true →
         Completes (exec (.mailboxDoorbell n len tag) s) (fun t => (t.slv.mb[n]).state = .busy ∧ (t.slv.mb[n]).hostTag = tag ∧
           (t.slv.mb[n]).crossing = (s.slv.mb[n]).crossing + 1 ∧ (t.slv.mb[n]).since = s.now ∧
           (t.slv.mb[n]).staged = Cells.read 0 (s.slv.mb[n]).req 0 len.toNat ∧
           t = { s with slv := { s.slv with mb := t.slv.mb } } ∧ ∀ m : Fin 8, m ≠ n → t.slv.mb[m] = s.slv.mb[m])) ∧
       (len.toNat < 32 ∨ 4096 < len.toNat ∨ len.toNat % 8 ≠ 0 →
         Completes (exec (.mailboxDoorbell n len tag) s) (fun t => (t.slv.mb[n]).state = .failed ∧ (t.slv.mb[n]).cause = 5)) ∧
       (32 ≤ len.toNat → len.toNat ≤ 4096 → len.toNat % 8 = 0 →
         (s.slv.computePower = false →
           Completes (exec (.mailboxDoorbell n len tag) s) (fun t => (t.slv.mb[n]).state = .failed ∧ (t.slv.mb[n]).cause = 4)) ∧
         (s.slv.computePower = true → s.slv.barrierUp = false →
           Completes (exec (.mailboxDoorbell n len tag) s) (fun t => (t.slv.mb[n]).state = .failed ∧ (t.slv.mb[n]).cause = 3)))) ∧
     (∀ (len : BitVec 13) (tag : BitVec 16), s.slv.perst = false → (s.slv.mb[n]).state ≠ .idle →
       exec (.mailboxDoorbell n len tag) s = .next (s.modMb n (fun m => { m with lost := true }))) ∧
     (∀ (r : Response) (rest : List Response), s.slv.barrierUp = true →
       takeFirst (fun r => r.transport.val == n.val) s.dist.responses = some (r, rest) →
       (s.slv.mb[n]).state = .busy → (s.slv.mb[n]).crossing = r.crossing → s.now < (s.slv.mb[n]).since + 17000000 * s.slv.timeoutMs.toNat →
       Completes (exec (.mailboxResponse n) s) (fun t => (t.slv.mb[n]).state = .done ∧
         (t.slv.mb[n]).resp = Cells.write 0 (s.slv.mb[n]).resp 0 (s.stampResponse r) ∧
         (t.slv.mb[n]).respLen = BitVec.ofNat 13 (s.stampResponse r).length ∧ t.dist.responses = rest)) ∧
     (∀ (r : Response) (rest : List Response), s.slv.barrierUp = true →
       takeFirst (fun r => r.transport.val == n.val) s.dist.responses = some (r, rest) →
       (s.slv.mb[n]).state ≠ .busy ∨ (s.slv.mb[n]).crossing ≠ r.crossing →
       Completes (exec (.mailboxResponse n) s) (fun t => t.slv.lateResp = satAdd 32 s.slv.lateResp 1 ∧ t.slv.mb = s.slv.mb ∧
         t.dist.responses = rest)) ∧
     ((s.slv.mb[n]).state = .busy →
       (s.now < (s.slv.mb[n]).since + 17000000 * s.slv.timeoutMs.toNat → exec (.mailboxTimeout n) s = .next s) ∧
       ((s.slv.mb[n]).since + 17000000 * s.slv.timeoutMs.toNat ≤ s.now →
         Completes (exec (.mailboxTimeout n) s) (fun t => (t.slv.mb[n]).state = .failed ∧ (t.slv.mb[n]).cause = 1))) ∧
     ((s.slv.mb[n]).state = .done ∨ (s.slv.mb[n]).state = .failed →
       exec (.mailboxAck n) s = .next (s.modMb n (fun m => { m with state := .idle, cause := 0 }))) ∧
     ((s.slv.mb[n]).state = .idle ∨ (s.slv.mb[n]).state = .busy → exec (.mailboxAck n) s = .next s)) ∧
  ((∀ s : State, s.slv.barrierUp = true → s.dist.alive = true → s.flt.coreHalted.getLsbD 3 = false →
     Completes (exec .mirrorUpdate s) (fun t => t.slv.mirror = s.mirrorBytes ∧ t.slv.mirrorSeq = s.slv.mirrorSeq + 2 ∧
       t.slv.mirrorAt = s.now ∧ t.slv.mirrorValid = true ∧ t.slv.distaffAlive = true ∧ t = { s with slv := t.slv })) ∧
   (∀ s : State, s.slv.mirrorValid = true →
     (s.now ≤ s.slv.mirrorAt + 17000000 * max 1 s.slv.staleMs.toNat → exec .mirrorStale s = .next s) ∧
     (s.slv.mirrorAt + 17000000 * max 1 s.slv.staleMs.toNat < s.now →
       Completes (exec .mirrorStale s) (fun t => t.slv.mirrorValid = false ∧ t.slv.distaffAlive = false ∧
         (∀ n : Fin 8, (s.slv.mb[n]).state = .busy → (t.slv.mb[n]).state = .failed ∧ (t.slv.mb[n]).cause = 2) ∧
         (∀ n : Fin 8, (s.slv.mb[n]).state ≠ .busy → t.slv.mb[n] = s.slv.mb[n]) ∧ t = { s with slv := t.slv }))))

/-- BCTL_RECORD, BULK_PIECE and BULK_RETRY (R402 to R406): the engine starts a transfer; a piece to the device whose bytes memory took, and one from the
device whose bytes memory gave, advance it by the piece; a transfer that was stopped answers 0x0245 and goes.
What a piece to the device writes: memory then holds the piece's bytes at its addresses and every other byte stands (R403). -/
def Obligations.BulkCommands : Prop :=
  (∀ (s : State) (n : Fin 8) (b : Bulk), s.slv.bulk[n] = some b →
     (s.slv.barrierUp = true → Completes (exec (.bctlRecord n) s) (fun t => t.slv.bulk[n] = some { b with started := true } ∧
       t = { s with slv := { s.slv with bulk := t.slv.bulk } })) ∧
     (∀ (entry bs : List Byte) (ecc : Ecc) (l : List (BitVec 64 × Nat)) (b' : Bulk) (u : State) (m : Nat), Clocked s → b.ended = false →
       b.started = true → b.retryAt = none → b.toDevice = true →
       walkList (2 * min 4096 (b.total - b.done) + 2) b b.done (min 4096 (b.total - b.done)) entry = .segs l b' →
       s.agentWrites (lineParts (b.base + b.offset + b.done) (min 4096 (b.total - b.done)))
         (sliceBytes bs 0 (min 4096 (b.total - b.done))) = (u, m, 0) →
       b'.done + min 4096 (b.total - b.done) ≠ b'.total →
       Completes (exec (.bulkPiece n entry (.data bs) ecc) s) (fun t => t.mem = u.mem ∧
         t.slv.bulk[n] = some { b' with done := b'.done + min 4096 (b.total - b.done), retries := 0, retryAt := none })) ∧
     (∀ (entry bytes : List Byte) (host : HostData) (ecc : Ecc) (l : List (BitVec 64 × Nat)) (b' : Bulk) (u : State), Clocked s →
       host ≠ .failed → b.ended = false →
       b.started = true → b.retryAt = none → b.toDevice = false → b'.toDevice = false →
       walkList (2 * min 4096 (b.total - b.done) + 2) b b.done (min 4096 (b.total - b.done)) entry = .segs l b' →
       s.agentReads ecc (lineParts (b.base + b.offset + b.done) (min 4096 (b.total - b.done))) = (u, bytes, 0) →
       b'.done + min 4096 (b.total - b.done) = b'.total →
       Completes (exec (.bulkPiece n entry host ecc) s) (fun t => t.mem = u.mem ∧ t.slv.bulk[n] = none ∧
         t.slv.hostPosts = hostWrites l bytes)) ∧
     (∀ (entry : List Byte) (host : HostData) (ecc : Ecc), Clocked s → b.ended = true →
       Completes (exec (.bulkPiece n entry host ecc) s) (fun t => t.slv.bulk[n] = none ∧ t.mem = s.mem)) ∧
     (∀ at_ : Time, b.retryAt = some at_ →
       (s.now < at_ → exec (.bulkRetry n) s = .next s) ∧
       (at_ ≤ s.now → Completes (exec (.bulkRetry n) s) (fun t => t.slv.bulk[n] = some { b with retryAt := none } ∧
         t = { s with slv := { s.slv with bulk := t.slv.bulk } })))) ∧
  (∀ (s u : State) (a n m : Nat) (bs : List Byte), Canonical s → bs.length = n → s.agentWrites (lineParts a n) bs = (u, m, 0) →
     m = n ∧ (∀ i, i < n → Cells.get memDefault u.mem (a + i) = bs.getD i 0) ∧
     (∀ x, x < a ∨ a + n ≤ x → SameByte s u x))

/-- Requests at a fabric endpoint: a fenced endpoint answers 0x0982, a region that is not online 0x0601, an online one holds the request; its answer goes
back to the source; past FAB_EP_TIMEOUT it is answered 0x0603.
FABRIC_OUTBOUND_REQUEST of 32 B to 4 KiB from an online region: outside every window it is answered 0x0602 and stays off the weft; inside one it
enters the weft and stands as outstanding. INGEST_BEAT stores the enabled bytes at the ingest spindle, and INGEST_POST fills the next producer
position. -/
def Obligations.FabricRequests : Prop :=
  ((∀ (s u : State) (src dst : Endpoint) (vc : BitVec 2) (p : Packet) (i : Fin 16), fabricAtEp dst = some i →
     s.takePacket (fun p => (p.kind == .readReq || p.kind == .write) && p.src == src && p.dst == dst && p.vc == vc) = some (p, u) →
     (s.epFenced dst.die i = true → Completes (exec (.fabricInboundRequest src dst vc) s) (fun t => t.fabric = s.fabric ∧
       t.flight = u.flight ++ [{ p.reply 0x0982 [] with sentAt := s.now }])) ∧
     (s.epFenced dst.die i = false → (s.region (regionOf dst.die i)).state ≠ 1 →
       Completes (exec (.fabricInboundRequest src dst vc) s) (fun t =>
         t.flight = u.flight ++ [{ p.reply 0x0601 [] with sentAt := s.now }] ∧
         ((t.fabric[dst.die]).eps[i]).refused = satAdd 32 ((s.fabric[dst.die]).eps[i]).refused 1 ∧
         ((t.fabric[dst.die]).eps[i]).inFlight = ((s.fabric[dst.die]).eps[i]).inFlight)) ∧
     (s.epFenced dst.die i = false → (s.region (regionOf dst.die i)).state = 1 →
       Completes (exec (.fabricInboundRequest src dst vc) s) (fun t => t.flight = u.flight ∧
         ((t.fabric[dst.die]).eps[i]).inFlight = ((s.fabric[dst.die]).eps[i]).inFlight ++ [{ pkt := p, since := s.now }]))) ∧
   (∀ (s : State) (d : Die) (e : Fin 16) (i : Nat) (q : FabIn), Clocked s → ((s.fabric[d]).eps[e]).inFlight[i]? = some q →
     (∀ data : List Byte, Completes (exec (.fabricInboundAnswer d e i data) s) (fun t => OnlyFabric d { s with flight := t.flight } t ∧
       ((t.fabric[d]).eps[e]).inFlight = ((s.fabric[d]).eps[e]).inFlight.eraseIdx i ∧
       t.flight = s.flight ++
         [{ q.pkt.reply 0 (if q.pkt.kind == .readReq then sliceBytes data 0 q.pkt.bytes else []) with sentAt := s.now }])) ∧
     (s.now < q.since + 17000 * (s.fabric[d]).epTimeoutUs.toNat → exec (.fabEpTimeout d e i) s = .next s) ∧
     (q.since + 17000 * (s.fabric[d]).epTimeoutUs.toNat ≤ s.now → Completes (exec (.fabEpTimeout d e i) s) (fun t =>
       ((t.fabric[d]).eps[e]).inFlight = ((s.fabric[d]).eps[e]).inFlight.eraseIdx i ∧
       ((t.fabric[d]).eps[e]).refused = satAdd 32 ((s.fabric[d]).eps[e]).refused 1 ∧
       t.flight = s.flight ++ [{ q.pkt.reply 0x0603 [] with sentAt := s.now }])))) ∧
  ((∀ (s : State) (d : Die) (ep : Fin 16) (write : Option (List Byte)) (addr : BitVec 64) (bytes n : Nat) (tag : BitVec 12), Clocked s →
     n = (match write with | some b => b.length | none => bytes) → 32 ≤ n → n ≤ 4096 → n % 32 = 0 →
     (s.region (regionOf d ep)).state = 1 → s.epFenced d ep = false →
     ((s.fabric[d]).eps[ep]).outstanding.any (fun o => o.tag == tag) = false →
     write ≠ none ∨ (((s.fabric[d]).eps[ep]).outstanding.filter (fun o => !o.write)).length < 64 →
     (((s.fabric[d]).eps[ep]).reaches write.isSome addr.toNat n = false →
       Completes (exec (.fabricOutboundRequest d ep write addr bytes tag) s) (fun t => t.flight = s.flight ∧
         ((t.fabric[d]).eps[ep]).refused = satAdd 32 ((s.fabric[d]).eps[ep]).refused 1 ∧
         ((t.fabric[d]).eps[ep]).answers = ((s.fabric[d]).eps[ep]).answers ++ [(tag, 0x0602, [])])) ∧
     (∀ e : Endpoint, ((s.fabric[d]).eps[ep]).reaches write.isSome addr.toNat n = true →
       (s.decodeAddr addr.toNat).endpoint = some e →
       Completes (exec (.fabricOutboundRequest d ep write addr bytes tag) s) (fun t =>
         ((t.fabric[d]).eps[ep]).outstanding = ((s.fabric[d]).eps[ep]).outstanding ++
           [{ tag := tag, write := write.isSome, addr := addr, bytes := n }] ∧
         t.flight = s.flight ++ [{ kind := if write.isSome then .write else .readReq, src := fabEndpoint d ep
                                   dst := if write.isNone && (decide (e.loc.toNat < 42) && decide (36 ≤ e.loc.toNat)) &&
                                       s.creelServes d addr.toNat then sliceEndpoint d (homeSlice (addr.toNat / 256)) else e
                                   vc := if 256 < n then 0 else 1, owner := .fabric, tag := tag.toNat, addr := addr.toNat, bytes := n
                                   data := write.getD [], sentAt := s.now }]))) ∧
   (∀ (s : State) (d : Die) (j : Fin 2) (addr : BitVec 17) (data : List Byte) (be : BitVec 64), Clocked s → s.ingestReady d j = true →
     64 * addr.toNat < 0x600000 →
     (∀ k, be.getLsbD k = true → (s.spindles[ingestSpindle d j]).protects (64 * addr.toNat + k) 1 = false) →
     Completes (exec (.ingestBeat d j addr data be) s) (fun t =>
       t.spindles[ingestSpindle d j] = ((List.range 64).filter (be.getLsbD ·)).foldl (fun x k =>
         (x.putBytes (64 * addr.toNat + k) (sliceBytes data k 1)).noteBad (64 * addr.toNat + k) 1 false) (s.spindles[ingestSpindle d j]) ∧
       (∀ i : Spindle, i ≠ ingestSpindle d j → t.spindles[i] = s.spindles[i]) ∧ t.mem = s.mem)) ∧
   (∀ (s : State) (d : Die) (j : Fin 2) (addr : BitVec 17) (data : List Byte) (be : BitVec 64), Clocked s → s.ingestReady d j = true →
     0x600000 ≤ 64 * addr.toNat →
     Completes (exec (.ingestBeat d j addr data be) s) (fun t => t.spindles = s.spindles ∧ ((t.fabric[d]).ingest[j]).dropSeen = true)) ∧
   (∀ (s : State) (d : Die) (j : Fin 2) (ring : BitVec 5) (handle : Word) (w : RingWiring) (k : Skein), k.val = 4 * d.val → Clocked s →
     s.ingestReady d j = true → ring.toNat % 2 = j.val → ((s.skeins[k]).ring ring.toNat).wiring = some w → w.producer = 4 →
     ((s.skeins[k]).ring ring.toNat).space ((s.skeins[k]).ring ring.toNat).nextPost = true →
     Completes (exec (.ingestPost d j ring handle) s) (fun t => OnlySkein k s t ∧
       ((t.skeins[k]).ring ring.toNat).filled = ((s.skeins[k]).ring ring.toNat).filled ++
         [(((s.skeins[k]).ring ring.toNat).nextPost, handle)] ∧
       ((t.skeins[k]).ring ring.toNat).nextPost = ((s.skeins[k]).ring ring.toNat).nextPost + 1)))

/-- USER_CLOCK_EDGE of a domain that runs: its edge count advances, an enabled flip-flop of a clocked region takes its input, a reset and enabled one
clears, a RAM write is there after the edge, a border signal is seen as driven unless the fence is asserted, and no other element changes; a stopped
domain has no edge.
A multiply-accumulate slice (R332): the operands of two edges before reach the accumulator, as the exact sum wrapped or saturated to 64 bits; a sum
out of range sets the overflow flag; a reset clears the slice. -/
def Obligations.UserClockEdges : Prop :=
  (∀ (s : State) (d : Die) (m : Fin 16), Clocked s →
     ((s.fabric[d]).capRead = false → (s.fabric[d]).capStopped = false → (s.fabric[d]).capArmed = false →
       (∀ x : EdgeInputs, Completes (exec (.userClockEdge d m x) s) (fun t => t = { s with fabric := t.fabric, fresh := s.fresh + 2 ^ 25 } ∧
         t.fabric[d] = (s.fabric[d]).edge m s.now s.fresh x ∧ ∀ e : Die, e ≠ d → t.fabric[e] = s.fabric[e])) ∧
       (∀ q : FlopInput, (s.fabric[d]).stage s.now (q.flop / 153600) = 3 → q.en = true →
         Completes (exec (.userClockEdge d m { slices := [], rams := [], flops := [q], pins := [] }) s) (fun t =>
           (t.fabric[d]).clockEdges[m] = (s.fabric[d]).clockEdges[m] + 1 ∧
           (t.fabric[d]).flops.find? (fun x => x.1 == q.flop) = some (q.flop, if q.rst then false else q.d) ∧
           (∀ n, n ≠ q.flop → (t.fabric[d]).flops.find? (fun x => x.1 == n) = (s.fabric[d]).flops.find? (fun x => x.1 == n)) ∧
           (t.fabric[d]).rams = (s.fabric[d]).rams ∧ (t.fabric[d]).slices = (s.fabric[d]).slices)) ∧
       (∀ (q : RamAccess) (v : Nat), 2 ≤ (s.fabric[d]).stage s.now (ramRegion q.ram) → q.write = some v →
         Completes (exec (.userClockEdge d m { slices := [], rams := [q], flops := [], pins := [] }) s) (fun t =>
           (t.fabric[d]).ramCell q.ram (q.addr % ((s.fabric[d]).ramSize q.ram).1) = v % 2 ^ ((s.fabric[d]).ramSize q.ram).2 ∧
           (∀ n a, n ≠ q.ram ∨ a ≠ q.addr % ((s.fabric[d]).ramSize q.ram).1 → (t.fabric[d]).ramCell n a = (s.fabric[d]).ramCell n a) ∧
           (t.fabric[d]).flops = (s.fabric[d]).flops)) ∧
       (∀ q : SliceInput, (s.fabric[d]).stage s.now (q.slice / 128) = 3 →
         Completes (exec (.userClockEdge d m { slices := [q], rams := [], flops := [], pins := [] }) s) (fun t =>
           (t.fabric[d]).slice q.slice = ((s.fabric[d]).slice q.slice).edge (Config.sliceMode q.slice (s.fabric[d]).frames)
             ((s.fabric[d]).cascade (s.fresh + 2 * q.slice) q.slice) q ∧
           (∀ n, n ≠ q.slice → (t.fabric[d]).slice n = (s.fabric[d]).slice n))) ∧
       (∀ q : BorderSignal, (s.fabric[d]).stage s.now q.region.val = 3 →
         Completes (exec (.userClockEdge d m { slices := [], rams := [], flops := [], pins := [], border := [q] }) s) (fun t =>
           ((s.fabric[d]).fenceUp q.region = false → (t.fabric[d]).borderSeen q.region q.group q.signal = q.value) ∧
           ((s.fabric[d]).fenceUp q.region = true → (t.fabric[d]).border = (s.fabric[d]).border ∧
             (bits (s.fabric[d].regions[q.region]).modes.toNat (2 * q.group.val + 1) (2 * q.group.val) = 1 →
               (t.fabric[d]).borderSeen q.region q.group q.signal = false) ∧
             (bits (s.fabric[d].regions[q.region]).modes.toNat (2 * q.group.val + 1) (2 * q.group.val) = 2 →
               (t.fabric[d]).borderSeen q.region q.group q.signal = true))))) ∧
     (∀ x : EdgeInputs, (s.fabric[d]).capDomain.toNat = m.val → (s.fabric[d]).capStopped = true → exec (.userClockEdge d m x) s = .next s)) ∧
  (∀ (x : Slice) (mode : BitVec 3) (c : BitVec 64) (q : SliceInput) (p0 p1 : BitVec 27 × BitVec 24 × BitVec 2 × Bool),
     (q.reset = true → x.edge mode c q = { slice := x.slice }) ∧
     (q.reset = false → x.pipe = [p0, p1] →
       ((x.edge mode c q).acc = storeSum (mode.getLsbD 2) (sliceSum mode x.acc c p1.1 p1.2.1 p1.2.2.1)) ∧
       ((x.edge mode c q).ovf = (x.ovf || !fits64 (sliceSum mode x.acc c p1.1 p1.2.1 p1.2.2.1))) ∧
       (x.edge mode c q).pipe = [(q.a, q.b, q.op, q.reset), p0]) ∧
     (∀ v : Int, -(2 ^ 63) ≤ v → v < 2 ^ 63 → ∀ sat : Bool, (storeSum sat v).toInt = v) ∧
     (∀ v : Int, 2 ^ 63 ≤ v → (storeSum true v).toInt = 2 ^ 63 - 1) ∧ (∀ v : Int, v < -(2 ^ 63) → (storeSum true v).toInt = -(2 ^ 63)))

/-- DONE_HIGH starts the release of a configured die; RELEASE_OUTPUTS, RELEASE_WRITE_ENABLES and RELEASE_RESETS follow at their gaps, and with the last
every ready region is online and the die is released (R344).
A region's clock switch and power off: a native region switches at once, a Basez one requests its fence first; a region that powers off is marked, and
one that is empty is off at once. -/
def Obligations.ReleaseAndRegionSwitches : Prop :=
  (∀ (s : State) (d : Die),
     (s.cfg.doneHeld = false → (s.fabric[d]).configured = true → (s.fabric[d]).release = .none → (s.fabric[d]).released = false →
       Completes (exec (.doneHigh d) s) (fun t => (t.fabric[d]).release = .done ∧ (t.fabric[d]).releaseAt = s.now ∧
         t.cfg = { s.cfg with doneLine := true } ∧
         ∀ i : Fin 16, (t.region (regionOf d i)).state = if (s.region (regionOf d i)).state = 3 then 4 else (s.region (regionOf d i)).state)) ∧
     ((s.fabric[d]).release = .done → (s.fabric[d]).releaseAt + 170 * (s.fabric[d]).gap ≤ s.now →
       Completes (exec (.releaseOutputs d) s) (fun t => OnlyFabric d s t ∧ (t.fabric[d]).release = .outputs)) ∧
     ((s.fabric[d]).release = .outputs → (s.fabric[d]).releaseAt + 170 * (2 * (s.fabric[d]).gap) ≤ s.now →
       Completes (exec (.releaseWriteEnables d) s) (fun t => OnlyFabric d s t ∧ (t.fabric[d]).release = .enables)) ∧
     ((s.fabric[d]).release = .enables → (s.fabric[d]).releaseAt + 170 * (3 * (s.fabric[d]).gap) ≤ s.now →
       Completes (exec (.releaseResets d) s) (fun t => (t.fabric[d]).release = .resets ∧ (t.fabric[d]).released = true ∧
         ∀ i : Fin 16, (t.region (regionOf d i)).state = if (s.region (regionOf d i)).state = 4 then 1 else (s.region (regionOf d i)).state))) ∧
  (∀ (s : State) (r : Region),
     (∀ clk : BitVec 4, (s.dies[regionDie r]).basez.getLsbD (regionIdx r).val = false →
       exec (.regionClockSwitch r clk) s = .next (s.modRegion r (fun x => { x with clkSel := clk }))) ∧
     (∀ clk : BitVec 4, (s.dies[regionDie r]).basez.getLsbD (regionIdx r).val = true →
       (s.dies[regionDie r]).fenced.getLsbD (regionIdx r).val = false → (s.dies[regionDie r]).draining.getLsbD (regionIdx r).val = false →
       Completes (exec (.regionClockSwitch r clk) s) (fun t => (t.region r).clkSel = (s.region r).clkSel ∧
         (t.region r).switching = some clk ∧ (t.dies[regionDie r]).draining.getLsbD (regionIdx r).val = true)) ∧
     ((s.region r).state ≠ 5 → (s.region r).poweringOff = false →
       Completes (exec (.regionPowerOff r) s) (fun t => (t.region r).power = false ∧
         ((s.region r).fn.st = .on → (t.region r).fn.st = .draining ∧ (t.region r).fn.since = s.now) ∧
         ((s.region r).state ≠ 0 → (t.region r).poweringOff = true ∧ (t.region r).state = (s.region r).state) ∧
         ((s.region r).state = 0 → s.needsDrain r = false → (t.region r).state = 5 ∧ (t.region r).poweringOff = false))))

/-- The sequence of a partial load (R349): the fence asserts and the region's requests are answered, two fcc later its clock is gated, its frames are
written, two fcc after them it is ungated, and 4g fcc later the fence lifts and the region is online. -/
def Obligations.RegionLoadSequence : Prop :=
  ∀ (s : State) (r : Region),
    ((s.region r).load = .none → s.loading r = true ∨ ((s.region r).poweringOff = true ∧ (s.region r).state ≠ 5) →
      s.needsDrain r = false ∨ (s.region r).state ≠ 1 →
      Completes (exec (.regionFenceAssert r) s) (fun t => (t.region r).state = 2 ∧ (t.region r).load = .fenced ∧
        (t.region r).loadAt = s.now ∧ ((t.fabric[regionDie r]).eps[regionIdx r]).inFlight = [] ∧
        (∀ q ∈ ((s.fabric[regionDie r]).eps[regionIdx r]).inFlight, { q.pkt.reply 0x0601 [] with sentAt := s.now } ∈ t.flight))) ∧
    ((s.region r).load = .fenced → (s.region r).loadAt + 340 ≤ s.now →
      (s.loading r = true ∨ (s.region r).poweringOff = false →
        Completes (exec (.regionClockGate r) s) (fun t => (t.region r).state = 3 ∧ (t.region r).load = .gated ∧ (t.region r).loadAt = s.now ∧
          t = { s with fabric := t.fabric })) ∧
      (s.loading r = false → (s.region r).poweringOff = true →
        Completes (exec (.regionClockGate r) s) (fun t => (t.region r).state = 5 ∧ (t.region r).load = .none ∧
          (∀ x ∈ (t.fabric[regionDie r]).frames, frameOf r x.1 = false) ∧
          (∀ x ∈ (t.fabric[regionDie r]).flops, x.1 / 153600 ≠ r.val % 16) ∧ t.cfg.loaded.getLsbD r.val = false))) ∧
    (∀ img : StagedImage, s.cfg.staged = some img → (s.region r).load = .gated → s.loading r = true →
      (s.region r).loadAt + 10 * (80 * (regionRec img.plain r).2.2.length) ≤ s.now →
      Completes (exec (.regionFramesWritten r) s) (fun t => (t.region r).load = .written ∧ (t.region r).loadAt = s.now ∧
        (t.region r).clkSel = BitVec.ofNat 4 (regionRec img.plain r).1 ∧ (t.region r).modes = BitVec.ofNat 32 (regionRec img.plain r).2.1 ∧
        (t.fabric[regionDie r]).frames =
          (s.fabric[regionDie r]).frames.filter (fun x => !frameOf r x.1) ++ (regionRec img.plain r).2.2)) ∧
    ((s.region r).load = .written → (s.region r).loadAt + 340 ≤ s.now →
      Completes (exec (.regionClockUngate r) s) (fun t => (t.region r).state = 4 ∧ (t.region r).load = .ungated ∧ (t.region r).loadAt = s.now)) ∧
    (∀ img : StagedImage, s.cfg.staged = some img → (s.region r).load = .ungated →
      (s.region r).loadAt + 170 * (4 * (s.fabric[regionDie r]).gap) ≤ s.now →
      Completes (exec (.regionFenceLift r) s) (fun t => (t.region r).state = 1 ∧ (t.region r).load = .none ∧
        (img.left &&& ~~~(1#64 <<< r.val) = 0 → t.cfg.staged = none ∧ t.cfg.state = img.prior ∧
          t.cfg.loadsPartial = satAdd 16 s.cfg.loadsPartial 1) ∧
        (img.left &&& ~~~(1#64 <<< r.val) ≠ 0 →
          t.cfg.staged = some { img with left := img.left &&& ~~~(1#64 <<< r.val) })))

/-- CAPTURE_ARM, CAPTURE_STOP, CAPTURE_READOUT_COMPLETE and CAPTURE_GO (R353, R354): the domain stops after its e-th edge and its regions go offline, the
readout stores the record at the destination and nowhere else, and the domain runs again at once or on request. -/
def Obligations.CaptureCommands : Prop :=
  ∀ (s : State) (d : Die),
    ((s.fabric[d]).capArmed = false → (s.fabric[d]).capRead = false → (s.fabric[d]).capStopped = false →
      Completes (exec (.captureArm d) s) (fun t => OnlyFabric d s t ∧ (t.fabric[d]).capArmed = true ∧ (t.fabric[d]).capCount = 0)) ∧
    ((s.fabric[d]).capArmed = true → max 1 (s.fabric[d]).capEdge.toNat ≤ (s.fabric[d]).capCount →
      Completes (exec (.captureStop d) s) (fun t => (t.fabric[d]).capArmed = false ∧ (t.fabric[d]).capRead = true ∧
        ∀ i : Fin 16, (s.region (regionOf d i)).clkSel = (s.fabric[d]).capDomain → (s.region (regionOf d i)).state = 1 →
          (t.region (regionOf d i)).state = 6)) ∧
    (∀ frames : List Byte, Canonical s → (s.fabric[d]).capRead = true →
      s.inMemory (s.fabric[d]).capDst.toNat (max 1 frames.length) = true →
      (s.fabric[d]).capLen = 0 ∨ frames.length ≤ (s.fabric[d]).capLen →
      Completes (exec (.captureReadoutComplete d frames) s) (fun t =>
        (t.fabric[d]).capBytes = BitVec.ofNat 32 frames.length ∧ (t.fabric[d]).capRead = false ∧
        ((s.fabric[d]).capResume = false → (t.fabric[d]).capStopped = true) ∧
        ((s.deviceWrite (s.fabric[d]).capDst.toNat frames).2 = 0 → ∀ i, i < frames.length → Cells.get memDefault t.mem ((s.fabric[d]).capDst.toNat + i) = frames.getD i 0) ∧
        (∀ a, a < (s.fabric[d]).capDst.toNat ∨ (s.fabric[d]).capDst.toNat + frames.length ≤ a → SameByte s t a))) ∧
    (∀ frames : List Byte, (s.fabric[d]).capRead = true →
      s.inMemory (s.fabric[d]).capDst.toNat (max 1 frames.length) = false ∨
        ((s.fabric[d]).capLen ≠ 0 ∧ (s.fabric[d]).capLen < frames.length) →
      Completes (exec (.captureReadoutComplete d frames) s) (fun t => (t.fabric[d]).capStopped = true ∧ (t.fabric[d]).err = true ∧
        ((s.fabric[d]).code = 0 → (t.fabric[d]).code = 0x0606) ∧ t.mem = s.mem)) ∧
    ((s.fabric[d]).capStopped = true →
      Completes (exec (.captureGo d) s) (fun t => (t.fabric[d]).capStopped = false ∧ (t.fabric[d]).capRead = false ∧
        ∀ i : Fin 16, (s.region (regionOf d i)).clkSel = (s.fabric[d]).capDomain → (s.region (regionOf d i)).state = 6 →
          (t.region (regionOf d i)).state = 1))

/-- BOOT_ACTION and PROG_N_RISE act on CFG_BOOT (R367, R373): source 1 stages the image of the primary area, 2 waits, and the others let DONE go.
PROG_N_LOW clears the fabric of every die and drives DONE low.
IMAGE_STAGED, AUTHENTICATION_PASS and CHECK_PASS pass an image on when their checks pass; a first check that fails leaves its code and offset and ends
the image (R365, R369).
WRITE_PASS of a full image whose regions need no drain configures every die and waits for DONE; of a partial image it starts the regions' sequences.
CFG_DONE_TIMEOUT records 0x064C and nothing more. -/
def Obligations.FabricImages : Prop :=
  ((∀ s : State, s.cfg.bootDue = true → s.dist.alive = true → s.cfg.staged = none →
     Completes (exec .bootAction s) (fun t => t.cfg.bootDue = false ∧ t = { s with cfg := t.cfg } ∧
       (s.cfg.boot = 1 → (t.cfg.staged.map (fun i => (i.source, i.pass))) = some (.primary, .staging) ∧ t.cfg.state = 1) ∧
       (s.cfg.boot = 2 → t.cfg.staged = none ∧ t.cfg.doneHeld = s.cfg.doneHeld) ∧
       (s.cfg.boot = 0 → t.cfg.staged = none ∧ t.cfg.doneHeld = false))) ∧
   (∀ s : State, s.pwr.progLow = false → s.inFullReset = false →
     Completes (exec .progNLow s) (fun t => t.cfg.state = 0 ∧ t.cfg.doneHeld = true ∧ t.cfg.doneLine = false ∧ t.cfg.loaded = 0 ∧
       t.cfg.staged = none ∧ t.pwr.progLow = true ∧ t.pwr.progSince = s.now ∧
       (∀ d : Die, (t.fabric[d]).frames = [] ∧ (t.fabric[d]).flops = [] ∧ (t.fabric[d]).configured = false) ∧
       (∀ r : Region, (t.region r).state = if (s.region r).state = 5 then 5 else 0) ∧ t.mem = s.mem)) ∧
   (∀ s : State, s.pwr.progLow = true →
     Completes (exec .progNRise s) (fun t => t.pwr.progLow = false ∧
       (s.dist.alive = false → t.cfg = { s.cfg with bootDue := true }) ∧
       (s.dist.alive = true → t.cfg.bootDue = false) ∧
       (s.dist.alive = true → s.cfg.boot = 1 → (t.cfg.staged.map (·.source)) = some .primary ∧ t.cfg.state = 1)))) ∧
  (∀ (s : State) (img : StagedImage), s.cfg.staged = some img →
     (∀ (bytes : List Byte) (toFlash : Bool), img.pass = .staging → img.source = .load toFlash → bytes = img.bytes →
       imgCheckForm bytes 0x18000000 = (0, 0) → s.imgCheckKeys bytes false = (0, 0) →
       Completes (exec (.imageStaged true) s) (fun t =>
         t.cfg.staged = some { img with bytes := bytes, pass := .staged } ∧ t.cfg.state = 2)) ∧
     (∀ (bytes : List Byte), img.pass = .staging → img.source = .primary ∨ img.source = .golden →
       bytes = s.flashRead (s.imageFlash img.source)
         (min (s.imageArea img.source) (max 128 (imgHeader (s.flashRead (s.imageFlash img.source) 128)).total)) →
       imgCheckForm bytes (s.imageArea img.source) = (0, 0) → s.imgCheckKeys bytes (img.source == .golden) = (0, 0) →
       Completes (exec (.imageStaged true) s) (fun t =>
         t.cfg.staged = some { img with bytes := bytes, pass := .staged } ∧ t.cfg.state = 2 ∧ t = { s with cfg := t.cfg })) ∧
     (img.pass = .staging → img.source = .primary → s.cfg.code = 0 →
       Completes (exec (.imageStaged false) s) (fun t => t.cfg.err = true ∧ t.cfg.code = 0x064D ∧
         (s.cfg.failMode = true → (t.cfg.staged.map (·.source)) = some .golden ∧ t.cfg.state = 1) ∧
         (s.cfg.failMode = false → t.cfg.staged = none ∧ t.cfg.state = 7 ∧ t.cfg.doneHeld = true))) ∧
     (∀ (plain : List Byte) (f : ImgFault), img.pass = .staged → s.imgCheckKeys img.bytes (img.source == .golden) = (0, 0) →
       s.imgAuthenticate img.bytes = (f, plain) →
       Completes (exec .authenticationPass s) (fun t =>
         (f.1 = 0 → t.cfg.staged = some { img with pass := .authentic, plain := plain } ∧ t.cfg.state = 3 ∧ t = { s with cfg := t.cfg }) ∧
         (∀ toFlash : Bool, f.1 ≠ 0 → img.source = .load toFlash → img.req = none → s.cfg.code = 0 → t.cfg.staged = none ∧
           t.cfg.state = img.prior ∧ t.cfg.code = f.1 ∧ t.cfg.failOffset = BitVec.ofNat 32 f.2 ∧ t.fabric = s.fabric))) ∧
     (∀ vccio design : Bool, img.pass = .authentic → img.source ≠ .load true →
       imgCheckRecords img.bytes img.plain (Config.freeWord s.fresh).toNat = (0, 0) →
       imgCheckDesign img.bytes img.plain vccio design (Config.freeWord s.fresh).toNat = (0, 0) → s.imgCheckPartial img.bytes = (0, 0) →
       Completes (exec (.checkPass vccio design) s) (fun t =>
         t.cfg.staged = some { img with pass := .checked } ∧ t.cfg.state = 4 ∧ t.fabric = s.fabric)) ∧
     (∀ vccio design : Bool, img.pass = .authentic → img.source = .load true → img.logged = true →
       imgCheckRecords img.bytes img.plain (Config.freeWord s.fresh).toNat = (0, 0) →
       Completes (exec (.checkPass vccio design) s) (fun t => t.cfg.staged = none ∧ t.cfg.state = img.prior ∧ t.fabric = s.fabric ∧
         t.flash = Cells.write 0xFF s.flash s.cfg.primary.toNat img.bytes))) ∧
  ((∀ (s : State) (img : StagedImage), s.cfg.staged = some img → img.pass = .checked → img.logged = true →
     ((imgHeader img.bytes).partialImg = false → (∀ r : Region, s.needsDrain r = false ∨ (s.region r).state ≠ 1) →
       Completes (exec .writePass s) (fun t => t.cfg.staged = none ∧ t.cfg.state = 5 ∧ t.cfg.doneAt = s.now ∧
         t.cfg.loadsFull = satAdd 16 s.cfg.loadsFull 1 ∧ t.cfg.loaded = BitVec.allOnes 64 ∧
         t.cfg.version = (imgHeader img.bytes).version ∧ t.cfg.digest = imgDigest img.bytes ∧
         (∀ d : Die, (t.fabric[d]).configured = true ∧ (t.fabric[d]).released = false ∧ (t.fabric[d]).release = .none) ∧
         (∀ r : Region, (t.region r).state = 3 ∧ (t.region r).clkSel = BitVec.ofNat 4 (regionRec img.plain r).1))) ∧
     ((imgHeader img.bytes).partialImg = true →
       Completes (exec .writePass s) (fun t => t.fabric = s.fabric ∧ t.cfg.state = 4 ∧ t.cfg.progress = 0 ∧
         t.cfg.staged = some { img with pass := .written, left := (imgHeader img.bytes).regions, logged := true }))) ∧
   (∀ s : State, s.cfg.state = 5 → s.cfg.doneLine = false →
     (s.now < s.cfg.doneAt + 17000000 * s.cfg.doneTimeoutMs.toNat → exec .cfgDoneTimeout s = .next s) ∧
     (s.cfg.doneAt + 17000000 * s.cfg.doneTimeoutMs.toNat ≤ s.now →
       exec .cfgDoneTimeout s = .next { s with cfg := { s.cfg with err := true, code := if s.cfg.code = 0 then 0x064C else s.cfg.code } })))

/-- The element-wise vector instructions: what each makes of its elements, with one rounding or clamp (R161, R166, R168 to R170).
An integer result is clamped, and only then reported as a saturation (R169); a shift by zero or to the left of a number that fits is exact, and a
shift to the right rounds to the nearest multiple, ties to even.
How a vector instruction completes (R109, R111, R180, R190): its results are on their way, the engine counts it and goes to the next word; in its
completion cycle what it reports counts, and a masked exception halts the engine and fails the step with that exception's code. -/
def Obligations.VectorElementwise : Prop :=
  (∀ (u s : State) (i : Spindle) (n : VIns) (x : SpindleState), s = reported u i →
     let fl := fun (g : Val → Val → Val) (h : Int → Int → Int) (ss : List Src) (j : Nat) =>
       if isF n.ty then floatOut (tyFmt n.ty) [(src ss 0).val n.ty j, (src ss 1).val n.ty j]
           (g ((src ss 0).val n.ty j) ((src ss 1).val n.ty j))
         else intOut n.ty (bit n.fn 0) (h ((src ss 0).int n.ty (bit n.fn 0) j) ((src ss 1).int n.ty (bit n.fn 0) j))
     (Issues s i 1 n x → ElementResult (.vAdd i) u s i n [n.s1, n.s2] (fl Val.add (· + ·))) ∧
     (Issues s i 2 n x → ElementResult (.vSub i) u s i n [n.s1, n.s2] (fl Val.sub (· - ·))) ∧
     (Issues s i 3 n x → ElementResult (.vMul i) u s i n [n.s1, n.s2] (fl Val.mul (· * ·))) ∧
     (Issues s i 4 n x → ElementResult (.vFma i) u s i n [n.s1, n.s2, n.s3] (fun ss j =>
       if isF n.ty then floatOut (tyFmt n.ty) [(src ss 0).val n.ty j, (src ss 1).val n.ty j, (src ss 2).val n.ty j]
           (((src ss 0).val n.ty j).mul ((src ss 1).val n.ty j) |>.add ((src ss 2).val n.ty j))
         else intOut n.ty (bit n.fn 0) ((src ss 0).int n.ty (bit n.fn 0) j * (src ss 1).int n.ty (bit n.fn 0) j +
           (src ss 2).int n.ty (bit n.fn 0) j))) ∧
     (Issues s i 5 n x → ElementResult (.vMin i) u s i n [n.s1, n.s2] (fl Val.min2 min)) ∧
     (Issues s i 6 n x → ElementResult (.vMax i) u s i n [n.s1, n.s2] (fl Val.max2 max)) ∧
     (Issues s i 7 n x → ElementResult (.vUnary i) u s i n [n.s1] (fun ss j =>
       if isF n.ty then floatOut (tyFmt n.ty) [(src ss 0).val n.ty j]
           (if n.fn % 4 = 1 ∨ (n.fn % 4 = 0 ∧ ((src ss 0).val n.ty j).neg = true) then ((src ss 0).val n.ty j).flip
             else (src ss 0).val n.ty j)
         else intOut n.ty false (if n.fn % 4 = 0 then (((src ss 0).int n.ty false j).natAbs : Int)
           else if n.fn % 4 = 1 then -(src ss 0).int n.ty false j else (src ss 0).int n.ty false j))) ∧
     (Issues s i 0xA n x → ElementResult (.vShift i) u s i n [n.s1] (fun ss j =>
       intOut n.ty false (shiftInt ((src ss 0).int n.ty false j) (sbits 7 (n.fn % 128))))) ∧
     (Issues s i 0x12 n x → ElementResult (.vDiv i) u s i n [n.s1, n.s2] (fl Val.div (fun a _ => a))) ∧
     (Issues s i 0x13 n x → ElementResult (.vSqrt i) u s i n [n.s1] (fun ss j =>
       floatOut (tyFmt n.ty) [(src ss 0).val n.ty j] ((src ss 0).val n.ty j).sqrt)) ∧
     (Issues s i 0x14 n x → ElementResult (.vRsqrt i) u s i n [n.s1] (fun ss j =>
       floatOut fp32 [(src ss 0).val 0 j] (rsqrtVal ((src ss 0).val 0 j)))) ∧
     (Issues s i 0x15 n x → ElementResult (.vLn i) u s i n [n.s1] (fun ss j =>
       floatOut fp32 [(src ss 0).val 0 j] (lnVal ((src ss 0).val 0 j)))) ∧
     (Issues s i 0x19 n x → ElementResult (.vBcast i) u s i n [n.s1] (fun ss _ =>
       { code := if n.fn % 256 < tyCount n.ty then (src ss 0).raw n.ty (n.fn % 256) else freeBits (s.fresh + 2048) (tyBytes n.ty) })) ∧
     (Issues s i 0x1A n x → ElementResult (.vPerm i) u s i n [n.s1, n.s2] (fun ss j =>
       { code := (src ss 0).raw n.ty ((src ss 1).raw n.ty j % tyCount n.ty) })) ∧
     (Issues s i 0x10 n x → ∃ rep : List Src → Nat → NumRep, ElementResult (.vAct i) u s i n [n.s1] (fun ss j =>
       { code := (fp32.encode (activate (n.fn % 8) ((src ss 0).val 0 j)).1).1, rep := rep ss j })) ∧
     (Issues s i 0x11 n x → ∃ rep : List Src → Nat → NumRep, ElementResult (.vGate i) u s i n [n.s1, n.s2] (fun ss j =>
       { code := (fp32.encode ((activate (n.fn % 8) ((src ss 0).val 0 j)).1.mul ((src ss 1).val 0 j))).1, rep := rep ss j }))) ∧
  (∀ (ty : Nat) (u : Bool) (v : Int), ty = 4 ∨ ty = 5 ∨ ty = 6 →
     ((intRange ty u).1 ≤ v → v ≤ (intRange ty u).2 → intElem ty u (intOut ty u v).code = v ∧ (intOut ty u v).rep = {}) ∧
     ((intRange ty u).2 < v → intElem ty u (intOut ty u v).code = (intRange ty u).2 ∧ (intOut ty u v).rep.flags.getLsbD 3 = true ∧
       (intOut ty u v).rep.sat = 1) ∧
     (v < (intRange ty u).1 → intElem ty u (intOut ty u v).code = (intRange ty u).1 ∧ (intOut ty u v).rep.flags.getLsbD 3 = true ∧
       (intOut ty u v).rep.sat = 1) ∧
     (∀ k : Nat, shiftInt v k = v * 2 ^ k) ∧
     (∀ k : Nat, 0 < k → 2 * (v - shiftInt v (-k) * 2 ^ k).natAbs ≤ 2 ^ k ∧
       (2 * (v - shiftInt v (-k) * 2 ^ k).natAbs = 2 ^ k → shiftInt v (-k) % 2 = 0))) ∧
  ((∀ (s : State) (i : Spindle) (n : VIns) (d : VDone), d.halts = false → d.stalls = false →
       OnlySpindle i { s with fresh := s.fresh + 4096 } (s.vecDone i n d) ∧
       ((s.vecDone i n d).spindles[i]).num = d.x.num ∧
       ((s.vecDone i n d).spindles[i]).scratch = d.x.scratch ∧
       ((s.vecDone i n d).spindles[i]).vec.v = d.x.vec.v ∧ ((s.vecDone i n d).spindles[i]).vec.mask = d.x.vec.mask ∧
       ((s.vecDone i n d).spindles[i]).vec.regWrites = d.x.vec.regWrites ∧
       ((s.vecDone i n d).spindles[i]).vec.memWrites = d.x.vec.memWrites ∧
       ((s.vecDone i n d).spindles[i]).vec.maskWrites = d.x.vec.maskWrites ∧
       ((s.vecDone i n d).spindles[i]).vec.adr = d.x.vec.adr ∧
       ((s.vecDone i n d).spindles[i]).vec.issued = satAdd 32 d.x.vec.issued 1 ∧
       ((s.vecDone i n d).spindles[i]).vec.cycle = d.x.vec.cycle + d.interval.getD n.interval ∧
       (d.rep = {} → ((s.vecDone i n d).spindles[i]).vec.reports = d.x.vec.reports) ∧
       (d.rep ≠ {} → ∃ r : VecReport, r.rep = d.rep ∧
         r.due = (match d.interval with | some v => d.x.vec.cycle + (v + 6) | none => d.x.vec.cycle + n.latency) ∧
         ((s.vecDone i n d).spindles[i]).vec.reports = addByDue (·.due) r d.x.vec.reports) ∧
       (d.jumped = true → ((s.vecDone i n d).spindles[i]).vec.pc = d.x.vec.pc) ∧
       (d.jumped = false → (∀ l ∈ d.x.vec.active.head?, d.x.vec.pc.toNat ≠ l.stop) →
         ((s.vecDone i n d).spindles[i]).vec.pc = d.x.vec.pc + 1 ∧ ((s.vecDone i n d).spindles[i]).vec.loops = d.x.vec.loops) ∧
       (d.jumped = false → ∀ l ls, d.x.vec.active = l :: ls → d.x.vec.pc.toNat = l.stop → 1 < l.left →
         ((s.vecDone i n d).spindles[i]).vec.pc = BitVec.ofNat 13 l.start ∧
         ((s.vecDone i n d).spindles[i]).vec.loops.head? = some { l with left := l.left - 1 })) ∧
   (∀ (s : State) (i : Spindle), (∀ r ∈ (s.spindles[i]).vec.reports, (s.spindles[i]).vec.cycle < r.due) → reported s i = s) ∧
   (∀ (s : State) (i : Spindle) (r : VecReport) (l : List VecReport), (s.spindles[i]).vec.reports = r :: l →
     r.due ≤ (s.spindles[i]).vec.cycle → (∀ q ∈ l, (s.spindles[i]).vec.cycle < q.due) →
     (r.rep.fault (s.spindles[i]).num.mask = 0 → OnlySpindle i s (reported s i) ∧
       (reported s i).spindles[i] = { s.spindles[i] with
         num := (s.spindles[i]).num.take r.rep 0, vec := { (s.spindles[i]).vec with reports := l } }) ∧
     (r.rep.fault (s.spindles[i]).num.mask ≠ 0 → s.stepOpen = true → s.step.cause = 0 →
       (reported s i).step.faulted = true ∧ (reported s i).step.cause = r.rep.fault (s.spindles[i]).num.mask ∧
       ((reported s i).spindles[i]).vec.running = false ∧ ((reported s i).spindles[i]).barred = true)) ∧
   (∀ (r : NumRep) (m : BitVec 7) (b : Nat), b < 7 → r.flags.getLsbD b = true → m.getLsbD b = true →
     (∀ a : Nat, a < b → ¬ (r.flags.getLsbD a = true ∧ m.getLsbD a = true)) → r.fault m = BitVec.ofNat 16 (0x0301 + b)))

/-- Operands of vector instructions (R162 to R165): a register reads as it stands where nothing is on its way to it; a memory operand lies inside its path
at the register's place, aligned, and its post-update wraps the pointer; a byte that cannot be read is cause 6, a bad place cause 2. -/
def Obligations.VectorOperands : Prop :=
  (∀ (x : SpindleState) (a n align o : Nat) (disp : Int), x.place a n align disp = .ok o →
    ∃ (base len : Nat) (h : a < 15), adrPath a = some (base, len) ∧
      (o : Int) = base + (x.vec.adr[a]).base + (x.vec.adr[a]).ptr + disp ∧ base ≤ o ∧ o + n ≤ base + len ∧
      (o - base) % align = 0) ∧
  (∀ (x : SpindleState) (a n align : Nat) (disp : Int) (e : VFault), x.place a n align disp = .error e → e = .cause 2) ∧
  (∀ (x : SpindleState) (free s n align o : Nat), x.place (specAdr s) n align 0 = .ok o →
    (x.bad o n = false → ∃ bs, x.memOperand free s n align = .ok (bs, x.post s) ∧ bs.length = n ∧
      ∀ k, k < n → bs[k]? = some (if x.unsettled (o + k) = true then Config.freeByte (free + k)
        else x.byte (Config.freeByte (free + k)) (o + k))) ∧
    (x.bad o n = true → x.memOperand free s n align = .error (.cause 6))) ∧
  (∀ (x : SpindleState) (s : Nat) (h : specAdr s < 15),
    (specMem s = true → bit s 4 = true →
      ((x.post s).vec.adr[specAdr s]).ptr = (if (x.vec.adr[specAdr s]).length = 0 then
        (x.vec.adr[specAdr s]).ptr + (x.vec.adr[specAdr s]).step
        else ((x.vec.adr[specAdr s]).ptr + (x.vec.adr[specAdr s]).step) % (x.vec.adr[specAdr s]).length)) ∧
    (specMem s = false ∨ bit s 4 = false → x.post s = x)) ∧
  (∀ (x : SpindleState) (c : VCtx) (k s : Nat), specMem s = false → (∀ w ∈ x.vec.regWrites, w.reg ≠ specReg s) →
    x.source c k s = .ok (x.vec.v[specReg s], !x.vec.byLd.getLsbD (specReg s).val, x)) ∧
  (∀ (x : SpindleState) (c : VCtx) (k s : Nat) (bs : List Byte) (y : SpindleState), specMem s = true →
    x.memOperand (c.free + 2048 + 256 * k) s 256 c.ins.align = .ok (bs, y) → x.source c k s = .ok (BitVec.ofNat 2048 (leNat bs), false, y))

/-- The selecting and moving vector instructions (R161, R163, R166, R168 to R174). CMP sends a mask whose active bits are its comparison; SEL takes each
element from the first source where active and from the second elsewhere; LOGIC combines bits; REDUCE puts the tree's result into element 0 and zero
into the others; CVT converts the half that it names; MOVS moves with a scale; LD and ST move bytes unchanged between memory and a register and are
fault cause 1 where memory is not named; LDSD loads a store descriptor slot. Each result is on its way to its destination, and inactive elements of it
keep what stands there. -/
def Obligations.VectorSelects : Prop :=
  ∀ (u s : State) (i : Spindle) (n : VIns) (x y : SpindleState) (ss : List Src), s = reported u i →
    let c := vecCtx s i n
    (Issues s i 8 n x → pathsOk i [n.s1, n.s2] = true → readSrcs c [n.s1, n.s2] 0 x = .ok (ss, y) →
      ∃ w : MaskWrite, exec (.vCmp i) u = .next (s.vecDone i n
          { x := { y with vec := { y.vec with maskWrites := addByDue (·.due) w y.vec.maskWrites } } }) ∧
        w.reg.val = n.dst % 4 ∧ w.due = y.vec.cycle + n.latency ∧
        ∀ j b, j < tyCount n.ty → b < tyBytes n.ty →
          w.set.getLsbD (tyBytes n.ty * j + b) = active c y j ∧
          w.bits.getLsbD (tyBytes n.ty * j + b) = cmpCode (n.fn % 8)
            (if isF n.ty then Val.cmp ((src ss 0).val n.ty j) ((src ss 1).val n.ty j)
             else some (compare ((src ss 0).int n.ty false j) ((src ss 1).int n.ty false j)))) ∧
    (Issues s i 9 n x → pathsOk i [n.s1, n.s2] = true → readSrcs c [n.s1, n.s2] 0 x = .ok (ss, y) → Takes c y (tyCount n.ty) →
      ∃ z, exec (.vSel i) u = .next (s.vecDone i n { x := z }) ∧ Sends c y z (tyCount n.ty) (fun _ => true)
        (fun j => if active c y j then (src ss 0).raw n.ty j else (src ss 1).raw n.ty j)) ∧
    (Issues s i 0xB n x → pathsOk i [n.s1, n.s2] = true → readSrcs c [n.s1, n.s2] 0 x = .ok (ss, y) → Takes c y (tyCount n.ty) →
      ∃ z, exec (.vLogic i) u = .next (s.vecDone i n { x := z }) ∧ Sends c y z (tyCount n.ty) (active c y)
        (fun j => if n.fn % 4 = 0 then (src ss 0).raw n.ty j &&& (src ss 1).raw n.ty j
          else if n.fn % 4 = 1 then (src ss 0).raw n.ty j ||| (src ss 1).raw n.ty j
          else if n.fn % 4 = 2 then (src ss 0).raw n.ty j ^^^ (src ss 1).raw n.ty j
          else (src ss 0).raw n.ty j &&& (2 ^ (8 * tyBytes n.ty) - 1 - (src ss 1).raw n.ty j))) ∧
    (Issues s i 0x18 n x → readSrcs c [n.s1] 0 x = .ok (ss, y) → Takes c y (tyCount n.ty) →
      ∃ z rep, exec (.vReduce i) u = .next (s.vecDone i n { x := z, rep := rep }) ∧ Sends c y z (tyCount n.ty) (fun _ => true)
        (fun j => if j = 0 then (reduce n.ty (n.fn % 4) (c.maskOf y) (src ss 0)).code else 0)) ∧
    (∀ k so dd : Nat, k = min (tyCount (n.fn % 8)) (tyCount n.ty) →
      so = (if bit n.fn 3 = true ∧ tyCount n.ty < tyCount (n.fn % 8) then tyCount (n.fn % 8) / 2 else 0) →
      dd = (if bit n.fn 3 = true ∧ tyCount (n.fn % 8) < tyCount n.ty ∧ specMem n.dst = false then tyCount n.ty / 2 else 0) →
      Issues s i 0x22 n x → readSrcs c [n.s1] 0 x = .ok (ss, y) → Takes c y (dd + k) →
      ∃ z rep, exec (.vCvt i) u = .next (s.vecDone i n { x := z, rep := rep }) ∧
        Sends c y z (dd + k) (fun j => decide (j < dd) || active c y j)
          (fun j => if j < dd then 0 else (convert n.ty ((src ss 0).any (n.fn % 8) (so + (j - dd)))).code)) ∧
    (Issues s i 0x25 n x → readSrcs c [n.s1] 0 x = .ok (ss, y) → Takes c y (min (tyCount (bits n.fn 4 2)) (tyCount n.ty)) →
      ∃ z rep, exec (.vMovs i) u = .next (s.vecDone i n { x := z, rep := rep }) ∧
        Sends c y z (min (tyCount (bits n.fn 4 2)) (tyCount n.ty)) (active c y)
          (fun j => (moveScaled n.ty (bits n.fn 4 2) ((src ss 0).any (bits n.fn 4 2) j)
            (laneShift (y.vec.scale[n.fn % 4]) (if bit n.fn 5 then j else 0))).code)) ∧
    (Issues s i 0x20 n x →
      (specMem n.s1 = false → exec (.vLd i) u = .next (s.vecFault i 1)) ∧
      (∀ bs, specMem n.s1 = true → x.memOperand (s.fresh + 2048) n.s1 256 256 = .ok (bs, y) → Takes c y (tyCount n.ty) →
        ∃ z, exec (.vLd i) u = .next (s.vecDone i n { x := z }) ∧ Sends c y z (tyCount n.ty) (active c y)
          (fun j => field bs (tyBytes n.ty * j) (tyBytes n.ty)))) ∧
    (Issues s i 0x21 n x →
      (specMem n.dst = false → exec (.vSt i) u = .next (s.vecFault i 1)) ∧
      (specMem n.dst = true → readSrcs c [n.s1] 0 x = .ok (ss, y) → Takes c y (tyCount n.ty) →
        ∃ z, exec (.vSt i) u = .next (s.vecDone i n { x := z }) ∧ Sends c y z (tyCount n.ty) (active c y)
          (fun j => (src ss 0).raw n.ty j))) ∧
    (∀ bs, Issues s i 0x24 n x → specMem n.s1 = true → x.memOperand (s.fresh + 2048) n.s1 64 64 = .ok (bs, y) →
      exec (.vLdsd i) u = .next (s.vecDone i n { x := { y with vec := { y.vec with
        slots := y.vec.slots.set (n.fn % 4) (some { raw := bs, row := field bs 0x30 4, col := field bs 0x34 4 }) (by omega) } } }))

/-- The storing and folding vector instructions (R102, R103, R107, R115, R149, R152, R172, R173, R175, R176). VST converts each active element as its
store descriptor says, with the random word of its place in the tensor, sends the bytes to memory two cycles later, writes the scales of an MX format
beside them, and moves the slot on; a slot without a good descriptor is cause 8 and a format no store has is code 0x0313. FTAP multiplies a sample by
its tap into the accumulator and moves the sample on. RSFOLD folds the active elements of a row into its slot in ascending order; RSFIN finalises a
slot, and a count above 2^24 is cause 8. -/
def Obligations.VectorStoresAndTaps : Prop :=
  ∀ (u s : State) (i : Spindle) (n : VIns) (x y : SpindleState) (ss : List Src), s = reported u i →
    let c := vecCtx s i n
    (∀ (q : StoreSlot) (fmt es k nb o : Nat), Issues s i 0x23 n x → specMem n.dst = true → x.vec.slots[n.fn % 4] = some q → q.ok = true →
      q.formatOk = true → fmt = field q.raw 0 1 → fmt < 10 → storeBits fmt = 8 * es → 0 < es → k = min 64 (field q.raw 8 4 - q.col) →
      nb = ceilDiv (k * storeBits fmt) 8 → readSrcs c [n.s1] 0 x = .ok (ss, y) →
      y.place (specAdr n.dst) nb (pow2Above nb) 0 = .ok o → y.protects o nb = false →
      ∃ (z : SpindleState) (rep : NumRep) (w : MemWrite), exec (.vVst i) u = .next (s.vecDone i n { x := z, rep := rep }) ∧
        z.vec.memWrites = addByDue (·.due) w y.vec.memWrites ∧ z.scratch = y.scratch ∧ w.at_ = o ∧ w.due = y.vec.cycle + 2 ∧
        (∀ j b, j < k → b < es → w.bytes[j * es + b]? = some (if (c.maskOf y).getLsbD (4 * j) then
          some (BitVec.ofNat 8 ((storeScalar fmt (field q.raw 1 1) (philoxWord s.seed (field q.raw 4 4)
            ((field q.raw 0x18 8 + q.row * field q.raw 0x20 8 + q.col + j) % 2 ^ 64)) ((src ss 0).any n.ty j)).code / 2 ^ (8 * b)))
          else none)) ∧
        z.vec.slots[n.fn % 4] = some (if q.col + k = field q.raw 8 4 then { q with row := q.row + 1, col := 0 }
          else { q with col := q.col + k })) ∧
    (∀ (q : StoreSlot) (fmt k nb o : Nat) (es : List (Val × Nat × Nat)) (bl : List (Byte × List Nat)), Issues s i 0x23 n x →
      specMem n.dst = true → x.vec.slots[n.fn % 4] = some q → q.ok = true → q.formatOk = true → fmt = field q.raw 0 1 →
      k = min 64 (field q.raw 8 4 - q.col) → nb = ceilDiv (k * storeBits fmt) 8 → readSrcs c [n.s1] 0 x = .ok (ss, y) →
      y.place (specAdr n.dst) nb (pow2Above nb) 0 = .ok o → y.protects o nb = false →
      es = q.elems s.seed k ((src ss 0).any n.ty) →
      bl = (List.range (ceilDiv k 32)).map (fun j => mxBlock fmt (field q.raw 1 1) (((es.drop (32 * j)).take 32).map (·.2.2))
        (((es.drop (32 * j)).take 32).map (·.1))) →
      (fmt = 8 ∨ fmt = 9 → ∃ (z : SpindleState) (rep : NumRep) (w : MemWrite), exec (.vVst i) u = .next (s.vecDone i n { x := z, rep := rep }) ∧
        z.vec.memWrites = addByDue (·.due) w y.vec.memWrites ∧ w.at_ = o ∧ w.due = y.vec.cycle + 2 ∧
        w.bytes = packActive 4 ((es.map (fun e => (storeScalar fmt (field q.raw 1 1) e.2.2 e.1).code)).zipIdx.map
          (fun p => if (c.maskOf y).getLsbD (4 * p.2) then some p.1 else none)) (fun b => y.byte 0 (o + b))) ∧
      (∀ sa : Nat, 10 ≤ fmt → q.col % 32 = 0 → sa = field q.raw 0xC 4 + q.row * field q.raw 0x10 4 + q.col / 32 →
        sa + bl.length ≤ 0x600000 → y.protects sa bl.length = false →
        ∃ (z : SpindleState) (rep : NumRep) (w v : MemWrite), exec (.vVst i) u = .next (s.vecDone i n { x := z, rep := rep }) ∧
          z.vec.memWrites = addByDue (·.due) v (addByDue (·.due) w y.vec.memWrites) ∧ w.at_ = o ∧ v.at_ = sa ∧
          v.bytes = bl.map (fun p => some p.1) ∧
          w.bytes = packActive (storeBits fmt) ((bl.flatMap (·.2)).zipIdx.map
            (fun p => if (c.maskOf y).getLsbD (4 * p.2) then some p.1 else none)) (fun b => y.byte 0 (o + b)))) ∧
    (Issues s i 0x23 n x → specMem n.dst = true →
      (x.vec.slots[n.fn % 4] = none → exec (.vVst i) u = .next (s.vecFault i 8)) ∧
      (∀ q, x.vec.slots[n.fn % 4] = some q → q.ok = false → exec (.vVst i) u = .next (s.vecFault i 8)) ∧
      (∀ q, x.vec.slots[n.fn % 4] = some q → q.ok = true → q.formatOk = false →
        exec (.vVst i) u = .next (s.vecDone i n { x := x, rep := { code := 0x0313 } }))) ∧
    (∀ (size o : Nat) (next : Option Nat) (x1 : SpindleState) (bs : List Byte), Issues s i 0x26 n x → specMem n.s1 = true → specMem n.s2 = false →
      specMem n.dst = false → size = (if isF n.ty then 256 else 128) → x.place (specAdr n.s1) size size 0 = .ok o →
      x.fetch (s.fresh + 2048) o size = .ok bs →
      (next = none ∧ bit n.fn 17 = true ∧ x1 = x.post n.s1 ∨
       (∃ t, next = some t ∧ bit n.fn 17 = false ∧ bit n.fn 16 = false ∧ x1 = x.post n.s1 ∧
          x.place (specAdr n.s1) size size (sbits 9 (bits n.fn 15 7) * 256) = .ok t) ∨
       (∃ t, next = some t ∧ bit n.fn 17 = false ∧ bit n.fn 16 = true ∧ specMem n.s3 = true ∧
          (x.post n.s1).place (specAdr n.s3) size size 0 = .ok t ∧ x1 = (x.post n.s1).post n.s3)) →
      (∀ t, next = some t → x1.protects t size = false) → readSrcs c [n.s2] 1 x1 = .ok (ss, y) →
      ∃ (z : SpindleState) (rep : NumRep) (w : RegWrite), exec (.vFtap i) u = .next (s.vecDone i n { x := z, rep := rep }) ∧
        z.vec.regWrites = addByDue (·.due) w y.vec.regWrites ∧ w.reg = specReg n.dst ∧ w.due = y.vec.cycle + 5 ∧ w.ftap = true ∧
        (∀ j, j < 64 → (c.maskOf y).getLsbD (4 * j) = false → elemAt 32 w.mask j = 0) ∧
        (∀ j k, j < 64 → k = (if bit n.fn 18 then j else n.fn % 64) → (c.maskOf y).getLsbD (4 * j) = true →
          elemAt 32 w.mask j = 2 ^ 32 - 1 ∧
          elemAt 32 w.bytes j = (if isF n.ty then
            (fp32.encode ((((src ss 0).val 0 k).mul (fp32.decode false (field bs (4 * j) 4))).add
              (if bit n.fn 6 then .zero
               else fp32.decode (y.vec.tapFlight (specReg n.dst)) (elemAt 32 (y.vec.tapAcc (s.fresh + 768) (specReg n.dst)) j)))).1
            else (intOut 4 false ((if bit n.fn 6 then 0 else intElem 4 false (elemAt 32 (y.vec.tapAcc (s.fresh + 768) (specReg n.dst)) j)) +
              (src ss 0).int 5 false k * intElem 5 false (field bs (2 * j) 2))).code)) ∧
        (next = none → z.vec.memWrites = y.vec.memWrites) ∧
        (∀ t, next = some t → ∃ v : MemWrite, z.vec.memWrites = addByDue (·.due) v y.vec.memWrites ∧ v.at_ = t ∧
          v.due = y.vec.cycle + 2 ∧
          ∀ b, b < size → v.bytes[b]? = some (if (c.maskOf y).getLsbD (4 * (b / (size / 64))) then bs[b]? else none))) ∧
    (∀ r : Nat, Issues s i 0x28 n x → specMem n.dst = false → r = n.fn % 16 → readSrcs c [n.s1] 0 x = .ok (ss, y) →
      ∃ (w : RegWrite), exec (.vRsfold i) u = .next (s.vecDone i n
          { x := { y with vec := { y.vec with regWrites := addByDue (·.due) w y.vec.regWrites } } }) ∧
        w.reg = specReg n.dst ∧ w.due = y.vec.cycle + n.latency ∧
        elemAt 128 w.mask r = 2 ^ 128 - 1 ∧ (∀ k, k < 16 → k ≠ r → elemAt 128 w.mask k = 0) ∧
        elemAt 128 w.bytes r = leNat (foldBytes ((((List.range (bits n.fn 10 5 + 1)).filter
          (fun j => (c.maskOf y).getLsbD (4 * j))).map ((src ss 0).val 0)).foldl foldStep
            (if bit n.fn 4 then foldStart
             else Src.slotFold { bits := y.vec.read (s.fresh + 768) (specReg n.dst), flight := !y.vec.byLd.getLsbD (specReg n.dst).val } r)))) ∧
    (∀ r : Nat, Issues s i 0x29 n x → specMem n.dst = false → r = n.fn % 16 → readSrcs c [n.s2] 1 x = .ok (ss, y) →
      (2 ^ 24 < (src ss 0).raw 4 0 → exec (.vRsfin i) u = .next (s.vecFault i 8)) ∧
      ((src ss 0).raw 4 0 ≤ 2 ^ 24 → ∃ (w : RegWrite), exec (.vRsfin i) u = .next (s.vecDone i n
          { x := { y with vec := { y.vec with regWrites := addByDue (·.due) w y.vec.regWrites } } }) ∧
        w.reg = specReg n.dst ∧ elemAt 128 w.mask r = 2 ^ 128 - 1 ∧ (∀ k, k < 16 → k ≠ r → elemAt 128 w.mask k = 0) ∧
        elemAt 128 w.bytes r = leNat (foldBytes (foldFinal (Src.slotFold
          { bits := y.vec.read (s.fresh + 768) (specReg n.dst), flight := !y.vec.byLd.getLsbD (specReg n.dst).val } r) ((src ss 0).raw 4 0) ((src ss 0).val 0 1)))))

/-- PLYEXP, PLYSPLIT and PLYCOMB (R121 to R133, R177 to R179), and what the plies of a value are: p signed digits of base 256 whose sum is the value,
scaled by its shared exponent and rounded to nearest even. -/
def Obligations.VectorPlies : Prop :=
  (∀ (p slot : Nat) (neg : Bool) (m : Nat) (e : Int) (free : List Byte), 1 ≤ p → slot ≠ 0x7FFE → slot ≠ 0x7FFF → slot ≠ 0x8000 →
    -127 ≤ (splitDigits (p - 1) (((Val.fin neg m e).scale (8 * (p : Int) - 1 - sbits 16 slot)).toInteger .rne)).2 →
    (splitDigits (p - 1) (((Val.fin neg m e).scale (8 * (p : Int) - 1 - sbits 16 slot)).toInteger .rne)).2 ≤ 127 →
    (plies p slot (.fin neg m e) free).length = p ∧
    (plies p slot (.fin neg m e) free).foldl (fun a b => 256 * a + b.toInt) 0 =
      ((Val.fin neg m e).scale (8 * (p : Int) - 1 - sbits 16 slot)).toInteger .rne) ∧
  (∀ (u s : State) (i : Spindle) (n : VIns) (x y : SpindleState) (ss : List Src) (bs : List Byte), s = reported u i →
    let c := vecCtx s i n
    (Issues s i 0x2C n x → specMem n.s1 = true → specMem n.dst = false →
      x.memOperand (s.fresh + 2048) n.s1 (16 * tyBytes n.ty) (16 * tyBytes n.ty) = .ok (bs, y) → bit n.fn 7 = false ∨ n.fn % 128 ≤ 112 →
      ∃ w : RegWrite, exec (.vPlyexp i) u = .next (s.vecDone i n
          { x := { y with vec := { y.vec with regWrites := addByDue (·.due) w y.vec.regWrites } } }) ∧
        w.reg = specReg n.dst ∧ w.due = y.vec.cycle + n.latency ∧
        (bit n.fn 7 = true → ∀ e, e < 16 → active c y e = true → elemAt 16 w.mask (n.fn % 128 + e) = 0xFFFF ∧
          elemAt 16 w.bytes (n.fn % 128 + e) = expStep (if bit n.fn 8 then expEmpty
            else elemAt 16 (y.vec.read (s.fresh + 768) (specReg n.dst)) (n.fn % 128 + e))
            ((tyFmt n.ty).decode false (field bs (tyBytes n.ty * e) (tyBytes n.ty)))) ∧
        (bit n.fn 7 = false → (∃ e, e < 16 ∧ active c y e = true) → elemAt 16 w.mask (n.fn % 128) = 0xFFFF ∧
          elemAt 16 w.bytes (n.fn % 128) = ((List.range 16).filter (active c y)).foldl
            (fun a e => expStep a ((tyFmt n.ty).decode false (field bs (tyBytes n.ty * e) (tyBytes n.ty))))
            (if bit n.fn 8 then expEmpty else elemAt 16 (y.vec.read (s.fresh + 768) (specReg n.dst)) (n.fn % 128))) ∧
        (∀ k, k < 128 → (k < n.fn % 128 ∨ n.fn % 128 + 16 ≤ k) → elemAt 16 w.mask k = 0)) ∧
    (∀ p : Nat, Issues s i 0x2D n x → specMem n.s1 = true → specMem n.dst = true → pathsOk i [n.s1, n.s2] = true → p = bits n.fn 11 8 →
      (n.ty = 3 ∧ 5 ≤ p ∧ p ≤ 8 ∨ n.ty ≠ 3 ∧ p = 4) → bit n.fn 7 = false ∨ n.fn % 128 ≤ 112 →
      ∀ x1, x.memOperand (s.fresh + 2048) n.s1 (16 * tyBytes n.ty) (16 * tyBytes n.ty) = .ok (bs, x1) → readSrcs c [n.s2] 1 x1 = .ok (ss, y) →
      ∃ rows : List (List (Option Byte)), rows.length = p ∧
        (∀ k e, k < p → e < 16 → ((rows[k]?).bind (·[e]?)) = some (if active c y e then
          some (((plies p (elemAt 16 (src ss 0).bits (if bit n.fn 7 then n.fn % 128 + e else n.fn % 128))
            ((tyFmt n.ty).decode false (field bs (tyBytes n.ty * e) (tyBytes n.ty))) (freeBytes (s.fresh + 2048 + 16 * e) p))[k]?).getD 0)
          else none)) ∧
        (∀ z, y.putPlies (specAdr n.dst) y.vec.planeStride.toNat n.latency 0 rows = .ok z →
          exec (.vPlysplit i) u = .next (s.vecDone i n { x := z.post n.dst }))) ∧
    (∀ (d : PlyDesc) (m first k : Nat) (ea eb pb : List Byte), Issues s i 0x2E n x → specMem n.s1 = true →
      x.memOperand (s.fresh + 2048) n.s1 64 8 = .ok (bs, y) → d = parsePly bs → d.ok = true → m = n.fn % 4096 → m < d.m →
      first = (if bit n.fn 12 then 64 else 0) → k = min 64 (d.cols - first) →
      (∀ t, t ≤ d.dmax → x.touches (d.diagRow + t * d.m + m) 1 = false) →
      y.fetch (s.fresh + 2112) (d.ea + 2 * m) 2 = .ok ea → y.fetch (s.fresh + 2128) (d.eb + 2 * first) (2 * k) = .ok eb →
      (d.first = true ∨ y.fetch (s.fresh + 2304) (d.part + 24 * (m * d.cols + first)) (24 * k) = .ok pb) →
      let o := fun t => d.combine (y.plySum d (if d.first then 0 else (BitVec.ofNat 192 (leNat (sliceBytes pb (24 * t) 24))).toInt) m (first + t))
        (leNat ea) (field eb (2 * t) 2)
      (d.last = false → y.protects (d.part + 24 * (m * d.cols + first)) (24 * k) = false →
        ∃ w : MemWrite, exec (.vPlycomb i) u = .next (s.vecDone i n
            { x := { y with vec := { y.vec with memWrites := addByDue (·.due) w y.vec.memWrites } }, interval := some (d.dmax + 2 + (if d.first then 0 else 2)) }) ∧
          w.at_ = d.part + 24 * (m * d.cols + first) ∧ w.bytes = ((List.range k).flatMap (fun t => (o t).part)).map some) ∧
      (d.last = true → y.protects (d.out + m * d.outStride + d.outSize * first) (d.outSize * k) = false →
        ∃ (w : MemWrite) (z : SpindleState) (rep : NumRep), exec (.vPlycomb i) u = .next (s.vecDone i n
            { x := z, rep := rep, interval := some (d.dmax + 2 + (if d.first then 0 else 2)) }) ∧
          z.vec = { y.vec with memWrites := addByDue (·.due) w y.vec.memWrites } ∧
          w.at_ = d.out + m * d.outStride + d.outSize * first ∧
          w.bytes = ((List.range k).flatMap (fun t => leBytes d.outSize (o t).code)).map some)) ∧
    (∀ (d : PlyDesc) (t : Nat), Issues s i 0x2E n x → specMem n.s1 = true → x.memOperand (s.fresh + 2048) n.s1 64 8 = .ok (bs, y) → d = parsePly bs →
      d.ok = true → n.fn % 4096 < d.m → t ≤ d.dmax → x.touches (d.diagRow + t * d.m + n.fn % 4096) 1 = true →
      exec (.vPlycomb i) u = .next (s.modSp i (fun x => { x with vec := { x.vec with waits := true } }))))

/-- The vector engine's control instructions (R163, R166, R174, R180 to R187): LP, HALT, SETA, SETS, SETC, IHOLD, IREL, RETI, LPSAVE, LPLOAD, LPCLR and
NOP.
VEC_INTERRUPT_ENTRY, HOLD_WINDOW_EXCEEDED, HANDLER_FORCED_HALT and VEC_GO (R181 to R188). -/
def Obligations.VectorControl : Prop :=
  (∀ (u s : State) (i : Spindle) (n : VIns) (x : SpindleState), s = reported u i →
     (Issues s i 0x30 n x →
       (x.vec.loopOk (bits n.fn 24 9) (bits n.fn 8 0) = false → exec (.vLp i) u = .next (s.vecFault i 4)) ∧
       (x.vec.loopOk (bits n.fn 24 9) (bits n.fn 8 0) = true → ∃ d, exec (.vLp i) u = .next (s.vecDone i n d) ∧ d.jumped = true ∧
         d.rep = {} ∧ d.x.vec.pc = BitVec.ofNat 13 (x.vec.pc.toNat + 1) ∧
         d.x.vec.loops = { start := x.vec.pc.toNat + 1, stop := x.vec.pc.toNat + bits n.fn 8 0, left := bits n.fn 24 9 } :: x.vec.loops)) ∧
     (Issues s i 0x31 n x → Completes (exec (.vHalt i) u) (fun t =>
       (t.spindles[i]).vec.running = false ∧ (t.spindles[i]).vec.regWrites = [] ∧ (t.spindles[i]).vec.memWrites = [] ∧
       (t.spindles[i]).vec.loops = [] ∧
       ((s.spindles[i]).vec.reports = [] → (t.spindles[i]).vec.v = (x.retireAll).vec.v ∧ (t.spindles[i]).scratch = (x.retireAll).scratch ∧
         ((s.spindles[i]).seq.stall = .vec → (t.spindles[i]).seq = (s.spindles[i]).seq.finish)))) ∧
     (Issues s i 0x32 n x →
       (n.dst % 16 = 15 → exec (.vSeta i) u = .next (s.vecFault i 2)) ∧
       (∀ h : n.dst % 16 < 15, ∃ r : Adr, exec (.vSeta i) u = .next (s.vecDone i n
           { x := { x with vec := { x.vec with adr := x.vec.adr.set (n.dst % 16) r h } } }) ∧
         (bits n.fn 24 22 = 0 → r = { x.vec.adr[n.dst % 16] with base := n.fn % 2 ^ 21 }) ∧
         (bits n.fn 24 22 = 1 → r = { x.vec.adr[n.dst % 16] with length := n.fn % 2 ^ 22 }) ∧
         (bits n.fn 24 22 = 2 → r = { x.vec.adr[n.dst % 16] with ptr := ((n.fn % 2 ^ 21 : Nat) : Int) }) ∧
         (bits n.fn 24 22 = 3 → r = { x.vec.adr[n.dst % 16] with step := (BitVec.ofNat 22 n.fn).toInt }))) ∧
     (∀ (y : SpindleState) (ss : List Src), Issues s i 0x33 n x →
       (bit n.fn 24 = true → y = x) → (bit n.fn 24 = false → readSrcs (vecCtx s i n) [n.s1] 0 x = .ok (ss, y)) →
       ∃ r : BitVec 448, exec (.vSets i) u = .next (s.vecDone i n
           { x := { y with vec := { y.vec with scale := y.vec.scale.set (n.dst % 4) r (by omega) } } }) ∧
         ∀ j, j < 64 → ((r >>> (7 * j)).setWidth 7) =
           BitVec.ofNat 7 (if bit n.fn 24 then n.fn else (src ss 0).raw 6 j)) ∧
     (Issues s i 0x34 n x → ∃ y, exec (.vSetc i) u = .next (s.vecDone i n { x := { x with vec := y } }) ∧
       (bits n.fn 24 22 = 0 → y = { x.vec with planeStride := BitVec.ofNat 22 n.fn }) ∧
       (bits n.fn 24 22 = 1 → y = { x.vec with handler := BitVec.ofNat 13 n.fn }) ∧
       (bits n.fn 24 22 = 2 → y = { x.vec with preEn := bit n.fn 0, brkEn := bit n.fn 1, fltEn := bit n.fn 2 })) ∧
     (Issues s i 0x35 n x → exec (.vIhold i) u = .next (s.vecDone i n { x := if x.vec.holdAt.isSome then x
       else { x with vec := { x.vec with holdAt := some (s.vecNow i), holdNo := x.vec.holdNo + 1 } } })) ∧
     (Issues s i 0x36 n x → exec (.vIrel i) u = .next (s.vecDone i n { x := { x with vec := { x.vec with holdAt := none } } })) ∧
     (Issues s i 0x37 n x → ∃ d, exec (.vReti i) u = .next (s.vecDone i n d) ∧ d.jumped = true ∧ d.x.vec.pc = x.vec.epc ∧
       d.x.vec.inHandler = false ∧ d.x.vec.frozen = 0 ∧ (x.vec.loopsLost = false → d.x.vec.loops = x.vec.loops) ∧
       d.x.vec.v = x.vec.v ∧ d.x.vec.mask = x.vec.mask ∧ (bit n.fn 0 = true → d.x.preempted = false) ∧
       (bit n.fn 0 = false → d.x.preempted = x.preempted)) ∧
     (Issues s i 0x38 n x →
       (specMem n.dst = false → exec (.vLpsave i) u = .next (s.vecFault i 1)) ∧
       (∀ o, specMem n.dst = true → x.place (specAdr n.dst) 32 32 0 = .ok o → x.protects o 32 = false →
         ∃ (d : VDone) (w : MemWrite), exec (.vLpsave i) u = .next (s.vecDone i n d) ∧
           d.x.vec.memWrites = addByDue (·.due) w x.vec.memWrites ∧ w.at_ = o ∧ w.bytes = (x.vec.loopRecord).map some ∧
           d.x.vec.lpSaved = true)) ∧
     (Issues s i 0x39 n x → ∀ bs y, specMem n.s1 = true → x.memOperand (s.fresh + 2048) n.s1 32 32 = .ok (bs, y) →
       (recordLoops bs = none → exec (.vLpload i) u = .next (s.vecFault i 4)) ∧
       (∀ ls, recordLoops bs = some ls → exec (.vLpload i) u = .next (s.vecDone i n
         { x := { y with vec := { y.vec with loopLoad := some (y.vec.cycle + 3, ls), window := 3 } } }))) ∧
     (∀ (ls : List VecLoop) (due c : Nat), x.vec.loopLoad = some (due, ls) →
       (due ≤ c → (x.settle c).vec.loops = ls ∧ (x.settle c).vec.frozen = (if x.vec.inHandler then ls.length else 0)) ∧
       (c < due → (x.settle c).vec.loops = x.vec.loops)) ∧
     (Issues s i 0x3A n x → exec (.vLpclr i) u = .next (s.vecDone i n { x := { x with vec := { x.vec with loops := [], frozen := 0 } } })) ∧
     (Issues s i 0x3B n x → exec (.vNop i) u = .next (s.vecDone i n { x := x }))) ∧
  (∀ (s : State) (i : Spindle),
     (∀ c : BitVec 2, Clocked s → nextInterrupt (s.spindles[i]).vec.pending = some c → s.vecReady i = true →
       (s.spindles[i]).vec.openBoundary = true → (s.spindles[i]).vec.reports = [] →
       Completes (exec (.vecInterruptEntry i) s) (fun t => OnlySpindle i s t ∧
         (t.spindles[i]).vec.epc = (s.spindles[i]).vec.pc ∧ (t.spindles[i]).vec.icause = c ∧
         (t.spindles[i]).vec.pc = (s.spindles[i]).vec.handler ∧ (t.spindles[i]).vec.inHandler = true ∧
         (t.spindles[i]).vec.loops = (s.spindles[i]).vec.loops ∧
         (t.spindles[i]).vec.pending = (s.spindles[i]).vec.pending &&& ~~~(1#3 <<< c.toNat) ∧
         (t.spindles[i]).vec.regWrites = [] ∧ (t.spindles[i]).vec.memWrites = [] ∧ (t.spindles[i]).vec.maskWrites = [] ∧
         (t.spindles[i]).vec.v = ((s.spindles[i]).retireAll).vec.v)) ∧
     (Clocked s → (s.holdOver i = true → exec (.holdWindowExceeded i) s = .next (s.vecFault i 5)) ∧
       (s.holdOver i = false → exec (.holdWindowExceeded i) s = .next s)) ∧
     (Clocked s → s.handlerOver i = true → Completes (exec (.handlerForcedHalt i) s) (fun t =>
       ((s.spindles[i]).vec.reports = [] → OnlySpindle i s t) ∧
       (t.spindles[i]).vec.running = false ∧ (t.spindles[i]).vec.forced = true ∧ (t.spindles[i]).vec.inHandler = false ∧
       (t.spindles[i]).vec.regWrites = [] ∧ (t.spindles[i]).vec.memWrites = [])) ∧
     ((s.spindles[i]).vec.stopped = true → Completes (exec (.vecGo i) s) (fun t => OnlySpindle i s t ∧
       (t.spindles[i]).vec.stopped = false ∧ (t.spindles[i]).vec.pc = (s.spindles[i]).vec.epc)) ∧
     (∀ (c : BitVec 4) (d : State), d = s.drainEngine i → d.stepOpen = true → d.step.cause = 0 →
       (s.vecFault i c).step.faulted = true ∧ (s.vecFault i c).step.cause = 0x0850 + c.setWidth 16 ∧
       (s.vecFault i c).step.unit = BitVec.ofNat 16 i.val ∧
       ((d.spindles[i]).vec.faultSeen = false → ((s.vecFault i c).spindles[i]).vec.faultCause = c ∧
         ((s.vecFault i c).spindles[i]).vec.faultPc = (d.spindles[i]).vec.pc) ∧
       ((s.vecFault i c).spindles[i]).barred = true ∧
       ((d.spindles[i]).vec.fltEn = true → (d.spindles[i]).vec.inHandler = false → (d.spindles[i]).vec.running = true →
         ((s.vecFault i c).spindles[i]).vec.pending.getLsbD 2 = true ∧ ((s.vecFault i c).spindles[i]).vec.running = true) ∧
       ((d.spindles[i]).vec.fltEn = false ∨ (d.spindles[i]).vec.inHandler = true ∨ (d.spindles[i]).vec.running = false →
         ((s.vecFault i c).spindles[i]).vec.running = false)) ∧
     (∀ (c : BitVec 4) (o k : Nat), s.vecStop i (.cause c) = s.vecFault i c ∧
       s.vecStop i (.hit o k) = (s.protectFault i [(o, k)]).vecFault i 7 ∧
       ((s.spindles[i]).faultSeen = false → ((s.protectFault i [(o, k)]).spindles[i]).cause = 7 ∧
         ((s.protectFault i [(o, k)]).spindles[i]).faultSeen = true)))

/-- Messages before their effect (R414 to R416, R436, R437, R471): a dead distaff and a halted core answer nothing, and nor does a request over I3C before
the answer to the one before is ready; a request that a check refuses is answered with that check's code and changes nothing but the log; one that
finds its core held is answered BUSY with the wait. -/
def Obligations.MessagesAreChecked : Prop :=
  (∀ p ∈ messageOps, ∀ (s : State) (q : Request),
    (s.dist.alive = false → exec (p.1 q) s = .next s) ∧
    (s.i3cBusy q.transport = true → exec (p.1 q) s = .next s) ∧
    (∀ c : Code, s.dist.alive = true → s.i3cBusy q.transport = false → opcodeOf q = p.2 → (s.i3cRead q.transport).checkMessage q = c → c ≠ 0 →
      Completes (exec (p.1 q) s) (fun t => Replies s t q c (statusPayload p.2) ∧
        t.dist.queue = (s.i3cRead q.transport).dist.queue ∧ t.dist.jobs = s.dist.jobs ∧ t.dist.grants = s.dist.grants ∧
        t.dist.staged = s.dist.staged ∧ t = { s with dist := t.dist, sec := t.sec, fresh := t.fresh })) ∧
    (s.dist.alive = true → s.i3cBusy q.transport = false → opRow (opcodeOf q) = none →
      Completes (exec (p.1 q) s) (fun t => ∃ c, c ≠ 0 ∧ Replies s t q c [] ∧ t = { s with dist := t.dist, sec := t.sec, fresh := t.fresh })) ∧
    (∀ r : OpRow, s.dist.alive = true → s.i3cBusy q.transport = false → opcodeOf q = p.2 → opRow p.2 = some r → (s.i3cRead q.transport).checkMessage q = 0 →
      (s.flt.coreHalted.getLsbD r.core = true → exec (p.1 q) s = .next (s.i3cRead q.transport)) ∧
      (s.flt.coreHalted.getLsbD r.core = false → p.2 ≠ 1 → (s.i3cRead q.transport).coreWait r.core ≠ 0 →
        Completes (exec (p.1 q) s) (fun t => t.dist.queue = (s.i3cRead q.transport).dist.queue ∧
          t.dist.busyCount = min (s.dist.busyCount + 1) (2 ^ 32 - 1) ∧
          t.dist.responses = (s.i3cRead q.transport).dist.responses ++ [replyTo q 0x0101
            ((s.i3cRead q.transport).coreWait r.core) (statusPayload p.2)] ∧
          t = { s with dist := t.dist, sec := t.sec })))) ∧
  (∀ (s : State) (q : Request) (r : OpRow), opRow (opcodeOf q) = some r →
    (field q.bytes 4 4 ≠ q.bytes.length ∨ q.bytes.length < r.len ∨ 4096 < q.bytes.length ∨ q.bytes.length % 8 ≠ 0 →
      s.checkMessage q = 0x0103) ∧
    (s.checkMessage q = 0 → field q.bytes 4 4 = q.bytes.length ∧ r.len ≤ q.bytes.length ∧ q.bytes.length ≤ 4096 ∧
      q.bytes.length % 8 = 0 ∧ field q.bytes 0x13 1 = 3 ∧ field q.bytes 0x12 1 ≤ 2 ∧ field q.bytes 2 2 = 0 ∧
      (q.transport.val = 8 → q.bytes.length ≤ 1024 ∧ r.i3c = true) ∧
      (r.need = .installer → r.op ≠ 0x0133 → (s.sec.roles[q.transport]).role ≠ .operator ∨ (r.op = 0x0050 ∧ q.transport.val = 8)) ∧
      (r.need = .maker → (s.sec.roles[q.transport]).role = .maker) ∧
      ∀ x ∈ reservedRanges r.op q.bytes, allZero (sliceBytes q.bytes x.1 x.2) = true)) ∧
  (∀ (req payload : List Byte) (status : Code) (retry : Nat), retry < 2 ^ 32 → payload.length < 2 ^ 31 →
    (responseBytes req status retry payload).length % 8 = 0 ∧
    field (responseBytes req status retry payload) 4 4 = (responseBytes req status retry payload).length ∧
    field (responseBytes req status retry payload) 0 2 = field req 0 2 ∧
    field (responseBytes req status retry payload) 2 2 = status.toNat ∧
    field (responseBytes req status retry payload) 0x14 4 = retry ∧
    sliceBytes (responseBytes req status retry payload) 0x20 payload.length = payload)

/-- The reading messages (R417, R418, R455, R457 to R459). QUERY_STATUS answers the status and changes nothing; TELEMETRY_READ the registers that it
lists, read in order; LOG_READ the records from a number on, as many as the transport takes; ATTEST a signed report with the next identity leaf, or
0x070C where none is left, or the certificate, which costs no leaf.
The job messages (R425, R427 to R431). JOB_SUBMIT of a job that meets every condition queues it with its accept tick and its promise; in manufacturing
test it is 0x0220. JOB_CANCEL ends a job of which no step can begin any more at once, marks any other, and is 0x0223 for a tick that is too near.
JOB_STATUS answers the state, the ticks, the commit record, and the end report of a job that has ended; an unknown job is 0x0225. -/
def Obligations.ReadingAndJobMessages : Prop :=
  (∀ (s : State) (q : Request) (r : OpRow),
     (Serves s q 0x0001 r → Completes (exec (.queryStatus q) s) (fun t => Replies s t q 0 (admitted s q r).statusBytes ∧
       t = { s with dist := { s.dist with responses := t.dist.responses, queue := t.dist.queue } })) ∧
     (∀ (u : State) (bs : List Byte), Serves s q 0x0002 r → field q.bytes 0x20 4 ≤ 1000 →
       0x28 + 4 * field q.bytes 0x20 4 ≤ q.bytes.length →
       (admitted s q r).readRegs ((List.range (field q.bytes 0x20 4)).map (fun i => field q.bytes (0x28 + 4 * i) 4)) [] = .ok (u, bs) →
       Completes (exec (.telemetryRead q) s) (fun t => t.dist.responses = u.dist.responses ++
         [replyTo q 0 0 bs] ∧ t.mem = u.mem ∧ t.tick = u.tick)) ∧
     (∀ (oldest n : Nat), Serves s q 0x0003 r → oldest = s.sec.auditSeq - s.sec.audit.length →
       n = min (field q.bytes 0x28 4) (if q.transport.val = 8 then 7 else 31) →
       Completes (exec (.logRead q) s) (fun t => t.sec.audit = s.sec.audit ∧
         Replies s t q 0 (leBytes 4 ((s.sec.audit.drop (field q.bytes 0x20 8 - oldest)).take n).length ++ leBytes 4 0 ++
           leBytes 8 oldest ++ ((s.sec.audit.drop (field q.bytes 0x20 8 - oldest)).take n).flatMap (sliceBytes · 0 128)))) ∧
     (Serves s q 0x0004 r → field q.bytes 0x20 1 = 0 → field q.bytes 0x21 1 = 0 → s.sec.readyLeaf.nextLeaf < 2 ^ 25 →
       ∀ report, report = ({ admitted s q r with sec := (admitted s q r).sec.readyLeaf }).attestReport (sliceBytes q.bytes 0x28 32)
         s.sec.readyLeaf.nextLeaf →
       Completes (exec (.attest q) s) (fun t => t.sec.nextLeaf = s.sec.readyLeaf.nextLeaf + 1 ∧
         Replies s t q 0 (attestPayload (report ++ sliceBytes (Config.identitySign s.sec.readyLeaf.nextLeaf report) 0 3124) 0
           (q.transport.val == 8)))) ∧
     (Serves s q 0x0004 r → field q.bytes 0x20 1 = 0 → field q.bytes 0x21 1 = 0 → 2 ^ 25 ≤ s.sec.readyLeaf.nextLeaf →
       Completes (exec (.attest q) s) (fun t => Replies s t q 0x070C [] ∧ t.sec.code = 0x070C)) ∧
     (Serves s q 0x0004 r → field q.bytes 0x20 1 = 1 → q.transport.val ≠ 8 → field q.bytes 0x21 1 = 0 →
       Completes (exec (.attest q) s) (fun t => t.sec.nextLeaf = s.sec.nextLeaf ∧
         Replies s t q 0 (attestPayload (Config.certificate.take 3840) 0 false)))) ∧
  (∀ (s : State) (q : Request) (r : OpRow),
     (∀ (im : Image) (sw : Option Nat) (id n rr want a : Nat), Serves s q 0x0020 r → s.sec.testMode = false → id = field q.bytes 0x20 8 → id ≠ 0 →
       n = field q.bytes 0x30 8 → n ≠ 0 → n ≤ 2 ^ 40 → want = field q.bytes 0x38 8 → rr = field q.bytes 0x40 2 → rr ≤ 1024 →
       (∀ j ∈ s.dist.jobs, j.id.toNat ≠ id) → (∀ j ∈ s.dist.ended, j.id.toNat ≠ id) → s.dist.jobs.length < 16 →
       s.jobPattern (field q.bytes 0x28 8) = some (im, sw) → s.fabricBusy im = false →
       a = max (max want (s.tick.count.toNat + 2)) (max ((s.dist.jobs.map (·.promise)).foldl max 0) (sw.getD 0)) →
       (sw = none → ∀ t ∈ s.dist.staged.bind (·.armedAt), a + n + rr < t) → s.devices ≤ 1 ∨ want = 0 ∨ a = want →
       Completes (exec (.jobSubmit q) s) (fun t =>
         t.dist.jobs = s.dist.jobs ++ [{ id := BitVec.ofNat 64 id, pattern := Image.id im, steps := n, reruns := rr
                                         notify := bit (field q.bytes 0x42 1) 0, accept := a, promise := a + n + rr
                                         commit := { jobId := BitVec.ofNat 64 id } }] ∧
         t.dist.ended = s.dist.ended ∧ t.step = s.step ∧ Replies s t q 0 (leBytes 8 id ++ leBytes 8 a ++ leBytes 8 (a + n + rr)))) ∧
     (Serves s q 0x0020 r → s.sec.testMode = true → Completes (exec (.jobSubmit q) s) (fun t => t.dist.jobs = s.dist.jobs ∧
       Replies s t q 0x0220 [])) ∧
     (∀ (j : Job) (at_ : Nat), Serves s q 0x0021 r → s.dist.jobs.find? (fun j => j.id.toNat == field q.bytes 0x20 8) = some j →
       at_ = (if field q.bytes 0x28 8 = 0 then s.tick.count.toNat + 2 else field q.bytes 0x28 8) →
       (at_ < s.tick.count.toNat + 2 → Completes (exec (.jobCancel q) s) (fun t => t.dist.jobs = s.dist.jobs ∧ Replies s t q 0x0223 [])) ∧
       (s.tick.count.toNat + 2 ≤ at_ → j.state = .queued → at_ ≤ j.accept →
         Completes (exec (.jobCancel q) s) (fun t => t.dist.jobs = s.dist.jobs.filter (fun x => x.id != j.id) ∧
           t.dist.ended = ({ j with state := .cancelled, endCode := 0x0231 } :: s.dist.ended).take 64 ∧ Replies s t q 0 [])) ∧
       (s.tick.count.toNat + 2 ≤ at_ → j.state ≠ .queued ∨ j.accept < at_ →
         Completes (exec (.jobCancel q) s) (fun t => t.dist.jobs = s.dist.jobs.map (fun x => if x.id = j.id then
           { x with cancelAt := some at_ } else x) ∧ t.dist.ended = s.dist.ended ∧ Replies s t q 0 []))) ∧
     (∀ j : Job, Serves s q 0x0022 r → (s.dist.jobs ++ s.dist.ended).find? (fun j => j.id.toNat == field q.bytes 0x20 8) = some j →
       Completes (exec (.jobStatus q) s) (fun t => t.dist.jobs = s.dist.jobs ∧ Replies s t q 0
         (leBytes 1 j.state.code ++ leBytes 7 0 ++ leBytes 8 j.accept ++ leBytes 8 j.promise ++ j.commit.bytes ++
           (if j.state = .queued ∨ j.state = .running then List.replicate 128 0 else j.endReport)))) ∧
     (Serves s q 0x0022 r → (∀ j ∈ s.dist.jobs ++ s.dist.ended, j.id.toNat ≠ field q.bytes 0x20 8) →
       Completes (exec (.jobStatus q) s) (fun t => Replies s t q 0x0225 [])))

/-- The pattern messages (R35, R36, R420 to R422). PATTERN_STAGE takes the image from its grant region and leaves the active pattern, memory and spindles
alone. PATTERN_VERIFY of an image that passes marks it and writes every inactive bank with its program, the active bank untouched; of one that fails
it answers the first failure with its place and writes nothing. PATTERN_ARM of a verified pattern names its switch tick, at least two ticks ahead and
past every promise, and does nothing else; an unverified pattern is 0x0213 and an early tick 0x0211. PATTERN_DISCARD drops the staged pattern. -/
def Obligations.PatternMessages : Prop :=
  ∀ (s : State) (q : Request) (r : OpRow),
    (∀ (g : Grant) (im : Image), Serves s q 0x0010 r → s.dist.staged.bind (·.armedAt) = none → s.grantOf q.bytes = some g →
      field q.bytes 0x28 8 + field q.bytes 0x30 8 ≤ g.bytes → 288 ≤ field q.bytes 0x30 8 → field q.bytes 0x30 8 ≤ 2 ^ 30 →
      im = ((admitted s q r).readRange 0 (g.base + field q.bytes 0x28 8) (field q.bytes 0x30 8)).2.1 → field im 0x18 8 = field q.bytes 0x30 8 →
      (∀ a ∈ s.dist.active, Image.id a ≠ Image.id im) →
      Completes (exec (.patternStage q) s) (fun t => t.dist.staged = some { image := im } ∧ t.dist.active = s.dist.active ∧
        t.mem = s.mem ∧ t.spindles = s.spindles ∧ Replies s t q 0 (leBytes 8 (Image.id im).toNat ++ leBytes 8 (field q.bytes 0x30 8)))) ∧
    (Serves s q 0x0010 r → s.dist.staged.bind (·.armedAt) = none → s.grantOf q.bytes = none →
      Completes (exec (.patternStage q) s) (fun t => t.dist.staged = s.dist.staged ∧ Replies s t q 0x0241 [])) ∧
    (∀ x : Staged, Serves s q 0x0011 r → s.stagedNamed q.bytes = some x → x.armedAt = none →
      ((admitted s q r).verifyPattern x.image = none →
        Completes (exec (.patternVerify q) s) (fun t => t.dist.staged = some { x with verified := true } ∧
          (∀ i : Spindle, (t.spindles[i]).seq.activeBank = (s.spindles[i]).seq.activeBank ∧
            (if (s.spindles[i]).seq.activeBank then (t.spindles[i]).seq.bank0 else (t.spindles[i]).seq.bank1) =
              bankOf ((x.image.find 1 i.val).getD []) ∧
            (if (s.spindles[i]).seq.activeBank then (t.spindles[i]).seq.bank1 else (t.spindles[i]).seq.bank0) =
              (if (s.spindles[i]).seq.activeBank then (s.spindles[i]).seq.bank1 else (s.spindles[i]).seq.bank0)) ∧
          Replies s t q 0 (leBytes 2 0xFFFF ++ leBytes 2 0 ++ leBytes 4 0 ++ leBytes 8 0))) ∧
      (∀ f, (admitted s q r).verifyPattern x.image = some f →
        Completes (exec (.patternVerify q) s) (fun t => t.dist.staged = s.dist.staged ∧ t.spindles = s.spindles ∧
          Replies s t q f.code (leBytes 2 f.sec ++ leBytes 2 f.scope ++ leBytes 4 0 ++ leBytes 8 f.off)))) ∧
    (∀ x : Staged, Serves s q 0x0012 r → s.stagedNamed q.bytes = some x →
      (x.verified = false → Completes (exec (.patternArm q) s) (fun t => t.dist.staged = s.dist.staged ∧ Replies s t q 0x0213 [])) ∧
      (x.verified = true → field q.bytes 0x28 8 < s.tick.count.toNat + 2 →
        Completes (exec (.patternArm q) s) (fun t => t.dist.staged = s.dist.staged ∧ Replies s t q 0x0211 [])) ∧
      (x.verified = true → s.tick.count.toNat + 2 ≤ field q.bytes 0x28 8 →
        (∀ j ∈ s.dist.jobs, if j.pattern = Image.id x.image then field q.bytes 0x28 8 ≤ j.accept else j.promise < field q.bytes 0x28 8) →
        (admitted s q r).checkTick x.image = none → (admitted s q r).checkEnergy x.image = none →
        Completes (exec (.patternArm q) s) (fun t => t.dist.staged = some { x with armedAt := some (field q.bytes 0x28 8) } ∧
          t.dist.active = s.dist.active ∧ t.spindles = s.spindles ∧ Replies s t q 0 []))) ∧
    (∀ x : Staged, Serves s q 0x0013 r → s.stagedNamed q.bytes = some x → x.armedAt = none ∨ (∀ j ∈ s.dist.jobs, j.pattern ≠ Image.id x.image) →
      Completes (exec (.patternDiscard q) s) (fun t => t.dist.staged = none ∧ t.dist.active = s.dist.active ∧ Replies s t q 0 []))

/-- Grants, bulk requests and control messages (R403, R419, R426, R435, R481). GRANT_OPEN opens a region that may be granted and refuses any other with
0x0240; GRANT_CLOSE answers the transfers that still run, and the region goes with the last; BULK_IN and BULK_OUT hand a checked transfer to the
engine of their mailbox and move no byte yet; POWER_CAP_SET sets a cap within the limit that covers every pattern; RESET starts rung 6, and asks for
rung 7, which comes once the answer has left. The grant_id that GRANT_OPEN takes, the lowest free one, is the model's choice (log 52). -/
def Obligations.GrantAndControlMessages : Prop :=
  ∀ (s : State) (q : Request) (r : OpRow),
    (∀ id : Nat, Serves s q 0x0030 r → field q.bytes 0x30 1 ≠ 0 →
      s.grantable (field q.bytes 0x20 8) (field q.bytes 0x28 8) (field q.bytes 0x30 1) = true →
      (List.range 64).find? (fun i => !s.dist.grants.any (fun g => g.id == i)) = some id →
      Completes (exec (.grantOpen q) s) (fun t => t.dist.grants = s.dist.grants ++
        [{ id := id, base := field q.bytes 0x20 8, bytes := field q.bytes 0x28 8, dirIn := bit (field q.bytes 0x30 1) 0
           dirOut := bit (field q.bytes 0x30 1) 1 }] ∧ t.mem = s.mem ∧ Replies s t q 0 (leBytes 2 id ++ leBytes 6 0))) ∧
    (Serves s q 0x0030 r → field q.bytes 0x30 1 ≠ 0 →
      s.grantable (field q.bytes 0x20 8) (field q.bytes 0x28 8) (field q.bytes 0x30 1) = false →
      Completes (exec (.grantOpen q) s) (fun t => t.dist.grants = s.dist.grants ∧ Replies s t q 0x0240 [])) ∧
    (∀ g : Grant, Serves s q 0x0031 r → s.grantOf q.bytes = some g → (∀ x ∈ s.dist.grants, x.id = g.id → x = g) →
      Completes (exec (.grantClose q) s) (fun t => Replies s t q 0 (leBytes 4 g.transfers ++ leBytes 4 0) ∧
        (g.transfers = 0 → ∀ x ∈ t.dist.grants, x.id ≠ g.id) ∧
        (∀ x ∈ t.dist.grants, x.id = g.id → x.closing = true) ∧
        (∀ x ∈ s.dist.grants, x.id ≠ g.id → x.closing = false → x ∈ t.dist.grants))) ∧
    (∀ (g : Grant) (n : Fin 8) (toDevice : Bool), Serves s q (if toDevice then 0x0032 else 0x0033) r → q.transport.val = n.val →
      s.grantOf q.bytes = some g → field q.bytes 0x28 8 + field q.bytes 0x30 8 ≤ g.bytes →
      (if toDevice then g.dirIn else g.dirOut) = true → field q.bytes 0x30 8 ≠ 0 → field q.bytes 0x30 8 ≤ 2 ^ 36 →
      field q.bytes 0x40 4 ≠ 0 → field q.bytes 0x40 4 ≤ 65536 → field q.bytes 0x38 8 % 16 = 0 → s.slv.bulk[n] = none →
      Completes (exec (if toDevice then .bulkIn q else .bulkOut q) s) (fun t =>
        t.slv.bulk[n] = some { toDevice := toDevice, grant := g.id, base := g.base, offset := field q.bytes 0x28 8
                               total := field q.bytes 0x30 8, listAddr := field q.bytes 0x38 8, entries := field q.bytes 0x40 4
                               crossing := q.crossing, reqHeader := q.bytes.take 32, arrived := s.now } ∧
        t.dist.responses = (s.i3cRead q.transport).dist.responses ∧ t.mem = s.mem ∧
        t.dist.grants = s.dist.grants.map (fun x => if x.id = g.id then { x with transfers := x.transfers + 1 } else x))) ∧
    (Serves s q 0x0040 r → field q.bytes 0x20 2 ≤ s.pwr.limitW.toNat → s.capCovers (field q.bytes 0x20 2) = true →
      Completes (exec (.powerCapSet q) s) (fun t => t.pwr.capW = BitVec.ofNat 16 (field q.bytes 0x20 2) ∧
        t.pwr.limitW = s.pwr.limitW ∧ Replies s t q 0 [])) ∧
    (Serves s q 0x0040 r → s.pwr.limitW.toNat < field q.bytes 0x20 2 →
      Completes (exec (.powerCapSet q) s) (fun t => t.pwr.capW = s.pwr.capW ∧ Replies s t q 0x0250 [])) ∧
    (Serves s q 0x0040 r → field q.bytes 0x20 2 ≤ s.pwr.limitW.toNat → s.capCovers (field q.bytes 0x20 2) = false →
      Completes (exec (.powerCapSet q) s) (fun t => t.pwr.capW = s.pwr.capW ∧ Replies s t q 0x0251 [])) ∧
    (Serves s q 0x0050 r → field q.bytes 0x20 1 = 7 →
      Completes (exec (.msgReset q) s) (fun t => t.flt.asked = some s.now ∧ Replies s t q 0 [])) ∧
    (Serves s q 0x0050 r → field q.bytes 0x20 1 = 6 → ∀ u : State, u = (admitted s q r).startAny .device 6 0x0813 false →
      Completes (exec (.msgReset q) s) (fun t => t.spindles = u.spindles ∧ t.step = u.step ∧ t.flt = u.flt ∧ t.mem = u.mem ∧
        ∃ before x, t.dist.responses = before ++ [x] ∧ x.bytes = responseBytes q.bytes 0 0 []))

/-- FABRIC_LOAD, FABRIC_CAPTURE, LINK_TEST and CONFIG_SET (R303, R321, R348, R353, R368, R433 to R435, R443): what each sets, that each is logged, and
that an item which is refused changes nothing. -/
def Obligations.InstallerMessages : Prop :=
  (∀ (s : State) (q : Request) (r : OpRow),
    (∀ (g : Grant) (store : Bool) (bytes : List Byte), Serves s q 0x0110 r → store = bit (field q.bytes 0x22 1) 0 →
      s.grantOf q.bytes = some g → field q.bytes 0x28 8 + field q.bytes 0x30 8 ≤ g.bytes →
      bytes = ((admitted s q r).readRange 0 (g.base + field q.bytes 0x28 8) (field q.bytes 0x30 8)).2.1 → s.cfg.staged = none →
      (∀ d : Die, (s.fabric[d]).capArmed = false ∧ (s.fabric[d]).capRead = false) →
      (store = true → (imgHeader bytes).total ≤ 0x10000000 - s.cfg.primary.toNat) →
      (store = false → s.regionInUse true (if (imgHeader bytes).partialImg then (imgHeader bytes).regions else BitVec.allOnes 64) = false) →
      Completes (exec (.fabricLoad q) s) (fun t => t.cfg.state = 1 ∧ t.fabric = s.fabric ∧ t.mem = s.mem ∧
        t.dist.responses = (s.i3cRead q.transport).dist.responses ∧
        (t.cfg.staged.map (fun i => (i.source, i.bytes, i.pass, i.grant))) = some (.load store, bytes, .staging, g.id) ∧
        (t.cfg.staged.map (·.prior)) = some s.cfg.state)) ∧
    (∀ g : Grant, Serves s q 0x0110 r → s.grantOf q.bytes = some g → field q.bytes 0x28 8 + field q.bytes 0x30 8 ≤ g.bytes →
      s.cfg.staged ≠ none → Completes (exec (.fabricLoad q) s) (fun t => t.cfg = s.cfg ∧ Replies s t q 0x0649 (leBytes 8 0) ∧
        Logged s t q 0x11 0x0649)) ∧
    (∀ (d : Die) (c : BitVec 4), Serves s q 0x0111 r → field q.bytes 0x20 1 = d.val → field q.bytes 0x21 1 = c.toNat →
      field q.bytes 0x22 1 < 2 → field q.bytes 0x28 4 ≠ 0 →
      (∀ im ∈ s.jobPatterns false, ∀ x ∈ s.patternRegions im, x ∉ s.domainRegions d c) →
      (s.fabric[d]).capArmed = false → (s.fabric[d]).capRead = false → (s.fabric[d]).capStopped = false →
      (∀ x ∈ s.domainRegions d c, (s.region x).state ≠ 3 ∧ (s.region x).load = .none) →
      Completes (exec (.fabricCapture q) s) (fun t => (t.fabric[d]).capArmed = true ∧ (t.fabric[d]).capDomain = c ∧
        (t.fabric[d]).capEdge = BitVec.ofNat 32 (field q.bytes 0x28 4) ∧ (t.fabric[d]).capDst = BitVec.ofNat 48 (field q.bytes 0x30 8) ∧
        (t.fabric[d]).capLen = field q.bytes 0x38 8 ∧ (t.fabric[d]).capResume = (field q.bytes 0x22 1 == 1) ∧
        (∀ e : Die, e ≠ d → t.fabric[e] = s.fabric[e]) ∧ Replies s t q 0 [] ∧ Logged s t q 0x12 0)) ∧
    (∀ (l : Link) (errors : Word), Serves s q 0x0112 r → field q.bytes 0x20 1 = l.val → field q.bytes 0x21 1 < 4 → field q.bytes 0x23 1 < 2 →
      (loopPattern (field q.bytes 0x21 1) (field q.bytes 0x22 1) = false →
        Completes (exec (.linkTest q errors) s) (fun t => t.links = s.links ∧ Replies s t q 0x0105 [] ∧ Logged s t q 0x13 0x0105)) ∧
      (loopPattern (field q.bytes 0x21 1) (field q.bytes 0x22 1) = true →
        (field q.bytes 0x21 1 = 0 ∨ s.linkInUse l = false →
          Completes (exec (.linkTest q errors) s) (fun t => t.links[l] = { s.links[l] with
              testErr := (t.links[l]).testErr, testMode := BitVec.ofNat 2 (field q.bytes 0x21 1)
              testPattern := BitVec.ofNat 2 (field q.bytes 0x22 1), testRun := field q.bytes 0x23 1 == 1 } ∧
            ((s.links[l]).testRun = true → (s.links[l]).testMode ≠ 0 →
              (t.links[l]).testErr = satAdd 32 (s.links[l]).testErr errors.toNat) ∧
            ((s.links[l]).testRun = false ∨ (s.links[l]).testMode = 0 → (t.links[l]).testErr = (s.links[l]).testErr) ∧
            (∀ m : Link, m ≠ l → t.links[m] = s.links[m]) ∧
            Replies s t q 0 (leBytes 4 (t.links[l]).testErr.toNat ++ leBytes 4 0) ∧ Logged s t q 0x13 0)) ∧
        (field q.bytes 0x21 1 ≠ 0 → s.linkInUse l = true →
          Completes (exec (.linkTest q errors) s) (fun t => t.links = s.links ∧ Replies s t q 0x0509 [] ∧ Logged s t q 0x13 0x0509)))) ∧
    (∀ (n used : Nat) (u : State) (c : Code), Serves s q 0x0120 r → n = field q.bytes 0x28 4 →
      used = 0x30 + n * itemSize (field q.bytes 0x20 2) → itemSize (field q.bytes 0x20 2) ≠ 0 →
      q.bytes.length = ceilDiv used 8 * 8 → zeroAt q.bytes used (q.bytes.length - used) = true →
      (admitted s q r).configItem (field q.bytes 0x20 2) ((List.range n).map (fun i =>
        sliceBytes q.bytes (0x30 + itemSize (field q.bytes 0x20 2) * i) (itemSize (field q.bytes 0x20 2)))) = (u, c) →
      Completes (exec (.configSet q) s) (fun t => t.pwr = u.pwr ∧ t.fabric = u.fabric ∧ t.cfg = u.cfg ∧ t.ddr = u.ddr ∧ t.hbm = u.hbm ∧
        t.dist.mapNext = u.dist.mapNext ∧ t.dist.topologyNext = u.dist.topologyNext ∧ t.sec.idleS = u.sec.idleS ∧ t.mem = u.mem ∧
        ∃ before, t.dist.responses = before ++ [replyTo q c 0 []]))) ∧
  (∀ (s u : State) (item : Nat) (es : List (List Byte)) (c : Code), s.configItem item es = (u, c) → c ≠ 0 → u = s) ∧
  (∀ (s : State) (e : List Byte),
    (zeroAt e 2 2 = true → s.capCovers (field e 0 2) = true → (s.configItem 5 [e]).2 = 0 ∧
      (s.configItem 5 [e]).1.pwr.limitW = BitVec.ofNat 16 (field e 0 2) ∧
      (s.configItem 5 [e]).1.pwr.capW = (if field e 0 2 < s.pwr.capW.toNat then BitVec.ofNat 16 (field e 0 2) else s.pwr.capW)) ∧
    (zeroAt e 1 3 = true → field e 0 1 ≤ 3 → (s.configItem 6 [e]).2 = 0 ∧
      ∀ n : Fin 12, ((s.configItem 6 [e]).1.ddr[n]).speedCap = BitVec.ofNat 4 (field e 0 1)) ∧
    (zeroAt e 2 2 = true → field e 0 2 ≠ 0 →
      s.configItem 8 [e] = ({ s with sec := { s.sec with idleS := BitVec.ofNat 16 (field e 0 2) } }, 0)) ∧
    (field e 0 4 % 65536 = 0 → 0x04000000 ≤ field e 0 4 → field e 0 4 ≤ 0x0FFF0000 →
      s.configItem 9 [e] = ({ s with cfg := { s.cfg with primary := BitVec.ofNat 29 (field e 0 4) } }, 0)))

/-- Roles (R443, R445 to R447): a challenge gives a nonce; an entry whose nonce lives, whose key is known and whose signature is good gives the role, and
any other is counted and spends the nonce, the eighth in a row locking the transport for 60 s; a role ends on exit or when idle. -/
def Obligations.RoleCommands : Prop :=
  (∀ (s : State) (q : Request) (r : OpRow),
    (∀ nonce, Serves s q 0x0100 r → nonce = sliceBytes (Config.random s.fresh) 0 32 →
      Completes (exec (.roleChallenge q) s) (fun t => (t.sec.roles[q.transport]).nonce = some (nonce, s.now) ∧
        (t.sec.roles[q.transport]).role = (s.sec.roles[q.transport]).role ∧
        Replies s t q 0 (nonce ++ sliceBytes s.sec.serial 0 16 ++ leBytes 1 q.transport.val ++ leBytes 7 0))) ∧
    (∀ (hd sig nonce key : List Byte) (at_ : Time), Serves s q 0x0101 r →
      (∀ u, (s.sec.roles[q.transport]).lockedUntil = some u → u ≤ s.now) →
      field q.bytes 0x20 1 = 2 ∨ field q.bytes 0x20 1 = 3 → field q.bytes 0x22 1 = 0 → field q.bytes 0x23 1 = 1 →
      field q.bytes 0x24 2 = field q.bytes 0x28 4 → field q.bytes 0x28 4 ≤ 28672 →
      q.bytes.length = 0x70 + ceilDiv (field q.bytes 0x24 2) 8 * 8 → hd = sliceBytes q.bytes 0x20 80 →
      sig = sliceBytes q.bytes 0x70 (field q.bytes 0x24 2) → (s.sec.roles[q.transport]).nonce = some (nonce, at_) →
      s.now < at_ + 1020000000000 → s.entryKey (field hd 0 1) (field hd 1 1) (sliceBytes hd 0x10 60) = some key →
      (hssCheck key (s.entryMessage nonce (field hd 0 1) (field hd 1 1) q.transport) sig = 0 →
        Completes (exec (.roleEnter q) s) (fun t =>
          (t.sec.roles[q.transport]).role = (if field q.bytes 0x20 1 = 3 then .maker else .installer) ∧
          (t.sec.roles[q.transport]).slot = field q.bytes 0x21 1 ∧ (t.sec.roles[q.transport]).nonce = none ∧
          (t.sec.roles[q.transport]).fails = 0 ∧ (t.sec.roles[q.transport]).lastUse = s.now ∧
          (∀ u : Transport, u ≠ q.transport → t.sec.roles[u] = s.sec.roles[u]) ∧ Replies s t q 0 [])) ∧
      (∀ c : Code, hssCheck key (s.entryMessage nonce (field hd 0 1) (field hd 1 1) q.transport) sig = c → c ≠ 0 →
        Completes (exec (.roleEnter q) s) (fun t =>
          (t.sec.roles[q.transport]).role = (s.sec.roles[q.transport]).role ∧ (t.sec.roles[q.transport]).nonce = none ∧
          ((s.sec.roles[q.transport]).lockedUntil = none →
            (t.sec.roles[q.transport]).fails = (s.sec.roles[q.transport]).fails + 1 ∧
            (7 ≤ (s.sec.roles[q.transport]).fails → (t.sec.roles[q.transport]).lockedUntil = some (s.now + 1020000000000))) ∧
          (∀ u, (s.sec.roles[q.transport]).lockedUntil = some u → (t.sec.roles[q.transport]).fails = 1) ∧
          Replies s t q c []))) ∧
    (∀ u : Time, Serves s q 0x0101 r → (s.sec.roles[q.transport]).lockedUntil = some u → s.now < u →
      Completes (exec (.roleEnter q) s) (fun t => (t.sec.roles[q.transport]).role = (s.sec.roles[q.transport]).role ∧
        (t.sec.roles[q.transport]).fails = (s.sec.roles[q.transport]).fails ∧
        t.sec.lockRefused[q.transport] = s.sec.lockRefused[q.transport] + 1 ∧ Replies s t q 0x0705 [])) ∧
    (Serves s q 0x0102 r → Completes (exec (.roleExit q) s) (fun t => (t.sec.roles[q.transport]).role = .operator ∧ Replies s t q 0 [] ∧
      ((s.sec.roles[q.transport]).role ≠ .operator → Logged s t q 0x03 0)))) ∧
  (∀ (s : State) (t : Transport),
    ((s.sec.roles[t]).role ≠ .operator → (s.sec.roles[t]).lastUse + 17000000000 * s.sec.idleS.toNat ≤ s.now →
      Completes (exec (.roleIdleTimeout t) s) (fun u => (u.sec.roles[t]).role = .operator ∧ u = { s with sec := u.sec, fresh := u.fresh })) ∧
    (s.now < (s.sec.roles[t]).lastUse + 17000000000 * s.sec.idleS.toNat → exec (.roleIdleTimeout t) s = .next s) ∧
    (∀ n at_, (s.sec.roles[t]).nonce = some (n, at_) → at_ + 1020000000000 ≤ s.now →
      exec (.nonceExpiry t) s = .next (s.modRole t (fun r => { r with nonce := none }))) ∧
    (∀ u, (s.sec.roles[t]).lockedUntil = some u → u ≤ s.now →
      Completes (exec (.lockoutEnd t) s) (fun v => (v.sec.roles[t]).lockedUntil = none ∧ (v.sec.roles[t]).fails = 0 ∧
        v.sec.lockRefused[t] = 0 ∧ (s.sec.lockRefused[t] = 0 → v.sec.audit = s.sec.audit))) ∧
    (∀ u, (s.sec.roles[t]).lockedUntil = some u → s.now < u → exec (.lockoutEnd t) s = .next s))

/-- Firmware and keys (R444, R449, R450, R460, R462). FW_STAGE puts a valid image that is no rollback into the slot that does not run; FW_ACTIVATE makes
it the trial of the next boot; FW_CONFIRM ends the trial and raises the rollback counter; in a trial neither of the first two does anything. KEY_ENROL
fills an empty or revoked installer slot and no other; KEY_REVOKE revokes one, drops its roles, and leaves the last one to the maker; decryption keys
are revoked by a fuse that burns or by zeroing; KEY_PROGRAM puts the unwrapped key into its battery slot, or clears it.
The maker's messages (R368, R463, R464): GOLDEN_STORE writes a golden image that passes its checks and loads nothing; FUSE_PROGRAM burns an unwrapped
key into an empty slot; TEST_MODE needs a device without jobs and drops its patterns; RA_UNLOCK clears every key and role. -/
def Obligations.FirmwareKeyAndMakerMessages : Prop :=
  (∀ (s : State) (q : Request) (r : OpRow),
     (∀ (g : Grant) (im : List Byte) (n : Fin 2), Serves s q 0x0130 r → s.sec.inTrial = false → s.grantOf q.bytes = some g →
       field q.bytes 0x28 8 + field q.bytes 0x30 8 ≤ g.bytes →
       im = ((admitted s q r).readRange 0 (g.base + field q.bytes 0x28 8) (min (field q.bytes 0x30 8) 0x1000001)).2.1 → n = (if s.sec.fwSlot then 0 else 1) →
       (s.firmwareOk im = true → s.sec.rollback.toNat ≤ field im 0x0C 4 →
         Completes (exec (.fwStage q) s) (fun t => t.sec.fwStaged = true ∧ t.sec.switchRec = s.sec.switchRec ∧
           t.sec.slots[n] = { image := im, version := BitVec.ofNat 32 (field im 8 4), security := field im 0x0C 4, valid := true } ∧
           (∀ m : Fin 2, m ≠ n → t.sec.slots[m] = s.sec.slots[m]) ∧
           t.flash = Cells.write 0xFF s.flash (if s.sec.fwSlot then 0x01000000 else 0x02000000) im ∧
           Replies s t q 0 [] ∧ Logged s t q 0x20 0)) ∧
       (s.firmwareOk im = false → Completes (exec (.fwStage q) s) (fun t => t.sec.slots = s.sec.slots ∧ t.flash = s.flash ∧
         Replies s t q 0x0707 [] ∧ Logged s t q 0x20 0x0707)) ∧
       (s.firmwareOk im = true → field im 0x0C 4 < s.sec.rollback.toNat →
         Completes (exec (.fwStage q) s) (fun t => t.sec.slots = s.sec.slots ∧ t.flash = s.flash ∧ Replies s t q 0x0708 []))) ∧
     (Serves s q 0x0131 r → s.sec.inTrial = false → s.sec.fwStaged = true →
       Completes (exec (.fwActivate q) s) (fun t => t.sec.switchRec = { slot := !s.sec.fwSlot, trial := 1 } ∧ t.sec.fwSlot = s.sec.fwSlot ∧
         Replies s t q 0 [] ∧ Logged s t q 0x21 0)) ∧
     (Serves s q 0x0132 r → s.sec.inTrial = true →
       Completes (exec (.fwConfirm q) s) (fun t => t.sec.switchRec = { slot := s.sec.fwSlot, trial := 0 } ∧
         t.sec.rollback = BitVec.ofNat 7 (max s.sec.rollback.toNat s.sec.running.security) ∧
         Replies s t q 0 (leBytes 4 (max s.sec.rollback.toNat s.sec.running.security) ++ leBytes 4 0) ∧ Logged s t q 0x22 0)) ∧
     (∀ op, op ∈ [(0x0131, Instr.fwActivate q), (0x0130, Instr.fwStage q)] → Serves s q op.1 r → s.sec.inTrial = true →
       Completes (exec op.2 s) (fun t => t.sec.switchRec = s.sec.switchRec ∧ t.sec.slots = s.sec.slots ∧ Replies s t q 0x0709 [])) ∧
     (∀ n : Fin 4, Serves s q 0x0133 r → field q.bytes 0x20 1 = n.val →
       ((∀ k ∈ s.sec.installer[n], k.revoked = true) → hssKeyOk (sliceBytes q.bytes 0x28 60) = true →
         Completes (exec (.keyEnrol q) s) (fun t => t.sec.installer[n] = some { key := sliceBytes q.bytes 0x28 60 } ∧
           (∀ m : Fin 4, m ≠ n → t.sec.installer[m] = s.sec.installer[m]) ∧ t.sec.generation = s.sec.generation + 1 ∧
           Replies s t q 0 [] ∧ Logged s t q 0x30 0)) ∧
       (∀ k, s.sec.installer[n] = some k → k.revoked = false →
         Completes (exec (.keyEnrol q) s) (fun t => t.sec.installer = s.sec.installer ∧ Replies s t q 0x0704 []))) ∧
     (∀ (n : Fin 4) (k : InstallerKey), Serves s q 0x0134 r → field q.bytes 0x20 1 = 0 → field q.bytes 0x21 1 = n.val →
       s.cfg.staged = none → s.sec.installer[n] = some k → k.revoked = false →
       (s.sec.enrolled ≠ 1#4 <<< n.val ∨ (s.sec.roles[q.transport]).role = .maker →
         Completes (exec (.keyRevoke q) s) (fun t => t.sec.installer[n] = some { k with revoked := true } ∧
           (∀ m : Fin 4, m ≠ n → t.sec.installer[m] = s.sec.installer[m]) ∧
           (∀ u : Transport, ¬ ((t.sec.roles[u]).role = .installer ∧ (t.sec.roles[u]).slot = n.val)) ∧ Replies s t q 0 [])) ∧
       (s.sec.enrolled = 1#4 <<< n.val → (s.sec.roles[q.transport]).role ≠ .maker →
         Completes (exec (.keyRevoke q) s) (fun t => t.sec.installer = s.sec.installer ∧ Replies s t q 0x070A []))) ∧
     (∀ slot : Nat, Serves s q 0x0134 r → field q.bytes 0x20 1 = 1 → field q.bytes 0x21 1 = slot → s.cfg.staged = none → slot ≤ 5 →
       4 ≤ slot ∨ (s.sec.roles[q.transport]).role = .maker →
       (4 ≤ slot ∨ q.fuseFails = false →
         Completes (exec (.keyRevoke q) s) (fun t => t.sec.key slot = none ∧ t.sec.keyRevoked.getLsbD slot = true ∧
           Replies s t q 0 [] ∧ Logged s t q 0x31 0)) ∧
       (slot < 4 → q.fuseFails = true → Completes (exec (.keyRevoke q) s) (fun t => t.sec.fuseRevoked = s.sec.fuseRevoked ∧
         Replies s t q 0x0712 [] ∧ Logged s t q 0x31 0x0712))) ∧
     (∀ (n : Fin 2), Serves s q 0x0135 r → field q.bytes 0x20 1 = 4 + n.val → s.cfg.staged = none →
       (field q.bytes 0x22 1 = 1 → Completes (exec (.keyProgram q) s) (fun t => t.sec.battKeys[n] = none ∧ Replies s t q 0 [])) ∧
       (∀ wrap key : List Byte, field q.bytes 0x22 1 = 0 → field q.bytes 0x21 1 < 4 → s.sec.key (field q.bytes 0x21 1) = some wrap →
         keyUnwrap wrap (sliceBytes q.bytes 0x28 40) = some key →
         Completes (exec (.keyProgram q) s) (fun t => t.sec.battKeys[n] = some key ∧ t.sec.battRevoked.getLsbD n.val = false ∧
           Replies s t q 0 [] ∧ Logged s t q 0x32 0)) ∧
       (∀ wrap : List Byte, field q.bytes 0x22 1 = 0 → field q.bytes 0x21 1 < 4 → s.sec.key (field q.bytes 0x21 1) = some wrap →
         keyUnwrap wrap (sliceBytes q.bytes 0x28 40) = none →
         Completes (exec (.keyProgram q) s) (fun t => t.sec.battKeys = s.sec.battKeys ∧ Replies s t q 0x070B [])))) ∧
  (∀ (s : State) (q : Request) (r : OpRow),
     (∀ (g : Grant) (im : List Byte), Serves s q 0x0138 r → s.grantOf q.bytes = some g →
       field q.bytes 0x28 8 + field q.bytes 0x30 8 ≤ g.bytes → im = ((admitted s q r).readRange 0 (g.base + field q.bytes 0x28 8) (field q.bytes 0x30 8)).2.1 →
       s.cfg.staged = none → (imgHeader im).total ≤ 0x10000000 →
       ((admitted s q r).goldenFault im = (0, 0) → Completes (exec (.goldenStore q) s) (fun t => t.flash = Cells.write 0xFF s.flash 0x10000000 im ∧
         t.cfg = s.cfg ∧ t.fabric = s.fabric ∧ Replies s t q 0 (leBytes 8 0) ∧ Logged s t q 0x40 0)) ∧
       (∀ (c : Code) (o : Nat), (admitted s q r).goldenFault im = (c, o) → c ≠ 0 → Completes (exec (.goldenStore q) s) (fun t => t.flash = s.flash ∧
         Replies s t q c (leBytes 4 o ++ leBytes 4 0)))) ∧
     (∀ n : Fin 4, Serves s q 0x0139 r → field q.bytes 0x20 1 = n.val →
       (∀ key, s.sec.fuseKeys[n] = none → keyUnwrap s.sec.provKey (sliceBytes q.bytes 0x28 40) = some key → q.fuseFails = true →
         Completes (exec (.fuseProgram q) s) (fun t => t.sec.fuseKeys = s.sec.fuseKeys ∧ Replies s t q 0x0712 [])) ∧
       (∀ key, s.sec.fuseKeys[n] = none → keyUnwrap s.sec.provKey (sliceBytes q.bytes 0x28 40) = some key → q.fuseFails = false →
         Completes (exec (.fuseProgram q) s) (fun t => t.sec.fuseKeys[n] = some key ∧
           (∀ m : Fin 4, m ≠ n → t.sec.fuseKeys[m] = s.sec.fuseKeys[m]) ∧ Replies s t q 0 [] ∧ Logged s t q 0x41 0)) ∧
       (s.sec.fuseKeys[n] ≠ none → Completes (exec (.fuseProgram q) s) (fun t => t.sec.fuseKeys = s.sec.fuseKeys ∧
         Replies s t q 0x0712 []))) ∧
     (Serves s q 0x013A r → field q.bytes 0x20 1 = 1 →
       (s.jobsActive = false → Completes (exec (.testMode q) s) (fun t => t.sec.testMode = true ∧ t.dist.active = none ∧
         t.dist.staged = none ∧ Replies s t q 0 [] ∧ Logged s t q 0x42 0)) ∧
       (s.jobsActive = true → Completes (exec (.testMode q) s) (fun t => t.sec.testMode = s.sec.testMode ∧
         t.dist.active = s.dist.active ∧ Replies s t q 0x070F []))) ∧
     (Serves s q 0x013B r →
       (s.jobsActive = false → Completes (exec (.raUnlock q) s) (fun t => t.sec.raFuse = true ∧ t.sec.fuseRevoked = 0xF ∧
         (∀ n : Fin 2, t.sec.battKeys[n] = none) ∧ (∀ n : Fin 4, ∃ k, t.sec.installer[n] = some k ∧ k.revoked = true) ∧
         (∀ u : Transport, (t.sec.roles[u]).role = .operator) ∧ Replies s t q 0 [])) ∧
       (s.jobsActive = true → Completes (exec (.raUnlock q) s) (fun t => t.sec.raFuse = s.sec.raFuse ∧
         t.sec.installer = s.sec.installer ∧ Replies s t q 0x070F [] ∧ Logged s t q 0x43 0x070F))))

/-- Rungs 1 to 3 (R478 to R480): a reset spindle keeps its memories and banks and loses the rest, a power-cycled one loses its memories too, and the entry
that reaches the repeat limit, or rung 3, marks the spindle failed. Other spindles stand as they were.
Rungs 4 to 7 (R477 to R479, R481, R487): a compute reset of a skein, a die or the device fails the step with 0x0804, resets the spindles and boards of
its unit, which keep their memories and lists, and takes the compute part out of service; a full device reset keeps flash, the audit log and the
selvedge's own time, loses memory and jobs, and trains memory. -/
def Obligations.Rungs : Prop :=
  (∀ (s : State) (i : Spindle) (cause : Code),
     (RungFree s (.spindle i) 1 → (s.spindles[i]).power ≠ .failed → (s.rungEntries i).length < s.flt.repeatLimit.toNat →
       Completes (exec (.spindleReset i cause) s) (fun t => RungRuns t (.spindle i) 1 (rungCause cause) s.now ∧
         (t.spindles[i]).power = .resetting ∧ (t.spindles[i]).scratch = (s.spindles[i]).scratch ∧
         (t.spindles[i]).acc0 = (s.spindles[i]).acc0 ∧ (t.spindles[i]).acc1 = (s.spindles[i]).acc1 ∧
         (t.spindles[i]).seq.bank0 = (s.spindles[i]).seq.bank0 ∧ (t.spindles[i]).seq.bank1 = (s.spindles[i]).seq.bank1 ∧
         (t.spindles[i]).seq.activeBank = (s.spindles[i]).seq.activeBank ∧ (t.spindles[i]).num.mask = (s.spindles[i]).num.mask ∧
         (t.spindles[i]).num.flags = 0 ∧ (t.spindles[i]).passes = [] ∧ (t.spindles[i]).vec = {} ∧ (t.spindles[i]).seq.pc = 0 ∧
         (t.spindles[i]).rungTicks = s.rungEntries i ∧ (∀ j : Spindle, j ≠ i → t.spindles[j] = s.spindles[j]) ∧ t.step = s.step)) ∧
     (RungFree s (.spindle i) 2 → (s.spindles[i]).power ≠ .failed → (s.rungEntries i).length < s.flt.repeatLimit.toNat →
       Completes (exec (.spindlePowerCycle i cause) s) (fun t => RungRuns t (.spindle i) 2 (rungCause cause) s.now ∧
         (t.spindles[i]).power = .powerCycling ∧ (t.spindles[i]).scratch = [] ∧ (t.spindles[i]).acc0 = [] ∧ (t.spindles[i]).acc1 = [] ∧
         (t.spindles[i]).seq.bank0 = [] ∧ (t.spindles[i]).seq.bank1 = [] ∧ (t.spindles[i]).passes = [] ∧ (t.spindles[i]).vec = {} ∧
         (∀ j : Spindle, j ≠ i → t.spindles[j] = s.spindles[j]) ∧ t.mem = s.mem ∧ t.step = s.step)) ∧
     (RungFree s (.spindle i) 1 → (s.spindles[i]).power ≠ .failed → s.flt.repeatLimit.toNat ≤ (s.rungEntries i).length →
       Completes (exec (.spindleReset i cause) s) (fun t => (t.spindles[i]).power = .failed ∧ t.flt.failed.getLsbD i.val = true ∧
         t.flt.lastFault = 0x0803)) ∧
     (RungFree s (.spindle i) 3 → (s.spindles[i]).power ≠ .failed →
       Completes (exec (.spindleMarkedFailed i cause) s) (fun t => (t.spindles[i]).power = .failed ∧
         t.flt.failed = s.flt.failed ||| (1#128 <<< i.val) ∧ t.flt.lastFault = 0x0803 ∧ (t.spindles[i]).scratch = [] ∧
         (∀ j : Spindle, j ≠ i → t.spindles[j] = s.spindles[j]))) ∧
     (s.flt.dead = true → exec (.spindleReset i cause) s = .next s ∧ exec (.spindlePowerCycle i cause) s = .next s)) ∧
  ((∀ (s : State) (cause : Code) (k : Instr) (u : ResetUnit) (rung : Nat),
     (∃ x : Skein, k = .skeinComputeReset x cause ∧ u = .skein x ∧ rung = 4) ∨
       (∃ d : Die, k = .dieComputeReset d cause ∧ u = .die d ∧ rung = 5) ∨ (k = .deviceComputeReset cause ∧ u = .device ∧ rung = 6) →
     (RungFree s u rung → Completes (exec k s) (fun t => RungRuns t u rung (rungCause cause) s.now ∧
       t.flt.outOfService = true ∧ (∀ x ∈ resetSkeins u, (t.skeins[x]).inReset = true ∧ (t.skeins[x]).lists = (s.skeins[x]).lists ∧
         (t.skeins[x]).descs = (s.skeins[x]).descs ∧ (t.skeins[x]).boardActive = false) ∧
       (∀ i ∈ resetSpindles u, (s.spindles[i]).power = .on → (t.spindles[i]).power = .resetting ∧
         (t.spindles[i]).scratch = (s.spindles[i]).scratch ∧ (t.spindles[i]).acc0 = (s.spindles[i]).acc0 ∧
         (t.spindles[i]).seq.bank0 = (s.spindles[i]).seq.bank0 ∧ (t.spindles[i]).passes = [] ∧ (t.spindles[i]).seq.pc = 0) ∧
       (s.stepOpen = true → s.step.cause = 0 → t.step.faulted = true ∧ t.step.cause = 0x0804) ∧
       t.dist.jobs = s.dist.jobs ∧ t.flash = s.flash)) ∧
     (s.flt.dead = true → exec k s = .next s)) ∧
   (∀ (s : State) (cause : Code) (found : Training), s.flt.dead = false → s.inFullReset = false →
     Completes (exec (.fullDeviceReset cause found) s) (fun t => t.inFullReset = true ∧ RungRuns t .device 7 (rungCause cause) s.now ∧
       t.flt.lastRung = 7 ∧ t.flt.lastCode = rungCause cause ∧ t.flash = s.flash ∧ t.sec.audit = s.sec.audit ∧
       t.sec.rollback = s.sec.rollback ∧ t.sec.installer = s.sec.installer ∧ (∀ x : Transport, (t.sec.roles[x]).role = .operator) ∧
       t.mem = [] ∧ t.dist.jobs = [] ∧ t.dist.active = none ∧ t.dist.grants = [] ∧ t.step.phase = .idle ∧ t.tick.enable = false ∧
       t.slv.barrierUp = false ∧ t.now = s.now ∧ t.pending = s.pending ∧
       (s.pwr.sysRstLow = false → s.pwr.thermtripLow = false → s.pwr.refCoreBad = false → t.flt.trained = true))))

/-- How rungs end (R476 to R478, R484, R485): in time, the unit is free, a lane returns its staple, and the pattern is restored and the compute part
returns at a tick edge 10 µs later; a rung past its bound is recorded as 0x0802 and the next rung starts over the enclosing unit; a late rung 7 holds
the device.
WATCHDOG_HANG, AGENT_HEARTBEAT_MISS and CORE_HEARTBEAT_MISS (R468 to R471): a unit that was watched and made no progress throughout the window is
latched and its rung starts with 0x0801; an agent is silent for 1 ms; a core loses the requests it held, and the fourth loss within an hour halts it. -/
def Obligations.RungsEndAndWatch : Prop :=
  ((∀ (s : State) (u : ResetUnit) (r : Rung), Clocked s → s.rungOn u = some r → s.now ≤ r.boundFrom + rungBound r.rung →
     (∀ i : Spindle, u = .spindle i → r.rung = 1 →
       Completes (exec (.rungComplete u) s) (fun t => (∀ x ∈ t.flt.rungs, x.unit ≠ u) ∧
         ((s.spindles[i]).power = .resetting → t.spindles[i] = { s.spindles[i] with power := .on, returning := none }) ∧
         (∀ n : Staple, (s.spindles[i]).returning = some n →
           (t.skeins[skeinOf i]).returned = (s.skeins[skeinOf i]).returned ++ [n] ∧
           ∀ p ∈ (t.skeins[skeinOf i]).inProgress, p.1 ≠ laneOf i) ∧
         (∀ j : Spindle, j ≠ i → t.spindles[j] = s.spindles[j]))) ∧
     (u = .device → r.rung = 6 → (∀ x ∈ s.flt.rungs, x.unit ≠ .device → x.rung < 4) →
       Completes (exec (.rungComplete u) s) (fun t => (∀ x ∈ t.flt.rungs, x.unit ≠ u) ∧ t.flt.restoringSince = some s.now ∧
         (∀ k : Skein, (t.skeins[k]).inReset = false) ∧ t.flt.outOfService = s.flt.outOfService)) ∧
     (r.rung = 7 → s.flt.trained = true → s.pwr.sysRstLow = false → s.flt.dead = false →
       Completes (exec (.rungComplete u) s) (fun t => t.flt.rungs = [] ∧ t.pwr.capW = s.pwr.limitW ∧ t.cfg.bootDue = true ∧
         t.sec.bootCount = s.sec.bootCount + 1 ∧ t.sec.testMode = false ∧ (∀ e : Fin 4, (t.edges[e]).up = true) ∧
         t.dist.alive = t.sec.bootable t.sec.fwSlot)) ∧
     exec (.fltResetTimeout u) s = .next s) ∧
   (∀ (s : State) (u : ResetUnit) (r : Rung), s.rungOn u = some r → r.boundFrom + rungBound r.rung < s.now →
     (∀ i : Spindle, u = .spindle i → r.rung = 1 → RungFree s u 2 → (s.spindles[i]).power ≠ .failed →
       (s.rungEntries i).length < s.flt.repeatLimit.toNat →
       Completes (exec (.fltResetTimeout u) s) (fun t => t.flt.escalated = true ∧ t.flt.lastFault = 0x0802 ∧
         (t.spindles[i]).power = .powerCycling ∧ RungRuns t u 2 0x0802 s.now)) ∧
     (∀ k : Skein, u = .skein k → r.rung = 4 → RungFree s (.die (dieOfSkein k)) 5 →
       Completes (exec (.fltResetTimeout u) s) (fun t => t.flt.escalated = true ∧ RungRuns t (.die (dieOfSkein k)) 5 0x0802 s.now)) ∧
     (∀ d : Die, u = .die d → r.rung = 5 → RungFree s .device 6 →
       Completes (exec (.fltResetTimeout u) s) (fun t => t.flt.escalated = true ∧ RungRuns t .device 6 0x0802 s.now)) ∧
     (r.rung = 7 → s.pwr.sysRstLow = false → s.pwr.thermtripLow = false → s.pwr.refCoreBad = false →
       Completes (exec (.fltResetTimeout u) s) (fun t => t.flt.dead = true ∧ t.dist.alive = false ∧ t.flt.lastFault = 0x0802))) ∧
   (∀ s : State, Clocked s → s.flt.restoringSince ≠ none → s.dist.alive = true → (∀ r ∈ s.flt.rungs, r.rung < 4) →
     Completes (exec .restoreComplete s) (fun t => t.flt.restoringSince = none ∧ t.flt.restoredAt = some s.now ∧
       (s.dist.active = none → t = { s with flt := t.flt }))) ∧
   (∀ (s : State) (at_ : Time), s.flt.restoredAt = some at_ →
     (at_ + 170000 ≤ s.tick.lastEdge →
       exec .returnToService s = .next { s with flt := { s.flt with outOfService := false, restoredAt := none } }) ∧
     (s.tick.lastEdge < at_ + 170000 → exec .returnToService s = .next s))) ∧
  (∀ s : State,
     (∀ (w : WatchUnit) (cls index rung : Nat) (u : ResetUnit), s.flt.wdogEn = true → s.hung w = true →
       hangRung w = (cls, index, u, rung) →
       Completes (exec (.watchdogHang w) s) (fun t =>
         (RungFree s u rung → rung = 4 ∨ rung = 5 → RungRuns t u rung 0x0801 s.now ∧ t.flt.hangSeen = true ∧
           (s.flt.hangSeen = false → t.flt.hangClass = BitVec.ofNat 3 cls ∧ t.flt.hangIndex = BitVec.ofNat 10 index)) ∧
         (∀ i : Spindle, w = .spindle i → RungFree s u 1 → (s.spindles[i]).power ≠ .failed →
           (s.rungEntries i).length < s.flt.repeatLimit.toNat → RungRuns t u 1 0x0801 s.now ∧ t.flt.hangSeen = true) ∧
         (w = .crossbar → s.flt.dead = false → s.inFullReset = false → RungRuns t .device 7 0x0801 s.now))) ∧
     (∀ w : WatchUnit, s.flt.wdogEn = false ∨ s.hung w = false → exec (.watchdogHang w) s = .next s) ∧
     (∀ w : WatchUnit, s.watched w = false ∨ (s.sampleOf w).seen ≠ s.progress w ∨ s.now < (s.sampleOf w).since + s.hangWindow →
       s.hung w = false) ∧
     (s.flt.windowUs = 0 → s.hangWindow = max (17 * s.tick.periodNs.toNat / 4) 170000) ∧
     (s.flt.windowUs ≠ 0 → s.hangWindow = 17000 * max s.flt.windowUs.toNat 10) ∧
     (∀ d : Die, Completes (exec (.agentHeartbeatMiss d) s) (fun t => (t.dies[d]).agentUntil = s.now + 17000000 ∧
       t.flt.lastFault = 0x0807 ∧ t = { s with dies := t.dies, flt := t.flt, slv := t.slv } ∧ ∀ e : Die, e ≠ d → t.dies[e] = s.dies[e])) ∧
     (∀ core : Fin 4, s.dist.alive = true → s.flt.coreHalted.getLsbD core.val = false →
       Completes (exec (.coreHeartbeatMiss core) s) (fun t => (∀ h ∈ t.dist.queue, h.core ≠ core.val) ∧
         (∀ h ∈ s.dist.queue, h.core ≠ core.val → h ∈ t.dist.queue) ∧ t.flt.lastFault = 0x0806 ∧
         t.flt.coreResets[core] = s.now :: (s.flt.coreResets[core]).filter (fun x => decide (s.now < x + 61200000000000)) ∧
         (t.flt.coreHalted.getLsbD core.val = true ↔
           3 ≤ ((s.flt.coreResets[core]).filter (fun x => decide (s.now < x + 61200000000000))).length) ∧
         t = { s with dist := t.dist, flt := t.flt, slv := t.slv })))

/-- WFT_EDGE_DOWN, DIE_EDGE_RETRAINED and FLT_EDGE_FAILED (R482): an edge that goes down fails the step with 0x0987 and is noted by its two dies; it is up
again within three retrains of 100 µs, or the full device reset starts.
FUNCTION_DISABLE, FUNCTION_DRAIN_COMPLETE and FUNCTION_ENABLE (R489 to R491): a function that is on drains, is off with its drain time once drained,
and an enabled spindle, channel or link comes back; another function's state stands. -/
def Obligations.EdgesAndFunctions : Prop :=
  (∀ (s : State) (e : Fin 4),
     ((s.edges[e]).up = true → Completes (exec (.wftEdgeDown e) s) (fun t => (t.edges[e]).up = false ∧ (t.edges[e]).downAt = s.now ∧
       (∀ f : Fin 4, f ≠ e → t.edges[f] = s.edges[f]) ∧
       (s.stepOpen = true → s.step.cause = 0 → t.step.faulted = true ∧ t.step.cause = 0x0987 ∧ t.step.unit = BitVec.ofNat 16 e.val) ∧
       (e = 0 → (s.dies[0]).code = 0 → (t.dies[0]).code = 0x0987 ∧ (t.dies[0]).edgeRowUp = false ∧ (t.dies[1]).edgeRowUp = false) ∧
       (e = 2 → (t.dies[0]).edgeColUp = false ∧ (t.dies[2]).edgeColUp = false ∧ (t.dies[0]).edgeRowUp = (s.dies[0]).edgeRowUp))) ∧
     ((s.edges[e]).up = false → exec (.wftEdgeDown e) s = .next s) ∧
     ((s.edges[e]).up = false → s.inFullReset = false →
       (s.now ≤ (s.edges[e]).downAt + 5100000 → Completes (exec (.dieEdgeRetrained e) s) (fun t =>
         t.edges[e] = { s.edges[e] with up := true } ∧ t = { s with edges := t.edges, dies := t.dies })) ∧
       ((s.edges[e]).downAt + 5100000 < s.now → exec (.dieEdgeRetrained e) s = .next s) ∧
       (s.flt.dead = false → Completes (exec (.fltEdgeFailed e) s) (fun t => RungRuns t .device 7 0x080A s.now)))) ∧
  (∀ (s : State) (f : Func),
     ((s.fnOf f).st = .on → Completes (exec (.functionDisable f) s) (fun t =>
       (∀ i : Spindle, f = .spindle i → (t.fnOf f).st = .draining ∧ (t.fnOf f).since = s.now ∧
         ((t.spindles[i]).preemptPending = some .abandon) ∧ (∀ j : Spindle, j ≠ i → t.fnOf (.spindle j) = s.fnOf (.spindle j))) ∧
       (∀ c : Chan, f = .channel c → (t.fnOf f).st = .draining ∧ (t.chan c).disable = true ∧ (t.chan c).queued = none) ∧
       (∀ l : Link, f = .link l → (t.fnOf f).st = .draining ∧
         (s.linkInUse l = true → s.stepOpen = true → s.step.cause = 0 → t.step.cause = 0x0810)) ∧
       (∀ r : Region, f = .region r → (s.region r).state ≠ 5 → (s.region r).state ≠ 0 → (s.region r).poweringOff = false →
         (t.fnOf f).st = .draining ∧ (t.region r).poweringOff = true ∧ (t.region r).power = false) ∧
       (∀ p : Fin 768, f = .hbmPc p → (t.fnOf f).st = .draining ∧ t.mem = s.mem) ∧
       (∀ n : Fin 12, f = .ddrCh n → (t.fnOf f).st = .draining ∧ t.mem = s.mem))) ∧
     ((s.fnOf f).st ≠ .on → exec (.functionDisable f) s = .next s) ∧
     ((s.fnOf f).st = .draining → s.drained f = true → Completes (exec (.functionDrainComplete f) s) (fun t =>
       (t.fnOf f).st = .off ∧ (t.fnOf f).drain = BitVec.ofNat 16 (min ((s.now - (s.fnOf f).since) / 272) 0xFFFF) ∧
       (∀ i : Spindle, f = .spindle i → (t.spindles[i]).power = .off ∧ (t.spindles[i]).scratch = []) ∧
       (∀ l : Link, f = .link l → (t.links[l]).phase = .down))) ∧
     ((s.fnOf f).st = .draining → s.drained f = false → exec (.functionDrainComplete f) s = .next s) ∧
     ((s.fnOf f).st = .off → Completes (exec (.functionEnable f) s) (fun t =>
       (∀ i : Spindle, f = .spindle i → (t.fnOf f).enabling = true ∧ (t.fnOf f).st = .off) ∧
       (∀ c : Chan, f = .channel c → (t.fnOf f).enabling = true ∧ (t.chan c).disable = false) ∧
       (∀ l : Link, f = .link l → (t.fnOf f).st = .on ∧ (t.links[l]).downAt = some s.now) ∧
       (∀ r : Region, f = .region r → t = s) ∧ (∀ p : Fin 768, f = .hbmPc p → t = s) ∧ (∀ n : Fin 12, f = .ddrCh n → t = s))) ∧
     ((s.fnOf f).st = .on → exec (.functionEnable f) s = .next s))

/-- Temperatures (R432, R492, R493, R521 to R525): a reading sets its die's registers and raises its level to the target at once; the level falls one step
after fall_ms; a trip latches its sensor, takes THERMTRIP_N low and every link down, and lasts until every die has been below 95 °C for 1 s with
SYS_RST_N low. The unit of the operands, a tenth of a degree, and the doubled refresh of a DDR5 channel are the model's choices (log 53, log 135).
The emergency throttle (R492, R493): a source raises it at once, with code 0x0821, and marks the step; it ends 100 µs after the last source. -/
def Obligations.ThermalCommands : Prop :=
  (∀ (s : State) (d : Die),
     (∀ sensors hot modules : List Nat, Completes (exec (.thermalReading d sensors hot modules) s) (fun t =>
       (t.pwr.therm[d]).temp = wholeDegrees (controlTemp sensors hot) ∧ (t.pwr.therm[d]).readAt = s.now ∧
       (t.pwr.therm[d]).stale = false ∧ (t.pwr.therm[d]).target = thermTarget s.pwr.startC (controlTemp sensors hot) ∧
       (t.pwr.therm[d]).level = (if (s.pwr.therm[d]).level.toNat < (thermTarget s.pwr.startC (controlTemp sensors hot)).toNat
         then thermTarget s.pwr.startC (controlTemp sensors hot) else (s.pwr.therm[d]).level) ∧
       (∀ e : Die, e ≠ d → t.pwr.therm[e] = s.pwr.therm[e]) ∧
       (1050 < sensors.foldl max 0 → t.flt.envTemp = true) ∧ t.mem = s.mem ∧ t.spindles = s.spindles ∧
       (∀ n : Fin 12, n.val / 3 = d.val → ∀ c, hot[n.val % 3]? = some c →
         t.hbm[n] = { s.hbm[n] with temp := wholeDegrees c, refresh2x := decide (850 < c) }) ∧
       (∀ n : Fin 12, n.val / 3 = d.val → ∀ c, modules[n.val % 3]? = some c →
         t.ddr[n] = { s.ddr[n] with temp := wholeDegrees c, refresh2x := decide (850 < c) }) ∧
       (∀ n : Fin 12, n.val / 3 ≠ d.val → t.hbm[n] = s.hbm[n] ∧ t.ddr[n] = s.ddr[n]))) ∧
     (∀ at_ : Time, (s.pwr.therm[d]).coolSince = some at_ → (s.pwr.therm[d]).target.toNat < (s.pwr.therm[d]).level.toNat →
       (at_ + 17000000 * max 1 s.pwr.fallMs.toNat ≤ s.now → Completes (exec (.thermalLevelStepDown d) s) (fun t =>
         (t.pwr.therm[d]).level = (s.pwr.therm[d]).level - 1 ∧ t = { s with pwr := t.pwr, slv := t.slv } ∧
         ∀ e : Die, e ≠ d → t.pwr.therm[e] = s.pwr.therm[e])) ∧
       (s.now < at_ + 17000000 * max 1 s.pwr.fallMs.toNat → exec (.thermalLevelStepDown d) s = .next s)) ∧
     (∀ (sensor : Fin 64) (tempC : BitVec 8), s.pwr.thermtripLow = false →
       (tripReading d sensor tempC = true → Completes (exec (.thermalTrip d sensor tempC) s) (fun t =>
         t.pwr.thermtripLow = true ∧ t.pwr.trip = true ∧ t.pwr.tripTemp = tempC ∧ t.pwr.tripDie = BitVec.ofNat 2 d.val ∧
         t.pwr.tripSensor = BitVec.ofNat 6 sensor.val ∧ (∀ l : Link, (t.links[l]).phase = .down) ∧
         t = { s with pwr := t.pwr, flt := t.flt, links := t.links })) ∧
       (tripReading d sensor tempC = false → exec (.thermalTrip d sensor tempC) s = .next s)) ∧
     (s.pwr.thermtripLow = true → s.pwr.sysRstLow = true → (∀ e : Die, ∃ at_, (s.pwr.therm[e]).below95 = some at_ ∧ at_ + 17000000000 ≤ s.now) →
       exec .thermtripRelease s = .next { s with pwr := { s.pwr with trip := false, thermtripLow := false } }) ∧
     (s.pwr.sysRstLow = false → exec .thermtripRelease s = .next s) ∧
     (∀ t10 : Nat, t10 < 10 * s.pwr.startC.toNat → thermTarget s.pwr.startC t10 = 0) ∧
     (∀ t10 : Nat, 10 * s.pwr.startC.toNat ≤ t10 → 1045 ≤ t10 → thermTarget s.pwr.startC t10 = 15) ∧
     (∀ a b : Nat, a ≤ b → (thermTarget s.pwr.startC a).toNat ≤ (thermTarget s.pwr.startC b).toNat)) ∧
  (∀ (s : State) (d : Die), s.pwr.thermtripLow = false →
     (Completes (exec .alertNLow s) (fun t => t.flt.emergActive = true ∧ t.flt.alert = true ∧
       (s.flt.emergActive = false → t.flt.lastFault = 0x0821) ∧ (s.stepOpen = true → t.step.level15 = true ∧ t.step.emergency = true) ∧
       ∀ e : Die, t.dieLevel e = 15)) ∧
     (Completes (exec (.emergencyFwForce true) s) (fun t => t.flt.emergActive = true ∧ t.flt.fwForce = true ∧
       (s.stepOpen = true → t.step.level15 = true) ∧ ∀ e : Die, t.dieLevel e = 15)) ∧
     (s.flt.alert = false → s.flt.stale = false → s.flt.emergActive = true → s.flt.clearSince = none →
       Completes (exec (.emergencyFwForce false) s) (fun t => t.flt.emergActive = true ∧ t.flt.clearSince = some s.now ∧ t.step = s.step)) ∧
     ((s.pwr.therm[d]).readAt + 170000000 < s.now → Completes (exec (.thermalReadingsStale d) s) (fun t =>
       (t.pwr.therm[d]).stale = true ∧ t.flt.stale = true ∧ t.flt.emergActive = true)) ∧
     (s.now ≤ (s.pwr.therm[d]).readAt + 170000000 → exec (.thermalReadingsStale d) s = .next s) ∧
     (∀ at_ : Time, s.flt.emergActive = true → s.flt.stale = false → s.flt.fwForce = false → s.flt.clearSince = some at_ →
       (at_ + 1700000 ≤ s.now → Completes (exec .emergencyThrottleEnd s) (fun t => t.flt.emergActive = false ∧ t.flt.alert = false ∧
         t = { s with flt := t.flt, pwr := t.pwr, slv := t.slv } ∧ ∀ e : Die, t.dieLevel e = (s.pwr.therm[e]).level)) ∧
       (s.now < at_ + 1700000 → exec .emergencyThrottleEnd s = .next s)))

/-- Supplies and clocks (R450, R502, R504, R509, R516, R518, R524): a compute rail out of range is latched first and recorded with 0x0830; a lost
reference clock with 0x0831; VBAT lost without supply clears the battery-backed keys; a set point goes out within 650 to 850 mV; the poll sums the
compute rails' power.
Pins (R367, R476, R481, R505, R512 to R515, R518): SYS_RST_N resets the device and its rise samples the straps and starts the bound; TICK_IN places an
edge within 1 µs of its expected time; TCK steps the TAP; power removal keeps flash and, with VBAT, the key store. -/
def Obligations.SuppliesAndPins : Prop :=
  (∀ s : State,
     (∀ rail : Fin 18, s.pwr.sysRstLow = false → rail.val < 13 → Completes (exec (.fltEnvironment rail) s) (fun t =>
       t.pwr.railFault = true ∧ (s.pwr.railFault = false → t.pwr.rail = BitVec.ofNat 8 rail.val) ∧
       (s.pwr.railFault = true → t.pwr.rail = s.pwr.rail) ∧ t.flt.envSupply = true ∧ t.flt.lastFault = 0x0830 ∧
       t = { s with pwr := t.pwr, flt := t.flt, slv := t.slv })) ∧
     (∀ rail : Fin 18, s.pwr.sysRstLow = true ∨ 13 ≤ rail.val → exec (.fltEnvironment rail) s = .next s) ∧
     (s.pwr.sysRstLow = false → Completes (exec (.fltRefclk .core) s) (fun t => t.pwr.refCoreBad = true ∧ t.flt.envCore = true ∧
       t.flt.lastFault = 0x0831 ∧ t = { s with pwr := t.pwr, flt := t.flt, slv := t.slv })) ∧
     (∀ d : Die, s.pwr.sysRstLow = false → Completes (exec (.fltRefclk (.warp d)) s) (fun t => t.pwr.refWarpBad.getLsbD d.val = true ∧
       t.flt.envWarp = true ∧ t.flt.lastFault = 0x0831 ∧ ∀ l : Link, linkDie l = d → (t.links[l]).phase = .down)) ∧
     (Completes (exec .vbatLoss s) (fun t => t.sec.vbat = false ∧ t.sec.vbatOk = false ∧ t = { s with sec := t.sec } ∧
       (s.mgmtUp = true → t.sec.battKeys = s.sec.battKeys) ∧
       (s.mgmtUp = false → (∀ n : Fin 2, t.sec.battKeys[n] = none) ∧ t.sec.vbatLost = true))) ∧
     (∀ (d : Die) (mv v : BitVec 10), s.pwr.sysRstLow = false → Completes (exec (.avsSetPoint d mv (some v)) s) (fun t =>
       (t.pwr.therm[d]).setMv.toNat = min 850 (max 650 mv.toNat) ∧ (t.pwr.therm[d]).readMv = v ∧ t = { s with pwr := t.pwr })) ∧
     (∀ (d : Die) (mv : BitVec 10), s.pwr.sysRstLow = false → Completes (exec (.avsSetPoint d mv none) s) (fun t =>
       (t.pwr.therm[d]).setMv.toNat = min 850 (max 650 mv.toNat) ∧ (t.pwr.therm[d]).readMv = (s.pwr.therm[d]).readMv ∧
       t.flt.lastFault = 0x0830)) ∧
     (∀ rs : List RailReading, s.dist.alive = true → s.pwr.sysRstLow = false → exec (.pmbusPoll rs) s = .next { s with pwr := { s.pwr with
       rails := rs, powerW := BitVec.ofNat 16 (min (((rs.filter (fun r => decide (r.rail.val < 13))).map (fun r => r.mv * r.ma)).sum / 1000000)
         0xFFFF) } })) ∧
  ((∀ s : State,
     (s.pwr.sysRstLow = false → s.flt.dead = false → s.inFullReset = false → Completes (exec .sysRstNLow s) (fun t =>
       t.pwr.sysRstLow = true ∧ t.pwr.sysRstSince = s.now ∧ RungRuns t .device 7 0x0812 s.now ∧ t.flash = s.flash)) ∧
     (s.pwr.sysRstLow = true → exec .sysRstNLow s = .next s) ∧
     (∀ (failMode : Bool) (boot : BitVec 2) (coreBad : Bool) (warpBad : BitVec 4), s.pwr.sysRstLow = true →
       Completes (exec (.sysRstNRise failMode boot coreBad warpBad) s) (fun t => t.pwr.refCoreBad = coreBad ∧ t.pwr.refWarpBad = warpBad ∧
       t.pwr.sysRstLow = false ∧ t.cfg.failMode = failMode ∧ t.cfg.boot = boot ∧ t.slv.computePower = true ∧
       (∀ r ∈ t.flt.rungs, r.boundFrom = s.now) ∧ (s.flt.dead = false → t.inFullReset = true))) ∧
     (s.tick.src = 2 → s.tick.enable = true → s.tick.tickInAt = none → s.tick.nextEdge ≤ s.now + 17000 → s.now ≤ s.tick.nextEdge + 17000 →
       exec .tickInEdge s = .next { s with tick := { s.tick with tickInAt := some s.now } }) ∧
     (s.tick.src = 2 → s.tick.enable = true → s.tick.tickInAt ≠ none ∨ s.now + 17000 < s.tick.nextEdge ∨ s.tick.nextEdge + 17000 < s.now →
       exec .tickInEdge s = .next { s with pwr := { s.pwr with tickOutside := satAdd 16 s.pwr.tickOutside 1 } }) ∧
     (s.tick.src = 2 → s.tick.enable = true → s.tick.tickInAt = none → s.tick.nextEdge + 17000 < s.now →
       exec .tickInMissed s = .next { s with tick := { s.tick with tickInAt := some s.tick.nextEdge }
                                             pwr := { s.pwr with tickMissed := satAdd 16 s.pwr.tickMissed 1 } }) ∧
     (Completes (exec .powerRemoval s) (fun t => t.flash = s.flash ∧ t.slv.computePower = false ∧ t.mem = [] ∧ t.dist.jobs = [] ∧
       t.sec.audit = s.sec.audit ∧ t.sec.rollback = s.sec.rollback ∧ t.cfg.primary = s.cfg.primary ∧
       (s.sec.vbat = true → t.sec.battKeys = s.sec.battKeys) ∧ (s.sec.vbat = false → ∀ n : Fin 2, t.sec.battKeys[n] = none)))) ∧
   (∀ (s : State) (tms tdi : Bool), Completes (exec (.tapClockEdge tms tdi) s) (fun t => t.pwr.tap = tapNext s.pwr.tap tms ∧
     t = { s with pwr := t.pwr, fresh := t.fresh } ∧
     (s.pwr.tap = .shIr → tms = false → t.pwr.irShift = s.pwr.irShift.drop 1 ++ [tdi] ∧ t.pwr.tdo = t.pwr.irShift.head?) ∧
     (s.pwr.tap = .shDr → tms = false → t.pwr.drShift = s.pwr.drShift.drop 1 ++ [tdi] ∧ t.pwr.tdo = t.pwr.drShift.head?) ∧
     (s.pwr.tap = .capDr → s.pwr.inst = .idcode → t.pwr.drShift = (List.range 32).map (fun j => (0x4B128C01#32).getLsbD j)) ∧
     (t.pwr.tap = .reset → t.pwr.inst = .idcode) ∧ (t.pwr.tap ≠ .shIr → t.pwr.tap ≠ .shDr → t.pwr.tdo = none))) ∧
   (∀ x : TapState, tapNext (tapNext (tapNext (tapNext (tapNext x true) true) true) true) true = .reset))

/-- A 32-bit write (R13, R15, R535 to R537): an unaligned or undefined address has no defined result and stops the model, as does a 1 in a reserved bit; a
block that does not answer and a unit in a running rung discard the write; anything else is the register's own effect. -/
def Obligations.RegisterWriteChecks : Prop :=
  ∀ (s : State) (off v : Word),
    (off.toNat % 4 ≠ 0 ∨ blockAt off.toNat = none → exec (.registerWrite .control off v) s = .fault .undefinedAddress) ∧
    (∀ (b : Block) (o : Nat), off.toNat % 4 = 0 → blockAt off.toNat = some (b, o) →
      (s.regNow b o = none → exec (.registerWrite .control off v) s = .fault .undefinedAddress) ∧
      (∀ r, s.regNow b o = some r → s.blockSilent b o = true ∨ s.unitInRung b = true → exec (.registerWrite .control off v) s = .next s) ∧
      (∀ r, s.regNow b o = some r → s.blockSilent b o = false → s.unitInRung b = false → v &&& ~~~r.named ≠ 0 →
        exec (.registerWrite .control off v) s = .refused .reservedBit) ∧
      (Writes s off.toNat v b o → exec (.registerWrite .control off v) s = .next (s.regWrite b o v))) ∧
    (Writes s off.toNat v .slv (off.toNat % 0x1000) → exec (.registerWrite .control off v) s = .next s) ∧
    (∀ alias_ : Word, alias_.toNat = 0x12000000 + off.toNat → off.toNat < 0x500000 → ∀ (b : Block) (o : Nat), Writes s off.toNat v b o →
      exec (.registerWrite .priv alias_ v) s = .next (s.aliasWrite b o v))

/-- What register writes do, field by field (R13, R14, R52 to R55, R90, R119, R190, R216, R232, R242, R243, R270, R294, R325, R353, R378, R489, R498,
R525): RW fields take the value, RWS fields keep it in their shadow, W1C bits clear where a 1 is written; each write names all that it changes. -/
def Obligations.RegisterEffects : Prop :=
  ∀ (s : State) (off v : Word),
    (Writes s off.toNat v .tck 0x008 →
      exec (.registerWrite .control off v) s = .next { s with tick := { s.tick with periodNext := bitsOf v 27 0 } }) ∧
    (Writes s off.toNat v .tck 0x028 → exec (.registerWrite .control off v) s = .next { s with tick := { s.tick with
        lost := s.tick.lost && !v.getLsbD 1, badPeriod := s.tick.badPeriod && !v.getLsbD 2, lateAbort := s.tick.lateAbort && !v.getLsbD 3 } }) ∧
    (Writes s off.toNat v .tck 0x040 → exec (.registerWrite .control off v) s = .next { s with tick := { s.tick with
        floorUj := { s.tick.floorUj with shadow := some v } } }) ∧
    (Writes s off.toNat v .tck 0x000 → v.getLsbD 9 = true → v.getLsbD 10 = false → s.tick.enable = false →
      Completes (exec (.registerWrite .control off v) s) (fun t => t.tick.enable = true ∧ t.tick.src = bitsOf v 1 0 ∧
        t.tick.nextEdge = s.now + 17 * s.tick.periodNs.toNat ∧ t.tick.count = s.tick.count ∧ t = { s with tick := t.tick })) ∧
    (∀ d : Die, Writes s off.toNat v (.wft d) 0x00C → Completes (exec (.registerWrite .control off v) s) (fun t =>
        (t.dies[d]).fenceLimit = bitsOf v 15 0 ∧ t = { s with dies := t.dies } ∧ ∀ e : Die, e ≠ d → t.dies[e] = s.dies[e])) ∧
    (∀ d : Die, Writes s off.toNat v (.wft d) 0x010 → Completes (exec (.registerWrite .control off v) s) (fun t =>
        (t.dies[d]).torn = ((s.dies[d]).torn && !v.getLsbD 2) ∧ (t.dies[d]).poison = ((s.dies[d]).poison && !v.getLsbD 3) ∧
        (t.dies[d]).fenceTimeout = ((s.dies[d]).fenceTimeout && !v.getLsbD 4) ∧ (bitsOf v 4 2 = 0 → (t.dies[d]).code = (s.dies[d]).code) ∧
        t = { s with dies := t.dies })) ∧
    (∀ d : Die, Writes s off.toNat v (.crl d) 0x000 → v.getLsbD 1 = false → Completes (exec (.registerWrite .control off v) s) (fun t =>
        (t.dies[d]).creelEn = v.getLsbD 0 ∧ (t.dies[d]).emptying = (s.dies[d]).emptying ∧ t = { s with dies := t.dies })) ∧
    (∀ c : Ctl, Writes s off.toNat v (.ctl c) 0x100 → Completes (exec (.registerWrite .control off v) s) (fun t =>
        t = s.modArbiter (.mem c) (fun x => { x with prio := vmod x.prio 0 (fun r => { r with shadow := some v }) }))) ∧
    (∀ c : Ctl, Writes s off.toNat v (.ctl c) 0x048 → Completes (exec (.registerWrite .control off v) s) (fun t =>
        t = s.modCtl c (fun x => { x with speedCap := bitsOf v 3 0 }) ∧ t.mem = s.mem)) ∧
    (∀ k : Skein, Writes s off.toNat v (.skn k) 0x04 → Completes (exec (.registerWrite .control off v) s) (fun t =>
        (t.skeins[k]).limit = (if v.toNat < 0x400 then 0x400 else v) ∧ OnlySkein k s t)) ∧
    (∀ k : Skein, Writes s off.toNat v (.dma k) 0x100 → Completes (exec (.registerWrite .control off v) s) (fun t =>
        (t.skeins[k]).retryDelay = bitsOf v 11 0 ∧ (t.skeins[k]).retryLimit = bitsOf v 22 16 ∧ OnlySkein k s t)) ∧
    (∀ l : Link, Writes s off.toNat v (.wrp l) 0x08 → Completes (exec (.registerWrite .control off v) s) (fun t =>
        (t.links[l]).peerRank = bitsOf v 15 0 ∧ (t.links[l]).peerLink = bitsOf v 22 16 ∧ (t.links[l]).peerCheck = v.getLsbD 23 ∧ OnlyLink l s t)) ∧
    (∀ l : Link, Writes s off.toNat v (.wrp l) 0x00 → v.getLsbD 0 = true → v.getLsbD 1 = false →
      Completes (exec (.registerWrite .control off v) s) (fun t => (t.links[l]).enable = true ∧ (t.links[l]).maxRate = bitsOf v 3 2 ∧
        (t.links[l]).autoRetrain = v.getLsbD 4 ∧ (t.links[l]).phase = (s.links[l]).phase ∧ OnlyLink l s t)) ∧
    (∀ d : Die, Writes s off.toNat v (.fab d) 0x014 → Completes (exec (.registerWrite .control off v) s) (fun t =>
        (t.fabric[d]).capEdge = v ∧ OnlyFabric d s t)) ∧
    (Writes s off.toNat v .cfg 0x018 → exec (.registerWrite .control off v) s = .next { s with cfg := { s.cfg with primary := bitsOf v 28 0 } }) ∧
    (Writes s off.toNat v .sec 0x028 → exec (.registerWrite .control off v) s = .next { s with sec := { s.sec with idleS := bitsOf v 15 0 } }) ∧
    (Writes s off.toNat v .pwr 0x040 → exec (.registerWrite .control off v) s = .next { s with pwr := { s.pwr with
        startC := (if (bitsOf v 7 0).toNat < 85 then 85 else if 100 < (bitsOf v 7 0).toNat then 100 else bitsOf v 7 0),
        fallMs := bitsOf v 15 8 } }) ∧
    (Writes s off.toNat v .dst 0x810 → exec (.registerWrite .control off v) s = .next { s with flt := { s.flt with
        windowTicks := bitsOf v 15 0, repeatLimit := bitsOf v 19 16 } }) ∧
    (Writes s off.toNat v .dst 0x890 → exec (.registerWrite .control off v) s = .next { s with flt := { s.flt with
        envSupply := s.flt.envSupply && !v.getLsbD 0, envTemp := s.flt.envTemp && !v.getLsbD 1, envCore := s.flt.envCore && !v.getLsbD 2,
        envWarp := s.flt.envWarp && !v.getLsbD 3 } }) ∧
    (∀ i : Spindle,
      (Writes s off.toNat v (.spn i) 0x08 → Completes (exec (.registerWrite .control off v) s) (fun t => OnlySpindle i s t ∧
        (t.spindles[i]).faultSeen = ((s.spindles[i]).faultSeen && !v.getLsbD 4) ∧
        (t.spindles[i]).cause = (if v.getLsbD 4 then 0 else (s.spindles[i]).cause) ∧
        (t.spindles[i]).restarted = ((s.spindles[i]).restarted && !v.getLsbD 5))) ∧
      (Writes s off.toNat v (.seq i) 0x00 → Completes (exec (.registerWrite .control off v) s) (fun t => OnlySeq i s t ∧
        (t.spindles[i]).seq.budgetFault = ((s.spindles[i]).seq.budgetFault && !v.getLsbD 2) ∧
        (t.spindles[i]).seq.seqFault = ((s.spindles[i]).seq.seqFault && !v.getLsbD 3) ∧ (t.spindles[i]).seq.pc = (s.spindles[i]).seq.pc)) ∧
      (Writes s off.toNat v (.num i) 0x04 → Completes (exec (.registerWrite .control off v) s) (fun t => OnlySpindle i s t ∧
        (t.spindles[i]).num.flags = (s.spindles[i]).num.flags &&& ~~~(bitsOf v 6 0) ∧ (t.spindles[i]).num.mask = (s.spindles[i]).num.mask)) ∧
      (Writes s off.toNat v (.vec i) 0x08 → Completes (exec (.registerWrite .control off v) s) (fun t => OnlySpindle i s t ∧
        (t.spindles[i]).vec.handler = bitsOf v 12 0)) ∧
      (Writes s off.toNat v (.vec i) 0x18 → Completes (exec (.registerWrite .control off v) s) (fun t => OnlySpindle i s t ∧
        (t.spindles[i]).vec.faultSeen = ((s.spindles[i]).vec.faultSeen && !v.getLsbD 4))))

/-- The private window (R34, R478, R536): a half word of a program bank changes in that bank alone, and a word of a skein's store in that store. Where the
write's effect is undefined, outside a restore on an active bank or while a step runs on a store, the word is free (log 140).
Host accesses of BAR0 (R388 to R392, R397): an access that does not reach the function changes nothing; one of a wrong width, alignment or place, or
at a reserved offset, sets bad_access and reads 0; a read in order returns what it names; a request buffer takes bytes while its mailbox is idle and
drops them, with the dropped bit, while it is not. -/
def Obligations.PrivateWindowAndHostAccesses : Prop :=
  (∀ (s : State) (i : Spindle) (w : Nat) (off v : Word) (bank1 hi : Bool), w < 8192 →
     off.toNat = 0x10000000 + i.val * 0x20000 + (if bank1 then 0x10000 else 0) + 8 * w + (if hi then 4 else 0) →
     (s.inFullReset = true → exec (.registerWrite .priv off v) s = .next s) ∧
     (∀ put : Word, put = (if s.dist.active.isSome && bank1 == (s.spindles[i]).seq.activeBank && !s.restoring then Config.freeWord s.fresh else v) →
       s.inFullReset = false →
       Completes (exec (.registerWrite .priv off v) s) (fun t => OnlySeq i { s with fresh := t.fresh } t ∧
         (s.dist.active.isSome = false ∨ (s.spindles[i]).seq.activeBank ≠ bank1 ∨ s.restoring = true → t.fresh = s.fresh) ∧
         (bank1 = true → (t.spindles[i]).seq.bank0 = (s.spindles[i]).seq.bank0 ∧ (Cells.wf 0 (s.spindles[i]).seq.bank1 = true →
           ∀ x, Cells.get 0 (t.spindles[i]).seq.bank1 x =
             (if x = w then halfWord (Cells.get 0 (s.spindles[i]).seq.bank1 w) hi put else Cells.get 0 (s.spindles[i]).seq.bank1 x))) ∧
         (bank1 = false → (t.spindles[i]).seq.bank1 = (s.spindles[i]).seq.bank1 ∧ (Cells.wf 0 (s.spindles[i]).seq.bank0 = true →
           ∀ x, Cells.get 0 (t.spindles[i]).seq.bank0 x =
             (if x = w then halfWord (Cells.get 0 (s.spindles[i]).seq.bank0 w) hi put else Cells.get 0 (s.spindles[i]).seq.bank0 x))))) ∧
     (∀ (k : Skein) (store put : Word), store.toNat = 0x11000000 + k.val * 0x100000 + 4 * w → s.inFullReset = false →
       put = (if s.stepRuns && !s.restoring then Config.freeWord s.fresh else v) →
       Completes (exec (.registerWrite .priv store v) s) (fun t => OnlySkein k { s with fresh := t.fresh } t ∧
         (s.stepRuns = false ∨ s.restoring = true → t.fresh = s.fresh) ∧
         (Cells.wf 0 (s.skeins[k]).window = true → ∀ x, Cells.get 0 (t.skeins[k]).window x =
           (if x = 4 * w then put else Cells.get 0 (s.skeins[k]).window x)))) ∧
     (∀ out : Word, 0x12500000 ≤ out.toNat → exec (.registerWrite .priv out v) s = .fault .undefinedAddress)) ∧
  (∀ (s : State) (off n : Nat) (bs : List Byte), bs.length = n →
     (s.hostReaches = false → exec (.bar0Access off n none) s = .next s ∧ exec (.bar0Access off n (some bs)) s = .next s) ∧
     (s.hostReaches = true →
       (barPlace off n = .bad → exec (.bar0Access off n none) s =
           .next { s with slv := { s.slv with hostRead := List.replicate n 0, badAccess := true } } ∧
         exec (.bar0Access off n (some bs)) s = .next { s with slv := { s.slv with badAccess := true } }) ∧
       (off % 4 ≠ 0 ∨ n < 4 → barPlace off n = .bad) ∧ (off < 0x1000 → n ≠ 4 → barPlace off n = .bad) ∧
       (off < 0x1000 → off % 4 = 0 → n = 4 →
         (s.slv.reg off = none → exec (.bar0Access off n none) s =
           .next { s with slv := { s.slv with hostRead := List.replicate n 0, badAccess := true } } ∧
           exec (.bar0Access off n (some bs)) s = .next { s with slv := { s.slv with badAccess := true } }) ∧
         (∀ r, s.slv.reg off = some r →
           exec (.bar0Access off n none) s = .next { s with slv := { s.slv with hostRead := leBytes 4 r.value.toNat } } ∧
           (BitVec.ofNat 32 (leNat bs) &&& ~~~r.named ≠ 0 → exec (.bar0Access off n (some bs)) s = .refused .reservedBit) ∧
           (BitVec.ofNat 32 (leNat bs) &&& ~~~r.named = 0 → off = 0x010 → exec (.bar0Access off n (some bs)) s =
             .next { s with slv := { s.slv with errLimit := BitVec.ofNat 8 (leNat bs) } }) ∧
           (BitVec.ofNat 32 (leNat bs) &&& ~~~r.named = 0 → off = 0x03C → exec (.bar0Access off n (some bs)) s =
             .next { s with slv := { s.slv with badAccess := s.slv.badAccess && !(leNat bs).testBit 0 } }) ∧
           (BitVec.ofNat 32 (leNat bs) &&& ~~~r.named = 0 → off = 0x028 → exec (.registerWrite .bar0 (BitVec.ofNat 32 off) (BitVec.ofNat 32 (leNat bs))) s =
             .next { s with slv := { s.slv with timeoutMs := BitVec.ofNat 16 (leNat bs) } }))) ∧
       (0x1000 ≤ off → off % 4 = 0 → 4 ≤ n → off + n ≤ 0x2000 →
         exec (.bar0Access off n none) s = .next { s with slv := { s.slv with hostRead := sliceBytes s.mirrorPage (off - 0x1000) n } } ∧
         exec (.bar0Access off n (some bs)) s = .next s) ∧
       (0x2000 ≤ off → off % 4 = 0 → 4 ≤ n → off + n ≤ 0x2400 →
         exec (.bar0Access off n none) s = .next { s with slv := { s.slv with hostRead := sliceBytes s.slv.tableBytes (off - 0x2000) n } } ∧
         Completes (exec (.bar0Access off n (some bs)) s) (fun t => t.slv.msix = (s.slv.writeTable (off - 0x2000) bs).msix ∧
           t = { s with slv := t.slv })) ∧
       (∀ (m : Fin 8) (o : Nat), off = 0x11000 + 0x2000 * m.val + o → o % 4 = 0 → 4 ≤ n → o + n ≤ 0x1000 →
         exec (.bar0Access off n none) s = .next { s with slv := { s.slv with hostRead := Cells.read 0 (s.slv.mb[m]).resp o n } } ∧
         exec (.bar0Access off n (some bs)) s = .next s) ∧
       (∀ (m : Fin 8) (o : Nat), off = 0x10000 + 0x2000 * m.val + o → o % 4 = 0 → 4 ≤ n → o + n ≤ 0x1000 →
         exec (.bar0Access off n none) s = .next { s with slv := { s.slv with hostRead := Cells.read 0 (s.slv.mb[m]).req o n } } ∧
         Completes (exec (.bar0Access off n (some bs)) s) (fun t => t = { s with slv := { s.slv with mb := t.slv.mb } } ∧
           (∀ j : Fin 8, j ≠ m → t.slv.mb[j] = s.slv.mb[j]) ∧
           ((s.slv.mb[m]).state = .idle → t.slv.mb[m] = { s.slv.mb[m] with req := Cells.write 0 (s.slv.mb[m]).req o bs }) ∧
           ((s.slv.mb[m]).state ≠ .idle → t.slv.mb[m] = { s.slv.mb[m] with dropped := true })))))

/-- The registers whose reset values the maps give other than 0 (R52 to R57, R90, R216, R232, R242, R243, R270, R271, R294, R325, R356, R357, R378, R410,
R467, R498, R525), with one register of each block besides.
The stores of the machine right after reset are canonical and empty, nothing waits and no step runs. -/
def Obligations.MachineAtReset : Prop :=
  (ResetsTo .tck 0x000 0 ∧ ResetsTo .tck 0x004 0x989680 ∧ ResetsTo .tck 0x008 0x989680 ∧ ResetsTo .tck 0x014 0 ∧ ResetsTo .tck 0x020 0xFA0 ∧
   ResetsTo .tck 0x024 4 ∧ ResetsTo .tck 0x028 0 ∧
   (∀ i : Spindle, ResetsTo (.spn i) 0x00 8 ∧ ResetsTo (.spn i) 0x04 0 ∧ ResetsTo (.seq i) 0x00 2 ∧ ResetsTo (.seq i) 0x08 0xFFFF ∧
     ResetsTo (.seq i) 0x0C 0 ∧ ResetsTo (.num i) 0x00 0 ∧ ResetsTo (.num i) 0x04 0 ∧ ResetsTo (.vec i) 0x00 0 ∧ ResetsTo (.vec i) 0x04 0) ∧
   (∀ k : Skein, ResetsTo (.skn k) 0x00 1 ∧ ResetsTo (.skn k) 0x04 0x4000 ∧ ResetsTo (.skn k) 0x08 8 ∧ ResetsTo (.skn k) 0x0C 0 ∧
     ResetsTo (.dma k) 0x00 0 ∧ ResetsTo (.dma k) 0x04 0 ∧ ResetsTo (.dma k) 0x100 0x400100) ∧
   (∀ d : Die, ResetsTo (.wft d) 0x000 0 ∧ ResetsTo (.wft d) 0x00C 0x800 ∧ ResetsTo (.wft d) 0x110 0x108 ∧ ResetsTo (.crl d) 0x000 1 ∧
     ResetsTo (.crl d) 0x110 0x108 ∧ ResetsTo (.fab d) 0x000 0x6408 ∧ ResetsTo (.fab d) 0x004 0 ∧ ResetsTo (.fab d) 0x014 1 ∧
     ResetsTo (.fab d) 0x030 1 ∧ ResetsTo (.fab d) 0x040 0x100 ∧ ResetsTo (.fab d) 0x228 0) ∧
   (∀ c : Ctl, ResetsTo (.ctl c) 0x000 0 ∧ ResetsTo (.ctl c) 0x004 0x6666 ∧ ResetsTo (.ctl c) 0x008 0 ∧ ResetsTo (.ctl c) 0x00C 0x12000 ∧
     ResetsTo (.ctl c) 0x110 0x108) ∧
   (∀ n : Fin 12, ResetsTo (.ctl ⟨.ddr, n⟩) 0x048 3) ∧
   (∀ l : Link, ResetsTo (.wrp l) 0x00 0x1C ∧ ResetsTo (.wrp l) 0x04 0 ∧ ResetsTo (.wrp l) 0x08 0 ∧ ResetsTo (.wrp l) 0x0C 0) ∧
   ResetsTo .cfg 0x000 0x3E8 ∧ ResetsTo .cfg 0x004 0x80 ∧ ResetsTo .sec 0x028 0x258 ∧ ResetsTo .dst 0x800 0x1000000 ∧ ResetsTo .dst 0x810 0x30400 ∧
   (∀ n : Fin 16, ResetsTo .dst (0x840 + 4 * n.val) (BitVec.ofNat 32 (n.val * 0x60000))) ∧
   ResetsTo .pwr 0x008 0xB54 ∧ ResetsTo .pwr 0x030 0x2EE ∧ ResetsTo .pwr 0x040 0x160 ∧
   ResetsTo .slv 0x000 0x014128 ∧ ResetsTo .slv 0x004 0 ∧ ResetsTo .slv 0x010 0x10 ∧ ResetsTo .slv 0x028 0x7D0 ∧ ResetsTo .slv 0x02C 0x32 ∧
   ResetsTo .slv 0x104 0) ∧
  (Canonical State.reset ∧ State.reset.mem = [] ∧ State.reset.poison = [] ∧ State.reset.flash = [] ∧ State.reset.pending = [] ∧
   State.reset.step.phase = .idle ∧ State.reset.flight = [] ∧ State.reset.dist.jobs = [] ∧ State.reset.dist.active = none ∧ Clocked State.reset)

/-- Every step keeps device memory, the poisoned lines and flash in their canonical form. -/
def Obligations.StepKeepsCanonical : Prop :=
  ∀ s t : State, Canonical s → step s = .next t → Canonical t

/-- No command changes the queue, the clock or the facts of the system around the device, and the next free value never goes back. -/
def Obligations.CommandsKeepQueueAndClock : Prop :=
  ∀ (c : Instr) (s t : State), exec c s = .next t →
    t.pending = s.pending ∧ t.now = s.now ∧ t.rank = s.rank ∧ t.devices = s.devices ∧ t.dTick = s.dTick ∧ t.lHop = s.lHop ∧ s.fresh ≤ t.fresh

/-- Frame of the stores: a command outside the storing ones leaves every byte of device memory, every line's poison and every byte of flash as it was; the
commit of a step changes no byte outside the step's statistics records. -/
def Obligations.StoringCommands : Prop :=
  ∀ (c : Instr) (s t : State), exec c s = .next t →
    (¬ Stores c → ∀ a, SameByte s t a) ∧ (¬ Poisons c → t.poison = s.poison) ∧ (¬ StoresFlash c → t.flash = s.flash) ∧
    (c = .commit → Canonical s →
      ∀ a, (∀ r ∈ s.stats, ∀ n : Nat, a < r.addr.toNat ∨ r.addr.toNat + (r.bytes n).length ≤ a) → SameByte s t a)

/-- R14 for every block that has RWS fields, the arbiters and the pacer: of two writes before the commit the last alone counts; a write leaves what the
fields read; the commit write puts every shadow of the block into effect in one command, the fair-grant period held to 2 to 64; and with no shadow
written it changes nothing. -/
def Obligations.ShadowedFields : Prop :=
  (∀ (s : State) (a : ArbId) (o : Nat) (off v w : Word), o ∈ arbShadowed →
    (Writes s off.toNat v (arbBlock a) o → Completes (exec (.registerWrite .control off v) s) (fun t =>
      (∀ q ∈ arbShadowed, t.regNow (arbBlock a) q = s.regNow (arbBlock a) q) ∧
      (Writes s off.toNat w (arbBlock a) o →
        exec (.registerWrite .control off w) t = exec (.registerWrite .control off w) s))) ∧
    (Writes s off.toNat 1 (arbBlock a) 0x114 → exec (.registerWrite .control off 1) s = exec (.arbCommit a) s) ∧
    Completes (exec (.arbCommit a) s) (fun t =>
      (∀ n : Fin 4, ((t.arbiter a).prio[n]).eff = ((s.arbiter a).prio[n]).shadow.getD ((s.arbiter a).prio[n]).eff) ∧
      (t.arbiter a).backoffEn.eff = (s.arbiter a).backoffEn.shadow.getD (s.arbiter a).backoffEn.eff ∧
      (∀ x, (s.arbiter a).fairN.shadow = some x → (t.arbiter a).fairN.eff = (if x.toNat < 2 then 2 else if 64 < x.toNat then 64 else x)) ∧
      ((∀ n : Fin 4, ((s.arbiter a).prio[n]).shadow = none) → (s.arbiter a).fairN.shadow = none → (s.arbiter a).backoffEn.shadow = none → t = s))) ∧
  (∀ (s : State) (o : Nat) (off v w : Word), o ∈ paceShadowed →
    (Writes s off.toNat v .tck o → Completes (exec (.registerWrite .control off v) s) (fun t =>
      (∀ q ∈ paceShadowed, t.regNow .tck q = s.regNow .tck q) ∧
      (Writes s off.toNat w .tck o → exec (.registerWrite .control off w) t = exec (.registerWrite .control off w) s))) ∧
    (Writes s off.toNat 1 .tck 0x0A0 → exec (.registerWrite .control off 1) s = exec .paceCommit s) ∧
    Completes (exec .paceCommit s) (fun t => t = { s with tick := t.tick } ∧
      t.tick.floorUj.eff = s.tick.floorUj.shadow.getD s.tick.floorUj.eff ∧
      (∀ n : Fin 16, (t.tick.coef[n]).eff = (s.tick.coef[n]).shadow.getD (s.tick.coef[n]).eff) ∧
      (s.tick.floorUj.shadow = none → (∀ n : Fin 16, (s.tick.coef[n]).shadow = none) → t = s)))

/-- R195: at a step start every board takes its lists from the pattern's section, its returned queue is empty, its phase is 0, every ring holds its
preload and nothing more, and no mark or count of the step before is left. -/
def Obligations.BoardsReload : Prop :=
  ∀ (s : State) (im : Image) (k : Skein), Clocked s → s.step.phase = .idle → s.step.closed = true → s.tick.enable = true →
    s.tick.stopped = false → s.endCancelled.jobDue.isSome = true → s.endCancelled.dist.active = some im →
    Completes (exec .stepStart s) (fun t =>
      (t.skeins[k]).phases = ((im.find 2 k.val).map (fun b => (boardPhases b).map (fun p =>
        ({ window := p.1, lists := Vector.ofFn (fun l => p.2.filter (fun x => x.owner == l)) } : BoardPhase)))).getD [] ∧
      (t.skeins[k]).boardActive = (im.find 2 k.val).isSome ∧ (t.skeins[k]).returned = [] ∧ (t.skeins[k]).phase = 0 ∧
      (t.skeins[k]).inProgress = [] ∧ (t.skeins[k]).faultedOnce = [] ∧ (t.skeins[k]).slow = 0 ∧
      ((t.skeins[k]).done = true ↔ (im.find 2 k.val).isSome = true ∧ (t.skeins[k]).phases.length < 2 ∧ ∀ l : Fin 8, (t.skeins[k]).list l = []) ∧
      ((t.skeins[k]).completeAt = some s.now ↔
        (im.find 2 k.val).isSome = true ∧ 1 < (t.skeins[k]).phases.length ∧ ∀ l : Fin 8, (t.skeins[k]).list l = []) ∧
      (t.skeins[k]).latePhases = 0 ∧ (t.skeins[k]).takes = 0 ∧ (t.skeins[k]).steals = 0 ∧ (t.skeins[k]).sends = 0 ∧
      (t.skeins[k]).returnedCount = 0 ∧
      (t.skeins[k]).stallFault = false ∧ (t.skeins[k]).overrun = false ∧ (t.skeins[k]).budgetRepeat = false ∧
      (t.skeins[k]).stallLanes = 0 ∧ (t.skeins[k]).stallRings = 0 ∧
      ∀ r : Fin 32,
        ((t.skeins[k]).rings[r]).wiring = ((im.wiring k).find? (fun w => w.1 == r.val)).map (·.2) ∧
        ((t.skeins[k]).rings[r]).filled = ((((im.wiring k).find? (fun w => w.1 == r.val)).map (fun w =>
          (List.range w.2.preload).map (fun j => (j, BitVec.ofNat 32 (j + 2 ^ 12 * w.2.preloadUnits))))).getD []) ∧
        ((t.skeins[k]).rings[r]).held = [] ∧ ((t.skeins[k]).rings[r]).done = [] ∧ ((t.skeins[k]).rings[r]).nextTake = 0)

/-- R488: an ABORT in sequence for a tick whose step is committed is recorded as 0x0809 and sets late_abort. -/
def Obligations.LateAbort : Prop :=
  ∀ (s u : State) (l : Link) (f : Flit) (j : Job), s.hears l f 5 = true → s.receiveSeq l f = some u → s.step.phase = .idle →
    BitVec.ofNat 48 (field f.payload 0 6) ≠ s.tick.count → j ∈ s.dist.jobs →
    j.commit.committedTick.toNat = field f.payload 0 6 → j.commit.committedStep ≠ 0 →
    Completes (exec (.abortFlit l f) s) (fun t => t.tick.lateAbort = true ∧ t.flt.lastFault = 0x0809 ∧
      t.step = s.step ∧ t.dist = s.dist ∧ t.mem = s.mem ∧ t.tick = { s.tick with lateAbort := true })

/-- R533: every block of a die but the four of a spindle takes a page of 4 KiB, and the pages of the spindles hold SPN_, SEQ_, NUM_ and VEC_ at 256-byte
slots, with the rest reserved. -/
def Obligations.BlockPages : Prop :=
  (∀ (i : Spindle) (x : Nat), x < 0x1000 →
    blockAt (0x100000 * (1 + i.val / 32) + 0x80000 + (i.val % 32) * 0x1000 + x) =
      (if x < 0x100 then some (.spn i, x) else if x < 0x200 then some (.seq i, x - 0x100) else if x < 0x300 then some (.num i, x - 0x200)
       else if x < 0x400 then some (.vec i, x - 0x300) else none)) ∧
  (∀ (o p off off' : Nat) (b : Block), blockAt o = some (b, off) → blockAt p = some (b, off') → o / 0x1000 = p / 0x1000) ∧
  (∀ (o x off : Nat) (b : Block), blockAt o = some (b, off) → (∀ i : Spindle, b ≠ .spn i ∧ b ≠ .seq i ∧ b ≠ .num i ∧ b ≠ .vec i) →
    x < 0x1000 → blockAt (o / 0x1000 * 0x1000 + x) = some (b, x))
end

