-- ==== Sys2Proof/Laws/Memory.lean ====
section
/-!
SUPPORT. Sparse stores: a read after a write gives what was written, a write leaves every other place alone, and every write keeps the
canonical form, on which device memory, flash and the poisoned lines rest.
-/
namespace Sys2Proof.Machine
open Sys2Proof Sys2Proof.Safety

/-- A canonical store's bound may be lowered. -/
theorem Cells.wfFrom_mono {α : Type} [DecidableEq α] {d : α} {lo hi : Nat} {c : Cells α} (h : Cells.wfFrom d hi c = true) (le : lo ≤ hi) :
    Cells.wfFrom d lo c = true := by
  cases c with
  | nil => rfl
  | cons e r =>
    simp only [Cells.wfFrom, Bool.and_eq_true, decide_eq_true_eq] at h ⊢
    exact ⟨⟨by omega, h.1.2⟩, h.2⟩

/-- An address below a canonical store's bound reads the default. -/
theorem Cells.get_below {α : Type} [DecidableEq α] {d : α} {c : Cells α} : ∀ {lo a : Nat}, Cells.wfFrom d lo c = true → a < lo →
    Cells.get d c a = d := by
  induction c with
  | nil => intros; rfl
  | cons e r ih =>
    obtain ⟨k, v⟩ := e
    intro lo a h lt
    simp only [Cells.wfFrom, Bool.and_eq_true, decide_eq_true_eq] at h
    rw [Cells.get, if_neg (by omega)]
    exact ih h.2 (by omega)

/-- A write at one address keeps the canonical form. -/
theorem Cells.wfFrom_put {α : Type} [DecidableEq α] {d x : α} {c : Cells α} : ∀ {lo a : Nat}, Cells.wfFrom d lo c = true → lo ≤ a →
    Cells.wfFrom d lo (Cells.put d c a x) = true := by
  induction c with
  | nil =>
    intro lo a _ le
    unfold Cells.put
    split <;> simp_all [Cells.wfFrom]
  | cons e r ih =>
    obtain ⟨k, v⟩ := e
    intro lo a h le
    have h' := h
    simp only [Cells.wfFrom, Bool.and_eq_true, decide_eq_true_eq] at h
    unfold Cells.put
    split
    · split
      · exact h'
      · simp only [Cells.wfFrom, Bool.and_eq_true, decide_eq_true_eq]; simp_all <;> omega
    · split
      · split
        · exact Cells.wfFrom_mono h.2 (by omega)
        · rename_i e _; subst e; simp only [Cells.wfFrom, Bool.and_eq_true, decide_eq_true_eq]; simp_all
      · simp only [Cells.wfFrom, Bool.and_eq_true, decide_eq_true_eq]
        exact ⟨h.1, ih h.2 (by omega)⟩

/-- A read after a write at one address: the written value there, and what stood elsewhere. -/
theorem Cells.get_put {α : Type} [DecidableEq α] {d x : α} {c : Cells α} : ∀ {lo a : Nat} (b : Nat), Cells.wfFrom d lo c = true →
    Cells.get d (Cells.put d c a x) b = if b = a then x else Cells.get d c b := by
  induction c with
  | nil =>
    intro lo a b _
    unfold Cells.put
    by_cases hx : x = d
    · simp [hx, Cells.get]
    · by_cases hb : b = a
      · simp [hx, hb, Cells.get]
      · simp [hx, hb, Ne.symm hb, Cells.get]
  | cons e r ih =>
    obtain ⟨k, v⟩ := e
    intro lo a b h
    have hr := (by simpa only [Cells.wfFrom, Bool.and_eq_true] using h : _ ∧ Cells.wfFrom d (k + 1) r = true).2
    have below : ∀ u, u < k + 1 → Cells.get d r u = d := fun u lt => Cells.get_below hr lt
    unfold Cells.put
    by_cases h1 : a < k
    · have hk : k ≠ a := by omega
      by_cases hb : b = a
      · subst hb
        by_cases hx : x = d
        · simp [h1, hx, Cells.get, hk, below b (by omega)]
        · simp [h1, hx, Cells.get]
      · by_cases hx : x = d
        · simp [h1, hx, hb]
        · simp [h1, hx, hb, Ne.symm hb, Cells.get]
    · by_cases h2 : a = k
      · subst h2
        by_cases hb : b = a
        · subst hb
          by_cases hx : x = d
          · simp [hx, below b (by omega)]
          · simp [hx, Cells.get]
        · by_cases hx : x = d
          · simp [hx, hb, Ne.symm hb, Cells.get]
          · simp [hx, hb, Ne.symm hb, Cells.get]
      · by_cases hb : b = a
        · subst hb
          simp [h1, h2, Ne.symm h2, Cells.get, ih b hr]
        · simp [h1, h2, hb, Cells.get, ih b hr]

/-- A write of a list keeps the canonical form. -/
theorem Cells.wf_write {α : Type} [DecidableEq α] {d : α} : ∀ (xs : List α) {c : Cells α} {a : Nat}, Cells.wf d c = true →
    Cells.wf d (Cells.write d c a xs) = true
  | [], _, _, h => h
  | _ :: xs, _, _, h => Cells.wf_write xs (Cells.wfFrom_put h (Nat.zero_le _))

/-- A read after a write of a list: inside the list its entry, outside what stood. -/
theorem Cells.get_write {α : Type} [DecidableEq α] {d : α} (b : Nat) : ∀ (xs : List α) {c : Cells α} {a : Nat}, Cells.wf d c = true →
    Cells.get d (Cells.write d c a xs) b = if a ≤ b ∧ b < a + xs.length then xs.getD (b - a) d else Cells.get d c b
  | [], c, a, _ => by simp [Cells.write] <;> omega
  | x :: xs, c, a, h => by
    rw [Cells.write, Cells.get_write b xs (Cells.wfFrom_put h (Nat.zero_le _)), Cells.get_put b h]
    by_cases h1 : b = a
    · subst h1; rw [if_neg (by omega)]; simp
    · by_cases h2 : a + 1 ≤ b ∧ b < a + 1 + xs.length
      · have : b - a = b - (a + 1) + 1 := by omega
        rw [if_pos h2, if_pos (by simp only [List.length_cons]; omega), this, List.getD_cons_succ]
      · rw [if_neg h2, if_neg h1, if_neg (by simp only [List.length_cons]; omega)]

/-- What was written reads back. -/
theorem Cells.read_write {α : Type} [DecidableEq α] {d : α} (xs : List α) {c : Cells α} (a : Nat) (h : Cells.wf d c = true) :
    Cells.read d (Cells.write d c a xs) a xs.length = xs := by
  apply List.ext_getElem
  · simp [Cells.read]
  · intro i h1 h2
    simp only [Cells.read, List.getElem_map, List.getElem_range, Cells.get_write _ _ h]
    rw [if_pos (by omega)]
    simp [Nat.add_sub_cancel_left, List.getD_eq_getElem?_getD, h2]

/-- Bytes placed in empty memory read back. -/
theorem memRead_placed (s : State) (bs : List Byte) (a : Nat) :
    ({ s with mem := Cells.write 0 [] a bs } : State).memRead a bs.length = bs :=
  Cells.read_write bs a rfl

@[simp] theorem State.memWrite_poison (s : State) (a : Nat) (bs : List Byte) : (s.memWrite a bs).poison = s.poison := rfl
@[simp] theorem State.memWrite_flash (s : State) (a : Nat) (bs : List Byte) : (s.memWrite a bs).flash = s.flash := rfl
@[simp] theorem State.memWrite_mem (s : State) (a : Nat) (bs : List Byte) : (s.memWrite a bs).mem = Cells.write memDefault s.mem a bs := rfl

/-- A byte of memory outside a write stands. -/
theorem State.memWrite_same (s : State) (a b : Nat) (bs : List Byte) (h : Memory.wf s.mem = true) (out : b < a ∨ a + bs.length ≤ b) :
    SameByte s (s.memWrite a bs) b := by
  show Cells.get memDefault (Cells.write memDefault s.mem a bs) b = _
  rw [Cells.get_write b bs h, if_neg (by omega)]

/-- A head below a rising list keeps it rising. -/
theorem rising_cons {a : Nat} {l : List Nat} : rising (a :: l) = true ↔ (∀ b ∈ l.head?, a < b) ∧ rising l = true := by
  cases l <;> simp [rising]

/-- The head of a list after a line is inserted. -/
theorem head_poisonLine (x : Nat) (l : List Nat) {b : Nat} (h : b ∈ (poisonLine x l).head?) : b = x ∨ b ∈ l.head? := by
  cases l with
  | nil => simp_all [poisonLine]
  | cons a r =>
    unfold poisonLine at h
    split at h
    · simp_all
    · split at h <;> simp_all

/-- Inserting a line keeps the poisoned lines rising. -/
theorem rising_poisonLine (x : Nat) : ∀ (l : List Nat), rising l = true → rising (poisonLine x l) = true
  | [], _ => rfl
  | a :: r, h => by
    have h' := rising_cons.mp h
    unfold poisonLine
    split
    · exact rising_cons.mpr ⟨by simp_all, h⟩
    · split
      · exact h
      · refine rising_cons.mpr ⟨?_, rising_poisonLine x r h'.2⟩
        intro b hb
        rcases head_poisonLine x r hb with rfl | hr
        · omega
        · exact h'.1 b hr

/-- Every element of a rising list lies above its head. -/
theorem rising_lt {a : Nat} : ∀ {l : List Nat}, rising (a :: l) = true → ∀ b ∈ l, a < b
  | [], _, b, hb => by cases hb
  | c :: r, h, b, hb => by
    have h' := rising_cons.mp h
    have hc := h'.1 c rfl
    rcases List.mem_cons.mp hb with rfl | hr
    · exact hc
    · exact Nat.lt_trans hc (rising_lt h'.2 b hr)

/-- Dropping lines keeps the poisoned lines rising. -/
theorem rising_filter (p : Nat → Bool) : ∀ (l : List Nat), rising l = true → rising (l.filter p) = true
  | [], _ => rfl
  | a :: r, h => by
    have h' := rising_cons.mp h
    rw [List.filter_cons]
    split
    · refine rising_cons.mpr ⟨?_, rising_filter p r h'.2⟩
      intro b hb
      exact rising_lt h b (List.mem_filter.mp (List.mem_of_mem_head? hb)).1
    · exact rising_filter p r h'.2

/-- Inserting many lines keeps the poisoned lines rising. -/
theorem rising_poisonLines (ls : List Nat) : ∀ (l : List Nat), rising l = true → rising (ls.foldl (fun p x => poisonLine x p) l) = true := by
  induction ls with
  | nil => exact fun _ h => h
  | cons x xs ih => exact fun l h => ih _ (rising_poisonLine x l h)

/-- A write of bytes keeps the canonical form of the stores. -/
theorem State.memWrite_canonical (s : State) (a : Nat) (bs : List Byte) (h : Canonical s) : Canonical (s.memWrite a bs) :=
  ⟨Cells.wf_write bs h.1, h.2⟩

/-- A write with its poison keeps the canonical form of the stores. -/
theorem State.performWrite_canonical (s : State) (a : Nat) (bs : List Byte) (p : Bool) (h : Canonical s) :
    Canonical (s.performWrite a bs p).1 := by
  refine ⟨Cells.wf_write bs h.1, ?_, h.2.2⟩
  show rising (if p = true then _ else _) = true
  split
  · exact rising_poisonLines _ _ h.2.1
  · exact rising_filter _ _ h.2.1

/-- Everything that a performed write does: the bytes at its range, every other byte as it was. -/
theorem State.performWrite_get (s : State) (a b : Nat) (bs : List Byte) (p : Bool) (h : Memory.wf s.mem = true) :
    Cells.get memDefault (s.performWrite a bs p).1.mem b =
      if a ≤ b ∧ b < a + bs.length then bs.getD (b - a) 0 else Cells.get memDefault s.mem b :=
  Cells.get_write b bs h

/-- A write of flash keeps the canonical form of the stores. -/
theorem flash_write_canonical (s : State) (a : Nat) (bs : List Byte) (h : Canonical s) :
    Canonical { s with flash := Cells.write 0xFF s.flash a bs } :=
  ⟨h.1, h.2.1, Cells.wf_write bs h.2.2⟩

/-- The stores at reset are canonical. -/
theorem reset_canonical : Canonical State.reset := by decide

end Sys2Proof.Machine
end

