-- ==== Sys2Proof/Laws/State.lean ====
section
/-!
SUPPORT. Fields of State through choices and folds, and through the named updates.
-/
namespace Sys2Proof.Machine
open Sys2Proof

/-- A fold of steps that each keep a value keeps it. -/
theorem foldl_keep {α β : Type} (p : State → β) (f : State → α → State) (h : ∀ s x, p (f s x) = p s) (l : List α) (s : State) :
    p (l.foldl f s) = p s := by
  induction l generalizing s with
  | nil => rfl
  | cons x xs ih => rw [List.foldl_cons, ih, h]

/-- A fold over pairs whose steps each keep a value of the state keeps it. -/
theorem foldl_keep_fst {α β γ : Type} (p : State → β) (f : State × γ → α → State × γ) (h : ∀ a x, p (f a x).1 = p a.1)
    (l : List α) (a : State × γ) : p (l.foldl f a).1 = p a.1 := by
  induction l generalizing a with
  | nil => rfl
  | cons x xs ih => rw [List.foldl_cons, ih, h]

@[simp] theorem State.ite_pending (c : Prop) [Decidable c] (a b : State) : (if c then a else b).pending = if c then a.pending else b.pending := by
  split <;> rfl
@[simp] theorem State.foldl_pending {α : Type} (f : State → α → State) (h : ∀ s x, (f s x).pending = s.pending) (l : List α) (s : State) :
    (l.foldl f s).pending = s.pending := foldl_keep (·.pending) f h l s
@[simp] theorem State.ite_now (c : Prop) [Decidable c] (a b : State) : (if c then a else b).now = if c then a.now else b.now := by
  split <;> rfl
@[simp] theorem State.foldl_now {α : Type} (f : State → α → State) (h : ∀ s x, (f s x).now = s.now) (l : List α) (s : State) :
    (l.foldl f s).now = s.now := foldl_keep (·.now) f h l s
@[simp] theorem State.ite_fresh (c : Prop) [Decidable c] (a b : State) : (if c then a else b).fresh = if c then a.fresh else b.fresh := by
  split <;> rfl
@[simp] theorem State.foldl_fresh {α : Type} (f : State → α → State) (h : ∀ s x, (f s x).fresh = s.fresh) (l : List α) (s : State) :
    (l.foldl f s).fresh = s.fresh := foldl_keep (·.fresh) f h l s
@[simp] theorem State.ite_rank (c : Prop) [Decidable c] (a b : State) : (if c then a else b).rank = if c then a.rank else b.rank := by
  split <;> rfl
@[simp] theorem State.foldl_rank {α : Type} (f : State → α → State) (h : ∀ s x, (f s x).rank = s.rank) (l : List α) (s : State) :
    (l.foldl f s).rank = s.rank := foldl_keep (·.rank) f h l s
@[simp] theorem State.ite_devices (c : Prop) [Decidable c] (a b : State) : (if c then a else b).devices = if c then a.devices else b.devices := by
  split <;> rfl
@[simp] theorem State.foldl_devices {α : Type} (f : State → α → State) (h : ∀ s x, (f s x).devices = s.devices) (l : List α) (s : State) :
    (l.foldl f s).devices = s.devices := foldl_keep (·.devices) f h l s
@[simp] theorem State.ite_dTick (c : Prop) [Decidable c] (a b : State) : (if c then a else b).dTick = if c then a.dTick else b.dTick := by
  split <;> rfl
@[simp] theorem State.foldl_dTick {α : Type} (f : State → α → State) (h : ∀ s x, (f s x).dTick = s.dTick) (l : List α) (s : State) :
    (l.foldl f s).dTick = s.dTick := foldl_keep (·.dTick) f h l s
@[simp] theorem State.ite_lHop (c : Prop) [Decidable c] (a b : State) : (if c then a else b).lHop = if c then a.lHop else b.lHop := by
  split <;> rfl
@[simp] theorem State.foldl_lHop {α : Type} (f : State → α → State) (h : ∀ s x, (f s x).lHop = s.lHop) (l : List α) (s : State) :
    (l.foldl f s).lHop = s.lHop := foldl_keep (·.lHop) f h l s
@[simp] theorem State.ite_tick (c : Prop) [Decidable c] (a b : State) : (if c then a else b).tick = if c then a.tick else b.tick := by
  split <;> rfl
@[simp] theorem State.foldl_tick {α : Type} (f : State → α → State) (h : ∀ s x, (f s x).tick = s.tick) (l : List α) (s : State) :
    (l.foldl f s).tick = s.tick := foldl_keep (·.tick) f h l s
@[simp] theorem State.ite_step (c : Prop) [Decidable c] (a b : State) : (if c then a else b).step = if c then a.step else b.step := by
  split <;> rfl
@[simp] theorem State.foldl_step {α : Type} (f : State → α → State) (h : ∀ s x, (f s x).step = s.step) (l : List α) (s : State) :
    (l.foldl f s).step = s.step := foldl_keep (·.step) f h l s
@[simp] theorem State.ite_dist (c : Prop) [Decidable c] (a b : State) : (if c then a else b).dist = if c then a.dist else b.dist := by
  split <;> rfl
@[simp] theorem State.foldl_dist {α : Type} (f : State → α → State) (h : ∀ s x, (f s x).dist = s.dist) (l : List α) (s : State) :
    (l.foldl f s).dist = s.dist := foldl_keep (·.dist) f h l s
@[simp] theorem State.ite_spindles (c : Prop) [Decidable c] (a b : State) : (if c then a else b).spindles = if c then a.spindles else b.spindles := by
  split <;> rfl
@[simp] theorem State.foldl_spindles {α : Type} (f : State → α → State) (h : ∀ s x, (f s x).spindles = s.spindles) (l : List α) (s : State) :
    (l.foldl f s).spindles = s.spindles := foldl_keep (·.spindles) f h l s
@[simp] theorem State.ite_skeins (c : Prop) [Decidable c] (a b : State) : (if c then a else b).skeins = if c then a.skeins else b.skeins := by
  split <;> rfl
@[simp] theorem State.foldl_skeins {α : Type} (f : State → α → State) (h : ∀ s x, (f s x).skeins = s.skeins) (l : List α) (s : State) :
    (l.foldl f s).skeins = s.skeins := foldl_keep (·.skeins) f h l s
@[simp] theorem State.ite_dies (c : Prop) [Decidable c] (a b : State) : (if c then a else b).dies = if c then a.dies else b.dies := by
  split <;> rfl
@[simp] theorem State.foldl_dies {α : Type} (f : State → α → State) (h : ∀ s x, (f s x).dies = s.dies) (l : List α) (s : State) :
    (l.foldl f s).dies = s.dies := foldl_keep (·.dies) f h l s
@[simp] theorem State.ite_edges (c : Prop) [Decidable c] (a b : State) : (if c then a else b).edges = if c then a.edges else b.edges := by
  split <;> rfl
@[simp] theorem State.foldl_edges {α : Type} (f : State → α → State) (h : ∀ s x, (f s x).edges = s.edges) (l : List α) (s : State) :
    (l.foldl f s).edges = s.edges := foldl_keep (·.edges) f h l s
@[simp] theorem State.ite_flight (c : Prop) [Decidable c] (a b : State) : (if c then a else b).flight = if c then a.flight else b.flight := by
  split <;> rfl
@[simp] theorem State.foldl_flight {α : Type} (f : State → α → State) (h : ∀ s x, (f s x).flight = s.flight) (l : List α) (s : State) :
    (l.foldl f s).flight = s.flight := foldl_keep (·.flight) f h l s
@[simp] theorem State.ite_streams (c : Prop) [Decidable c] (a b : State) : (if c then a else b).streams = if c then a.streams else b.streams := by
  split <;> rfl
@[simp] theorem State.foldl_streams {α : Type} (f : State → α → State) (h : ∀ s x, (f s x).streams = s.streams) (l : List α) (s : State) :
    (l.foldl f s).streams = s.streams := foldl_keep (·.streams) f h l s
@[simp] theorem State.ite_mem (c : Prop) [Decidable c] (a b : State) : (if c then a else b).mem = if c then a.mem else b.mem := by
  split <;> rfl
@[simp] theorem State.foldl_mem {α : Type} (f : State → α → State) (h : ∀ s x, (f s x).mem = s.mem) (l : List α) (s : State) :
    (l.foldl f s).mem = s.mem := foldl_keep (·.mem) f h l s
@[simp] theorem State.ite_poison (c : Prop) [Decidable c] (a b : State) : (if c then a else b).poison = if c then a.poison else b.poison := by
  split <;> rfl
@[simp] theorem State.foldl_poison {α : Type} (f : State → α → State) (h : ∀ s x, (f s x).poison = s.poison) (l : List α) (s : State) :
    (l.foldl f s).poison = s.poison := foldl_keep (·.poison) f h l s
@[simp] theorem State.ite_hbm (c : Prop) [Decidable c] (a b : State) : (if c then a else b).hbm = if c then a.hbm else b.hbm := by
  split <;> rfl
@[simp] theorem State.foldl_hbm {α : Type} (f : State → α → State) (h : ∀ s x, (f s x).hbm = s.hbm) (l : List α) (s : State) :
    (l.foldl f s).hbm = s.hbm := foldl_keep (·.hbm) f h l s
@[simp] theorem State.ite_ddr (c : Prop) [Decidable c] (a b : State) : (if c then a else b).ddr = if c then a.ddr else b.ddr := by
  split <;> rfl
@[simp] theorem State.foldl_ddr {α : Type} (f : State → α → State) (h : ∀ s x, (f s x).ddr = s.ddr) (l : List α) (s : State) :
    (l.foldl f s).ddr = s.ddr := foldl_keep (·.ddr) f h l s
@[simp] theorem State.ite_links (c : Prop) [Decidable c] (a b : State) : (if c then a else b).links = if c then a.links else b.links := by
  split <;> rfl
@[simp] theorem State.foldl_links {α : Type} (f : State → α → State) (h : ∀ s x, (f s x).links = s.links) (l : List α) (s : State) :
    (l.foldl f s).links = s.links := foldl_keep (·.links) f h l s
@[simp] theorem State.ite_fabric (c : Prop) [Decidable c] (a b : State) : (if c then a else b).fabric = if c then a.fabric else b.fabric := by
  split <;> rfl
@[simp] theorem State.foldl_fabric {α : Type} (f : State → α → State) (h : ∀ s x, (f s x).fabric = s.fabric) (l : List α) (s : State) :
    (l.foldl f s).fabric = s.fabric := foldl_keep (·.fabric) f h l s
@[simp] theorem State.ite_cfg (c : Prop) [Decidable c] (a b : State) : (if c then a else b).cfg = if c then a.cfg else b.cfg := by
  split <;> rfl
@[simp] theorem State.foldl_cfg {α : Type} (f : State → α → State) (h : ∀ s x, (f s x).cfg = s.cfg) (l : List α) (s : State) :
    (l.foldl f s).cfg = s.cfg := foldl_keep (·.cfg) f h l s
@[simp] theorem State.ite_slv (c : Prop) [Decidable c] (a b : State) : (if c then a else b).slv = if c then a.slv else b.slv := by
  split <;> rfl
@[simp] theorem State.foldl_slv {α : Type} (f : State → α → State) (h : ∀ s x, (f s x).slv = s.slv) (l : List α) (s : State) :
    (l.foldl f s).slv = s.slv := foldl_keep (·.slv) f h l s
@[simp] theorem State.ite_sec (c : Prop) [Decidable c] (a b : State) : (if c then a else b).sec = if c then a.sec else b.sec := by
  split <;> rfl
@[simp] theorem State.foldl_sec {α : Type} (f : State → α → State) (h : ∀ s x, (f s x).sec = s.sec) (l : List α) (s : State) :
    (l.foldl f s).sec = s.sec := foldl_keep (·.sec) f h l s
@[simp] theorem State.ite_pwr (c : Prop) [Decidable c] (a b : State) : (if c then a else b).pwr = if c then a.pwr else b.pwr := by
  split <;> rfl
@[simp] theorem State.foldl_pwr {α : Type} (f : State → α → State) (h : ∀ s x, (f s x).pwr = s.pwr) (l : List α) (s : State) :
    (l.foldl f s).pwr = s.pwr := foldl_keep (·.pwr) f h l s
@[simp] theorem State.ite_flt (c : Prop) [Decidable c] (a b : State) : (if c then a else b).flt = if c then a.flt else b.flt := by
  split <;> rfl
@[simp] theorem State.foldl_flt {α : Type} (f : State → α → State) (h : ∀ s x, (f s x).flt = s.flt) (l : List α) (s : State) :
    (l.foldl f s).flt = s.flt := foldl_keep (·.flt) f h l s
@[simp] theorem State.ite_flash (c : Prop) [Decidable c] (a b : State) : (if c then a else b).flash = if c then a.flash else b.flash := by
  split <;> rfl
@[simp] theorem State.foldl_flash {α : Type} (f : State → α → State) (h : ∀ s x, (f s x).flash = s.flash) (l : List α) (s : State) :
    (l.foldl f s).flash = s.flash := foldl_keep (·.flash) f h l s
@[simp] theorem State.ite_stats (c : Prop) [Decidable c] (a b : State) : (if c then a else b).stats = if c then a.stats else b.stats := by
  split <;> rfl
@[simp] theorem State.foldl_stats {α : Type} (f : State → α → State) (h : ∀ s x, (f s x).stats = s.stats) (l : List α) (s : State) :
    (l.foldl f s).stats = s.stats := foldl_keep (·.stats) f h l s

end Sys2Proof.Machine
end

