-- ==== Sys2Proof/Laws/Ops.lean ====
section
/-!
SUPPORT. The named updates: one element of a vector changes, and every other field of State stands.
-/
namespace Sys2Proof.Machine
open Sys2Proof

/-- The changed element. -/
@[simp] theorem vmod_same {α : Type} {n : Nat} (v : Vector α n) (i : Fin n) (f : α → α) : (vmod v i f)[i] = f v[i] := by
  simp [vmod]
/-- The changed element, by its number. -/
@[simp] theorem vmod_same_val {α : Type} {n : Nat} (v : Vector α n) (i : Fin n) (f : α → α) : (vmod v i f)[i.val] = f v[i.val] := by
  simp [vmod]
/-- Every other element stands. -/
theorem vmod_ne {α : Type} {n : Nat} (v : Vector α n) {i j : Fin n} (f : α → α) (h : j ≠ i) : (vmod v i f)[j] = v[j] := by
  have : i.val ≠ j.val := fun e => h (Fin.ext e.symm)
  simp [vmod, this]
/-- Every element of a vector after a change at one place. -/
theorem vmod_get {α : Type} {n : Nat} (v : Vector α n) (i j : Fin n) (f : α → α) :
    (vmod v i f)[j] = if j = i then f v[j] else v[j] := by
  split
  · rename_i h; subst h; simp
  · rename_i h; exact vmod_ne v f h
/-- An element of a vector of which every element changes. -/
@[simp] theorem vall_get {α β : Type} {n : Nat} (v : Vector α n) (f : Fin n → α → β) (i : Fin n) : (vall v f)[i] = f i v[i] := by
  simp [vall]
/-- An element of a vector of which every element changes, by its number. -/
@[simp] theorem vall_get_val {α β : Type} {n : Nat} (v : Vector α n) (f : Fin n → α → β) (i : Nat) (h : i < n) :
    (vall v f)[i] = f ⟨i, h⟩ v[i] := by
  simp [vall]

@[simp] theorem State.modSp_spindles (s : State) (i : Spindle) (f : SpindleState → SpindleState) : (s.modSp i f).spindles = vmod s.spindles i f := rfl
@[simp] theorem State.modSp_pending (s : State) (i : Spindle) (f : SpindleState → SpindleState) : (s.modSp i f).pending = s.pending := rfl
@[simp] theorem State.modSp_now (s : State) (i : Spindle) (f : SpindleState → SpindleState) : (s.modSp i f).now = s.now := rfl
@[simp] theorem State.modSp_fresh (s : State) (i : Spindle) (f : SpindleState → SpindleState) : (s.modSp i f).fresh = s.fresh := rfl
@[simp] theorem State.modSp_rank (s : State) (i : Spindle) (f : SpindleState → SpindleState) : (s.modSp i f).rank = s.rank := rfl
@[simp] theorem State.modSp_devices (s : State) (i : Spindle) (f : SpindleState → SpindleState) : (s.modSp i f).devices = s.devices := rfl
@[simp] theorem State.modSp_dTick (s : State) (i : Spindle) (f : SpindleState → SpindleState) : (s.modSp i f).dTick = s.dTick := rfl
@[simp] theorem State.modSp_lHop (s : State) (i : Spindle) (f : SpindleState → SpindleState) : (s.modSp i f).lHop = s.lHop := rfl
@[simp] theorem State.modSp_tick (s : State) (i : Spindle) (f : SpindleState → SpindleState) : (s.modSp i f).tick = s.tick := rfl
@[simp] theorem State.modSp_step (s : State) (i : Spindle) (f : SpindleState → SpindleState) : (s.modSp i f).step = s.step := rfl
@[simp] theorem State.modSp_dist (s : State) (i : Spindle) (f : SpindleState → SpindleState) : (s.modSp i f).dist = s.dist := rfl
@[simp] theorem State.modSp_skeins (s : State) (i : Spindle) (f : SpindleState → SpindleState) : (s.modSp i f).skeins = s.skeins := rfl
@[simp] theorem State.modSp_dies (s : State) (i : Spindle) (f : SpindleState → SpindleState) : (s.modSp i f).dies = s.dies := rfl
@[simp] theorem State.modSp_edges (s : State) (i : Spindle) (f : SpindleState → SpindleState) : (s.modSp i f).edges = s.edges := rfl
@[simp] theorem State.modSp_flight (s : State) (i : Spindle) (f : SpindleState → SpindleState) : (s.modSp i f).flight = s.flight := rfl
@[simp] theorem State.modSp_streams (s : State) (i : Spindle) (f : SpindleState → SpindleState) : (s.modSp i f).streams = s.streams := rfl
@[simp] theorem State.modSp_mem (s : State) (i : Spindle) (f : SpindleState → SpindleState) : (s.modSp i f).mem = s.mem := rfl
@[simp] theorem State.modSp_poison (s : State) (i : Spindle) (f : SpindleState → SpindleState) : (s.modSp i f).poison = s.poison := rfl
@[simp] theorem State.modSp_hbm (s : State) (i : Spindle) (f : SpindleState → SpindleState) : (s.modSp i f).hbm = s.hbm := rfl
@[simp] theorem State.modSp_ddr (s : State) (i : Spindle) (f : SpindleState → SpindleState) : (s.modSp i f).ddr = s.ddr := rfl
@[simp] theorem State.modSp_links (s : State) (i : Spindle) (f : SpindleState → SpindleState) : (s.modSp i f).links = s.links := rfl
@[simp] theorem State.modSp_fabric (s : State) (i : Spindle) (f : SpindleState → SpindleState) : (s.modSp i f).fabric = s.fabric := rfl
@[simp] theorem State.modSp_cfg (s : State) (i : Spindle) (f : SpindleState → SpindleState) : (s.modSp i f).cfg = s.cfg := rfl
@[simp] theorem State.modSp_slv (s : State) (i : Spindle) (f : SpindleState → SpindleState) : (s.modSp i f).slv = s.slv := rfl
@[simp] theorem State.modSp_sec (s : State) (i : Spindle) (f : SpindleState → SpindleState) : (s.modSp i f).sec = s.sec := rfl
@[simp] theorem State.modSp_pwr (s : State) (i : Spindle) (f : SpindleState → SpindleState) : (s.modSp i f).pwr = s.pwr := rfl
@[simp] theorem State.modSp_flt (s : State) (i : Spindle) (f : SpindleState → SpindleState) : (s.modSp i f).flt = s.flt := rfl
@[simp] theorem State.modSp_flash (s : State) (i : Spindle) (f : SpindleState → SpindleState) : (s.modSp i f).flash = s.flash := rfl
@[simp] theorem State.modSp_stats (s : State) (i : Spindle) (f : SpindleState → SpindleState) : (s.modSp i f).stats = s.stats := rfl
@[simp] theorem State.modSk_skeins (s : State) (i : Skein) (f : SkeinState → SkeinState) : (s.modSk i f).skeins = vmod s.skeins i f := rfl
@[simp] theorem State.modSk_pending (s : State) (i : Skein) (f : SkeinState → SkeinState) : (s.modSk i f).pending = s.pending := rfl
@[simp] theorem State.modSk_now (s : State) (i : Skein) (f : SkeinState → SkeinState) : (s.modSk i f).now = s.now := rfl
@[simp] theorem State.modSk_fresh (s : State) (i : Skein) (f : SkeinState → SkeinState) : (s.modSk i f).fresh = s.fresh := rfl
@[simp] theorem State.modSk_rank (s : State) (i : Skein) (f : SkeinState → SkeinState) : (s.modSk i f).rank = s.rank := rfl
@[simp] theorem State.modSk_devices (s : State) (i : Skein) (f : SkeinState → SkeinState) : (s.modSk i f).devices = s.devices := rfl
@[simp] theorem State.modSk_dTick (s : State) (i : Skein) (f : SkeinState → SkeinState) : (s.modSk i f).dTick = s.dTick := rfl
@[simp] theorem State.modSk_lHop (s : State) (i : Skein) (f : SkeinState → SkeinState) : (s.modSk i f).lHop = s.lHop := rfl
@[simp] theorem State.modSk_tick (s : State) (i : Skein) (f : SkeinState → SkeinState) : (s.modSk i f).tick = s.tick := rfl
@[simp] theorem State.modSk_step (s : State) (i : Skein) (f : SkeinState → SkeinState) : (s.modSk i f).step = s.step := rfl
@[simp] theorem State.modSk_dist (s : State) (i : Skein) (f : SkeinState → SkeinState) : (s.modSk i f).dist = s.dist := rfl
@[simp] theorem State.modSk_spindles (s : State) (i : Skein) (f : SkeinState → SkeinState) : (s.modSk i f).spindles = s.spindles := rfl
@[simp] theorem State.modSk_dies (s : State) (i : Skein) (f : SkeinState → SkeinState) : (s.modSk i f).dies = s.dies := rfl
@[simp] theorem State.modSk_edges (s : State) (i : Skein) (f : SkeinState → SkeinState) : (s.modSk i f).edges = s.edges := rfl
@[simp] theorem State.modSk_flight (s : State) (i : Skein) (f : SkeinState → SkeinState) : (s.modSk i f).flight = s.flight := rfl
@[simp] theorem State.modSk_streams (s : State) (i : Skein) (f : SkeinState → SkeinState) : (s.modSk i f).streams = s.streams := rfl
@[simp] theorem State.modSk_mem (s : State) (i : Skein) (f : SkeinState → SkeinState) : (s.modSk i f).mem = s.mem := rfl
@[simp] theorem State.modSk_poison (s : State) (i : Skein) (f : SkeinState → SkeinState) : (s.modSk i f).poison = s.poison := rfl
@[simp] theorem State.modSk_hbm (s : State) (i : Skein) (f : SkeinState → SkeinState) : (s.modSk i f).hbm = s.hbm := rfl
@[simp] theorem State.modSk_ddr (s : State) (i : Skein) (f : SkeinState → SkeinState) : (s.modSk i f).ddr = s.ddr := rfl
@[simp] theorem State.modSk_links (s : State) (i : Skein) (f : SkeinState → SkeinState) : (s.modSk i f).links = s.links := rfl
@[simp] theorem State.modSk_fabric (s : State) (i : Skein) (f : SkeinState → SkeinState) : (s.modSk i f).fabric = s.fabric := rfl
@[simp] theorem State.modSk_cfg (s : State) (i : Skein) (f : SkeinState → SkeinState) : (s.modSk i f).cfg = s.cfg := rfl
@[simp] theorem State.modSk_slv (s : State) (i : Skein) (f : SkeinState → SkeinState) : (s.modSk i f).slv = s.slv := rfl
@[simp] theorem State.modSk_sec (s : State) (i : Skein) (f : SkeinState → SkeinState) : (s.modSk i f).sec = s.sec := rfl
@[simp] theorem State.modSk_pwr (s : State) (i : Skein) (f : SkeinState → SkeinState) : (s.modSk i f).pwr = s.pwr := rfl
@[simp] theorem State.modSk_flt (s : State) (i : Skein) (f : SkeinState → SkeinState) : (s.modSk i f).flt = s.flt := rfl
@[simp] theorem State.modSk_flash (s : State) (i : Skein) (f : SkeinState → SkeinState) : (s.modSk i f).flash = s.flash := rfl
@[simp] theorem State.modSk_stats (s : State) (i : Skein) (f : SkeinState → SkeinState) : (s.modSk i f).stats = s.stats := rfl
@[simp] theorem State.modDie_dies (s : State) (i : Die) (f : DieState → DieState) : (s.modDie i f).dies = vmod s.dies i f := rfl
@[simp] theorem State.modDie_pending (s : State) (i : Die) (f : DieState → DieState) : (s.modDie i f).pending = s.pending := rfl
@[simp] theorem State.modDie_now (s : State) (i : Die) (f : DieState → DieState) : (s.modDie i f).now = s.now := rfl
@[simp] theorem State.modDie_fresh (s : State) (i : Die) (f : DieState → DieState) : (s.modDie i f).fresh = s.fresh := rfl
@[simp] theorem State.modDie_rank (s : State) (i : Die) (f : DieState → DieState) : (s.modDie i f).rank = s.rank := rfl
@[simp] theorem State.modDie_devices (s : State) (i : Die) (f : DieState → DieState) : (s.modDie i f).devices = s.devices := rfl
@[simp] theorem State.modDie_dTick (s : State) (i : Die) (f : DieState → DieState) : (s.modDie i f).dTick = s.dTick := rfl
@[simp] theorem State.modDie_lHop (s : State) (i : Die) (f : DieState → DieState) : (s.modDie i f).lHop = s.lHop := rfl
@[simp] theorem State.modDie_tick (s : State) (i : Die) (f : DieState → DieState) : (s.modDie i f).tick = s.tick := rfl
@[simp] theorem State.modDie_step (s : State) (i : Die) (f : DieState → DieState) : (s.modDie i f).step = s.step := rfl
@[simp] theorem State.modDie_dist (s : State) (i : Die) (f : DieState → DieState) : (s.modDie i f).dist = s.dist := rfl
@[simp] theorem State.modDie_spindles (s : State) (i : Die) (f : DieState → DieState) : (s.modDie i f).spindles = s.spindles := rfl
@[simp] theorem State.modDie_skeins (s : State) (i : Die) (f : DieState → DieState) : (s.modDie i f).skeins = s.skeins := rfl
@[simp] theorem State.modDie_edges (s : State) (i : Die) (f : DieState → DieState) : (s.modDie i f).edges = s.edges := rfl
@[simp] theorem State.modDie_flight (s : State) (i : Die) (f : DieState → DieState) : (s.modDie i f).flight = s.flight := rfl
@[simp] theorem State.modDie_streams (s : State) (i : Die) (f : DieState → DieState) : (s.modDie i f).streams = s.streams := rfl
@[simp] theorem State.modDie_mem (s : State) (i : Die) (f : DieState → DieState) : (s.modDie i f).mem = s.mem := rfl
@[simp] theorem State.modDie_poison (s : State) (i : Die) (f : DieState → DieState) : (s.modDie i f).poison = s.poison := rfl
@[simp] theorem State.modDie_hbm (s : State) (i : Die) (f : DieState → DieState) : (s.modDie i f).hbm = s.hbm := rfl
@[simp] theorem State.modDie_ddr (s : State) (i : Die) (f : DieState → DieState) : (s.modDie i f).ddr = s.ddr := rfl
@[simp] theorem State.modDie_links (s : State) (i : Die) (f : DieState → DieState) : (s.modDie i f).links = s.links := rfl
@[simp] theorem State.modDie_fabric (s : State) (i : Die) (f : DieState → DieState) : (s.modDie i f).fabric = s.fabric := rfl
@[simp] theorem State.modDie_cfg (s : State) (i : Die) (f : DieState → DieState) : (s.modDie i f).cfg = s.cfg := rfl
@[simp] theorem State.modDie_slv (s : State) (i : Die) (f : DieState → DieState) : (s.modDie i f).slv = s.slv := rfl
@[simp] theorem State.modDie_sec (s : State) (i : Die) (f : DieState → DieState) : (s.modDie i f).sec = s.sec := rfl
@[simp] theorem State.modDie_pwr (s : State) (i : Die) (f : DieState → DieState) : (s.modDie i f).pwr = s.pwr := rfl
@[simp] theorem State.modDie_flt (s : State) (i : Die) (f : DieState → DieState) : (s.modDie i f).flt = s.flt := rfl
@[simp] theorem State.modDie_flash (s : State) (i : Die) (f : DieState → DieState) : (s.modDie i f).flash = s.flash := rfl
@[simp] theorem State.modDie_stats (s : State) (i : Die) (f : DieState → DieState) : (s.modDie i f).stats = s.stats := rfl
@[simp] theorem State.modLink_links (s : State) (i : Link) (f : LinkState → LinkState) : (s.modLink i f).links = vmod s.links i f := rfl
@[simp] theorem State.modLink_pending (s : State) (i : Link) (f : LinkState → LinkState) : (s.modLink i f).pending = s.pending := rfl
@[simp] theorem State.modLink_now (s : State) (i : Link) (f : LinkState → LinkState) : (s.modLink i f).now = s.now := rfl
@[simp] theorem State.modLink_fresh (s : State) (i : Link) (f : LinkState → LinkState) : (s.modLink i f).fresh = s.fresh := rfl
@[simp] theorem State.modLink_rank (s : State) (i : Link) (f : LinkState → LinkState) : (s.modLink i f).rank = s.rank := rfl
@[simp] theorem State.modLink_devices (s : State) (i : Link) (f : LinkState → LinkState) : (s.modLink i f).devices = s.devices := rfl
@[simp] theorem State.modLink_dTick (s : State) (i : Link) (f : LinkState → LinkState) : (s.modLink i f).dTick = s.dTick := rfl
@[simp] theorem State.modLink_lHop (s : State) (i : Link) (f : LinkState → LinkState) : (s.modLink i f).lHop = s.lHop := rfl
@[simp] theorem State.modLink_tick (s : State) (i : Link) (f : LinkState → LinkState) : (s.modLink i f).tick = s.tick := rfl
@[simp] theorem State.modLink_step (s : State) (i : Link) (f : LinkState → LinkState) : (s.modLink i f).step = s.step := rfl
@[simp] theorem State.modLink_dist (s : State) (i : Link) (f : LinkState → LinkState) : (s.modLink i f).dist = s.dist := rfl
@[simp] theorem State.modLink_spindles (s : State) (i : Link) (f : LinkState → LinkState) : (s.modLink i f).spindles = s.spindles := rfl
@[simp] theorem State.modLink_skeins (s : State) (i : Link) (f : LinkState → LinkState) : (s.modLink i f).skeins = s.skeins := rfl
@[simp] theorem State.modLink_dies (s : State) (i : Link) (f : LinkState → LinkState) : (s.modLink i f).dies = s.dies := rfl
@[simp] theorem State.modLink_edges (s : State) (i : Link) (f : LinkState → LinkState) : (s.modLink i f).edges = s.edges := rfl
@[simp] theorem State.modLink_flight (s : State) (i : Link) (f : LinkState → LinkState) : (s.modLink i f).flight = s.flight := rfl
@[simp] theorem State.modLink_streams (s : State) (i : Link) (f : LinkState → LinkState) : (s.modLink i f).streams = s.streams := rfl
@[simp] theorem State.modLink_mem (s : State) (i : Link) (f : LinkState → LinkState) : (s.modLink i f).mem = s.mem := rfl
@[simp] theorem State.modLink_poison (s : State) (i : Link) (f : LinkState → LinkState) : (s.modLink i f).poison = s.poison := rfl
@[simp] theorem State.modLink_hbm (s : State) (i : Link) (f : LinkState → LinkState) : (s.modLink i f).hbm = s.hbm := rfl
@[simp] theorem State.modLink_ddr (s : State) (i : Link) (f : LinkState → LinkState) : (s.modLink i f).ddr = s.ddr := rfl
@[simp] theorem State.modLink_fabric (s : State) (i : Link) (f : LinkState → LinkState) : (s.modLink i f).fabric = s.fabric := rfl
@[simp] theorem State.modLink_cfg (s : State) (i : Link) (f : LinkState → LinkState) : (s.modLink i f).cfg = s.cfg := rfl
@[simp] theorem State.modLink_slv (s : State) (i : Link) (f : LinkState → LinkState) : (s.modLink i f).slv = s.slv := rfl
@[simp] theorem State.modLink_sec (s : State) (i : Link) (f : LinkState → LinkState) : (s.modLink i f).sec = s.sec := rfl
@[simp] theorem State.modLink_pwr (s : State) (i : Link) (f : LinkState → LinkState) : (s.modLink i f).pwr = s.pwr := rfl
@[simp] theorem State.modLink_flt (s : State) (i : Link) (f : LinkState → LinkState) : (s.modLink i f).flt = s.flt := rfl
@[simp] theorem State.modLink_flash (s : State) (i : Link) (f : LinkState → LinkState) : (s.modLink i f).flash = s.flash := rfl
@[simp] theorem State.modLink_stats (s : State) (i : Link) (f : LinkState → LinkState) : (s.modLink i f).stats = s.stats := rfl
@[simp] theorem State.modFab_fabric (s : State) (i : Die) (f : FabDie → FabDie) : (s.modFab i f).fabric = vmod s.fabric i f := rfl
@[simp] theorem State.modFab_pending (s : State) (i : Die) (f : FabDie → FabDie) : (s.modFab i f).pending = s.pending := rfl
@[simp] theorem State.modFab_now (s : State) (i : Die) (f : FabDie → FabDie) : (s.modFab i f).now = s.now := rfl
@[simp] theorem State.modFab_fresh (s : State) (i : Die) (f : FabDie → FabDie) : (s.modFab i f).fresh = s.fresh := rfl
@[simp] theorem State.modFab_rank (s : State) (i : Die) (f : FabDie → FabDie) : (s.modFab i f).rank = s.rank := rfl
@[simp] theorem State.modFab_devices (s : State) (i : Die) (f : FabDie → FabDie) : (s.modFab i f).devices = s.devices := rfl
@[simp] theorem State.modFab_dTick (s : State) (i : Die) (f : FabDie → FabDie) : (s.modFab i f).dTick = s.dTick := rfl
@[simp] theorem State.modFab_lHop (s : State) (i : Die) (f : FabDie → FabDie) : (s.modFab i f).lHop = s.lHop := rfl
@[simp] theorem State.modFab_tick (s : State) (i : Die) (f : FabDie → FabDie) : (s.modFab i f).tick = s.tick := rfl
@[simp] theorem State.modFab_step (s : State) (i : Die) (f : FabDie → FabDie) : (s.modFab i f).step = s.step := rfl
@[simp] theorem State.modFab_dist (s : State) (i : Die) (f : FabDie → FabDie) : (s.modFab i f).dist = s.dist := rfl
@[simp] theorem State.modFab_spindles (s : State) (i : Die) (f : FabDie → FabDie) : (s.modFab i f).spindles = s.spindles := rfl
@[simp] theorem State.modFab_skeins (s : State) (i : Die) (f : FabDie → FabDie) : (s.modFab i f).skeins = s.skeins := rfl
@[simp] theorem State.modFab_dies (s : State) (i : Die) (f : FabDie → FabDie) : (s.modFab i f).dies = s.dies := rfl
@[simp] theorem State.modFab_edges (s : State) (i : Die) (f : FabDie → FabDie) : (s.modFab i f).edges = s.edges := rfl
@[simp] theorem State.modFab_flight (s : State) (i : Die) (f : FabDie → FabDie) : (s.modFab i f).flight = s.flight := rfl
@[simp] theorem State.modFab_streams (s : State) (i : Die) (f : FabDie → FabDie) : (s.modFab i f).streams = s.streams := rfl
@[simp] theorem State.modFab_mem (s : State) (i : Die) (f : FabDie → FabDie) : (s.modFab i f).mem = s.mem := rfl
@[simp] theorem State.modFab_poison (s : State) (i : Die) (f : FabDie → FabDie) : (s.modFab i f).poison = s.poison := rfl
@[simp] theorem State.modFab_hbm (s : State) (i : Die) (f : FabDie → FabDie) : (s.modFab i f).hbm = s.hbm := rfl
@[simp] theorem State.modFab_ddr (s : State) (i : Die) (f : FabDie → FabDie) : (s.modFab i f).ddr = s.ddr := rfl
@[simp] theorem State.modFab_links (s : State) (i : Die) (f : FabDie → FabDie) : (s.modFab i f).links = s.links := rfl
@[simp] theorem State.modFab_cfg (s : State) (i : Die) (f : FabDie → FabDie) : (s.modFab i f).cfg = s.cfg := rfl
@[simp] theorem State.modFab_slv (s : State) (i : Die) (f : FabDie → FabDie) : (s.modFab i f).slv = s.slv := rfl
@[simp] theorem State.modFab_sec (s : State) (i : Die) (f : FabDie → FabDie) : (s.modFab i f).sec = s.sec := rfl
@[simp] theorem State.modFab_pwr (s : State) (i : Die) (f : FabDie → FabDie) : (s.modFab i f).pwr = s.pwr := rfl
@[simp] theorem State.modFab_flt (s : State) (i : Die) (f : FabDie → FabDie) : (s.modFab i f).flt = s.flt := rfl
@[simp] theorem State.modFab_flash (s : State) (i : Die) (f : FabDie → FabDie) : (s.modFab i f).flash = s.flash := rfl
@[simp] theorem State.modFab_stats (s : State) (i : Die) (f : FabDie → FabDie) : (s.modFab i f).stats = s.stats := rfl
@[simp] theorem State.modCtl_pending (s : State) (c : Ctl) (f : CtlState → CtlState) : (s.modCtl c f).pending = s.pending := by
  unfold State.modCtl; split <;> rfl
@[simp] theorem State.modCtl_now (s : State) (c : Ctl) (f : CtlState → CtlState) : (s.modCtl c f).now = s.now := by
  unfold State.modCtl; split <;> rfl
@[simp] theorem State.modCtl_fresh (s : State) (c : Ctl) (f : CtlState → CtlState) : (s.modCtl c f).fresh = s.fresh := by
  unfold State.modCtl; split <;> rfl
@[simp] theorem State.modCtl_rank (s : State) (c : Ctl) (f : CtlState → CtlState) : (s.modCtl c f).rank = s.rank := by
  unfold State.modCtl; split <;> rfl
@[simp] theorem State.modCtl_devices (s : State) (c : Ctl) (f : CtlState → CtlState) : (s.modCtl c f).devices = s.devices := by
  unfold State.modCtl; split <;> rfl
@[simp] theorem State.modCtl_dTick (s : State) (c : Ctl) (f : CtlState → CtlState) : (s.modCtl c f).dTick = s.dTick := by
  unfold State.modCtl; split <;> rfl
@[simp] theorem State.modCtl_lHop (s : State) (c : Ctl) (f : CtlState → CtlState) : (s.modCtl c f).lHop = s.lHop := by
  unfold State.modCtl; split <;> rfl
@[simp] theorem State.modCtl_tick (s : State) (c : Ctl) (f : CtlState → CtlState) : (s.modCtl c f).tick = s.tick := by
  unfold State.modCtl; split <;> rfl
@[simp] theorem State.modCtl_step (s : State) (c : Ctl) (f : CtlState → CtlState) : (s.modCtl c f).step = s.step := by
  unfold State.modCtl; split <;> rfl
@[simp] theorem State.modCtl_dist (s : State) (c : Ctl) (f : CtlState → CtlState) : (s.modCtl c f).dist = s.dist := by
  unfold State.modCtl; split <;> rfl
@[simp] theorem State.modCtl_spindles (s : State) (c : Ctl) (f : CtlState → CtlState) : (s.modCtl c f).spindles = s.spindles := by
  unfold State.modCtl; split <;> rfl
@[simp] theorem State.modCtl_skeins (s : State) (c : Ctl) (f : CtlState → CtlState) : (s.modCtl c f).skeins = s.skeins := by
  unfold State.modCtl; split <;> rfl
@[simp] theorem State.modCtl_dies (s : State) (c : Ctl) (f : CtlState → CtlState) : (s.modCtl c f).dies = s.dies := by
  unfold State.modCtl; split <;> rfl
@[simp] theorem State.modCtl_edges (s : State) (c : Ctl) (f : CtlState → CtlState) : (s.modCtl c f).edges = s.edges := by
  unfold State.modCtl; split <;> rfl
@[simp] theorem State.modCtl_flight (s : State) (c : Ctl) (f : CtlState → CtlState) : (s.modCtl c f).flight = s.flight := by
  unfold State.modCtl; split <;> rfl
@[simp] theorem State.modCtl_streams (s : State) (c : Ctl) (f : CtlState → CtlState) : (s.modCtl c f).streams = s.streams := by
  unfold State.modCtl; split <;> rfl
@[simp] theorem State.modCtl_mem (s : State) (c : Ctl) (f : CtlState → CtlState) : (s.modCtl c f).mem = s.mem := by
  unfold State.modCtl; split <;> rfl
@[simp] theorem State.modCtl_poison (s : State) (c : Ctl) (f : CtlState → CtlState) : (s.modCtl c f).poison = s.poison := by
  unfold State.modCtl; split <;> rfl
@[simp] theorem State.modCtl_links (s : State) (c : Ctl) (f : CtlState → CtlState) : (s.modCtl c f).links = s.links := by
  unfold State.modCtl; split <;> rfl
@[simp] theorem State.modCtl_fabric (s : State) (c : Ctl) (f : CtlState → CtlState) : (s.modCtl c f).fabric = s.fabric := by
  unfold State.modCtl; split <;> rfl
@[simp] theorem State.modCtl_cfg (s : State) (c : Ctl) (f : CtlState → CtlState) : (s.modCtl c f).cfg = s.cfg := by
  unfold State.modCtl; split <;> rfl
@[simp] theorem State.modCtl_slv (s : State) (c : Ctl) (f : CtlState → CtlState) : (s.modCtl c f).slv = s.slv := by
  unfold State.modCtl; split <;> rfl
@[simp] theorem State.modCtl_sec (s : State) (c : Ctl) (f : CtlState → CtlState) : (s.modCtl c f).sec = s.sec := by
  unfold State.modCtl; split <;> rfl
@[simp] theorem State.modCtl_pwr (s : State) (c : Ctl) (f : CtlState → CtlState) : (s.modCtl c f).pwr = s.pwr := by
  unfold State.modCtl; split <;> rfl
@[simp] theorem State.modCtl_flt (s : State) (c : Ctl) (f : CtlState → CtlState) : (s.modCtl c f).flt = s.flt := by
  unfold State.modCtl; split <;> rfl
@[simp] theorem State.modCtl_flash (s : State) (c : Ctl) (f : CtlState → CtlState) : (s.modCtl c f).flash = s.flash := by
  unfold State.modCtl; split <;> rfl
@[simp] theorem State.modCtl_stats (s : State) (c : Ctl) (f : CtlState → CtlState) : (s.modCtl c f).stats = s.stats := by
  unfold State.modCtl; split <;> rfl

end Sys2Proof.Machine
end

