-- ==== Sys2Proof/Laws/Shared.lean ====
section
/-!
SUPPORT. For each shared operation, all that it can change, and what taking a packet means.
-/
namespace Sys2Proof.Machine
open Sys2Proof

/-- Raising a vector changes the selvedge alone. -/
theorem State.raiseVector_eq (s : State) (v : Fin 64) : s.raiseVector v = { s with slv := (s.raiseVector v).slv } := by
  rcases s with ⟨⟩
  simp only [State.raiseVector]
  split <;> rfl

/-- An event bit changes the selvedge alone. -/
theorem State.slvEvent_eq (s : State) (b : Fin 5) : s.slvEvent b = { s with slv := (s.slvEvent b).slv } := by
  simp only [State.slvEvent]
  split
  · split
    · rfl
    · rw [State.raiseVector_eq]
  · rfl

/-- A fault report changes the fault record and the selvedge alone. -/
theorem State.report_eq (s : State) (c : Code) : s.report c =
    { s with flt := { s.flt with lastFault := c, faultReports := s.flt.faultReports + 1 }, slv := (s.report c).slv } := by
  simp only [State.report]; rw [State.raiseVector_eq]

/-- The first element that satisfies a test: it does, none before it does, and the rest is the list without it. -/
theorem takeFirst_some {α : Type} {p : α → Bool} : ∀ {l : List α} {x : α} {r : List α}, takeFirst p l = some (x, r) →
    ∃ before after, l = before ++ x :: after ∧ r = before ++ after ∧ p x = true ∧ ∀ y ∈ before, p y = false
  | a :: l, x, r, h => by
    unfold takeFirst at h
    split at h
    · next hp => cases h; exact ⟨[], l, rfl, rfl, hp, by simp⟩
    · next hp =>
      split at h
      · cases h
      · next ht =>
        cases h
        obtain ⟨b, c, rfl, rfl, hx, hb⟩ := takeFirst_some ht
        refine ⟨a :: b, c, rfl, rfl, hx, ?_⟩
        intro z hz
        rcases List.mem_cons.mp hz with rfl | hz
        · simpa using hp
        · exact hb z hz
  | [], x, r, h => by simp [takeFirst] at h

/-- Taking a packet: the oldest that satisfies the test and whose way is open leaves the weft, and nothing else changes. -/
theorem State.takePacket_some {s t : State} {p : Packet → Bool} {x : Packet} (h : s.takePacket p = some (x, t)) :
    ∃ before after, s.flight = before ++ x :: after ∧ t = { s with flight := before ++ after } ∧ p x = true ∧ s.routeUp x.src x.dst = true ∧
      ∀ y ∈ before, (p y && s.routeUp y.src y.dst) = false := by
  unfold State.takePacket at h
  split at h
  · cases h
  · split at h
    · next hx =>
      cases h
      obtain ⟨b, c, hl, rfl, hp, hb⟩ := takeFirst_some hx
      simp only [Bool.and_eq_true] at hp
      exact ⟨b, c, hl, rfl, hp.1, hp.2, hb⟩
    · cases h

end Sys2Proof.Machine
end

