-- ==== Sys2Proof/Laws/Signatures.lean ====
section
/-!
SUPPORT. Digests and signatures: a digest has 32 bytes, and every signature of the accepted form verifies under the key that it leads to,
so that a signature can be checked in a proof without computing a digest.
-/
namespace Sys2Proof.Machine
open Sys2Proof

/-- A number of n bytes. -/
theorem leBytes_length : ∀ n v : Nat, (leBytes n v).length = n
  | 0, _ => rfl
  | n + 1, v => by simp [leBytes, leBytes_length n]

/-- A function of a number first reduced. -/
theorem atNumeral_eq {α : Type} (x : Nat) (f : Nat → α) : atNumeral x f = f x := by
  cases x <;> rfl

/-- A digest has 32 bytes. -/
theorem sha256_length (m : List Byte) : (sha256 m).length = 32 := by
  simp [sha256, atNumeral_eq, bigEnd, leBytes_length]

/-- A root has 32 bytes. -/
theorem lmsRoot_length (tree : List Byte) : ∀ (n node : Nat) (path x : List Byte), x.length = 32 → (lmsRoot tree n node path x).length = 32
  | 0, _, _, _, h => h
  | n + 1, _, _, _, _ => lmsRoot_length tree n _ _ _ (sha256_length _)

/-- A part of joined byte lists. -/
theorem sliceBytes_mid (x y z : List Byte) {o n : Nat} (ho : x.length = o) (hn : y.length = n) : sliceBytes (x ++ (y ++ z)) o n = y := by
  subst ho hn
  simp [sliceBytes]

/-- The LMS public key that a signature of a message leads to, for a tree identifier. -/
def lmsKeyOf (tree msg sig : List Byte) : List Byte :=
  let o := 4 + otsBytes (beNat (sliceBytes sig 4 4))
  let height := lmsHeight (beNat (sliceBytes sig o 4))
  let node := 2 ^ height + beNat (sliceBytes sig 0 4)
  sliceBytes sig o 4 ++ (sliceBytes sig 4 4 ++ (tree ++ (lmsRoot tree height node (sig.drop (o + 4))
    (sha256 (tree ++ bigEnd 4 node ++ [0x82, 0x82] ++ otsKey tree (beNat (sliceBytes sig 0 4)) msg (sig.drop 4))) ++ [])))

/-- A slice has the length asked for. -/
theorem sliceBytes_length (b : List Byte) (o n : Nat) : (sliceBytes b o n).length = n := by
  simp [sliceBytes] <;> omega

/-- Such a key has 56 bytes. -/
theorem lmsKeyOf_length (tree msg sig : List Byte) (ht : tree.length = 16) : (lmsKeyOf tree msg sig).length = 56 := by
  simp [lmsKeyOf, sliceBytes_length, ht, lmsRoot_length, sha256_length]

/-- A signature whose leaf lies in its tree and whose length is right verifies under the key that it leads to. -/
theorem lmsVerify_keyOf (tree msg sig : List Byte) (ht : tree.length = 16) (hl : sig.length = lmsBytes sig)
    (hq : beNat (sliceBytes sig 0 4) < 2 ^ lmsHeight (beNat (sliceBytes sig (4 + otsBytes (beNat (sliceBytes sig 4 4))) 4))) :
    lmsVerify (lmsKeyOf tree msg sig) msg sig = true := by
  have h0 : sliceBytes (lmsKeyOf tree msg sig) 0 4 = sliceBytes sig (4 + otsBytes (beNat (sliceBytes sig 4 4))) 4 :=
    sliceBytes_mid [] _ _ rfl (sliceBytes_length ..)
  have h4 : sliceBytes (lmsKeyOf tree msg sig) 4 4 = sliceBytes sig 4 4 :=
    sliceBytes_mid _ _ _ (sliceBytes_length ..) (sliceBytes_length ..)
  have h8 : sliceBytes (lmsKeyOf tree msg sig) 8 16 = tree := by
    unfold lmsKeyOf
    rw [← List.append_assoc]
    exact sliceBytes_mid _ _ _ (by simp [sliceBytes_length]) ht
  have h24 := fun (R : List Byte) (hn : R.length = 32) =>
    sliceBytes_mid (sliceBytes sig (4 + otsBytes (beNat (sliceBytes sig 4 4))) 4 ++ sliceBytes sig 4 4 ++ tree) R []
      (o := 24) (n := 32) (by simp [sliceBytes_length, ht]) hn
  unfold lmsVerify
  simp only [h0, h4, h8, Bool.and_eq_true, beq_iff_eq, decide_eq_true_eq]
  refine ⟨⟨⟨⟨trivial, trivial⟩, hq⟩, hl⟩, ?_⟩
  unfold lmsKeyOf
  rw [← List.append_assoc, ← List.append_assoc]
  exact (h24 _ (lmsRoot_length tree _ _ _ _ (sha256_length _))).symm

/-- The same for an HSS signature of one level. -/
theorem hssVerify_keyOf (tree msg sig : List Byte) (ht : tree.length = 16) (hl : sig.length = lmsBytes sig)
    (hq : beNat (sliceBytes sig 0 4) < 2 ^ lmsHeight (beNat (sliceBytes sig (4 + otsBytes (beNat (sliceBytes sig 4 4))) 4))) :
    hssVerify (0 :: 0 :: 0 :: 1 :: lmsKeyOf tree msg sig) msg (0 :: 0 :: 0 :: 0 :: sig) = true := by
  have h : hssVerify (0 :: 0 :: 0 :: 1 :: lmsKeyOf tree msg sig) msg (0 :: 0 :: 0 :: 0 :: sig) = lmsVerify (lmsKeyOf tree msg sig) msg sig := by
    simp [hssVerify, hssVerifyLevels, sliceBytes, beNat, leNat]
  rw [h]
  exact lmsVerify_keyOf tree msg sig ht hl hq

/-- A signature of the accepted form that verifies passes the check. -/
theorem hssCheck_zero {key msg sig : List Byte} (form : (!hssKeyOk key || (hssLength sig).isNone) = false) (h : hssVerify key msg sig = true) :
    hssCheck key msg sig = 0 := by
  simp [hssCheck, form, h]

end Sys2Proof.Machine
end

