-- ==== Sys2Proof/Tests/Slice0.lean ====
section
/-!
SUPPORT. Tests: for every statement a state and operands that meet its hypotheses together, a command that well-formedness refuses for each
of its checks, and a few results that the spec's examples and the standards it names give.
-/
namespace Sys2Proof.Tests
open Sys2Proof.Machine Sys2Proof.Safety
set_option maxRecDepth 20000
set_option Elab.async false

/-- The state after reset, of one device that is alone. -/
def base : State := { State.reset with rank := 0, devices := 1, dTick := 0, lHop := 310 }
/-- A step runs: its window is open, the tick runs and a pattern without sections is in effect. -/
def win : State := { base with
  step := { phase := .window, begun := true, closed := false }, tick := { enable := true }, dist := { alive := true, active := some [] } }
/-- Spindle 5 stands at word `w`, and is otherwise as `f` leaves it. -/
def sp5 (w : Word64) (f : SpindleState → SpindleState) (s : State := win) : State :=
  s.modSp 5 (fun x => f { x with seq := { x.seq with runs := true, idle := false, bank0 := [(0, w)] } })
/-- A sequencer word of an opcode. -/
def wd (op : Nat) (rest : Nat := 0) : Word64 := BitVec.ofNat 64 (op * 2 ^ 58 + rest)
/-- A job of two steps, the first under way. -/
def job1 : Job := { id := 1, pattern := 0, steps := 2, reruns := 0, notify := false, accept := 0, promise := 2, state := .running }
/-- A staple. -/
def st1 : Staple := { id := 7, entry := 3, budget := 1000, owner := 5, pinned := false }
/-- Ring 2 of skein 0, fed and drained by staples, with one handle in it. -/
def wire2 : RingWiring :=
  { laneLocal := false, home := 0, producer := 0, consumer := 0, src := 0, preload := 1, bufferCount := 4, bufferBase := 0, bufferStride := 256,
    preloadUnits := 1 }
def ring2 : Ring := ringOf (some wire2) [{ staple := 7, first := 1, count := 2 }] [{ staple := 7, first := 0, count := 2 }]
/-- A flit of a kind with its CRC. -/
def fl (kind : BitVec 4) (payload : List Byte := []) (seq : BitVec 12 := 0) : Flit :=
  let f : Flit := { kind := kind, last := false, poison := false, ackValid := false, seq := seq, ack := 0, stream := 0, len := 1, payload := payload, crc := 0 }
  { f with crc := flitCrc f }
def badFl (kind : BitVec 4) : Flit := { fl kind with crc := (fl kind).crc + 1 }
/-- Link 3 is up. -/
def up3 (f : LinkState → LinkState) (s : State := win) : State := s.modLink 3 (fun x => f { x with phase := .up, enable := true })

/-- A sparse store of little-endian numbers: address, width, value. -/
def cells (l : List (Nat × Nat × Nat)) : Cells Byte := l.foldl (fun c x => Cells.write 0 c x.1 (leBytes x.2.1 x.2.2)) []
/-- A Hadamard pass of one BF16 row at 0x10000: A at 0, B at 0x200000. -/
def passBytes : Cells Byte := cells [(0x10000, 1, 3), (0x1000C, 4, 512), (0x10010, 4, 0x200000), (0x10014, 4, 512), (0x1001C, 4, 0xFFFFFFFF)]
def pd : PassDesc := parsePass (({ scratch := passBytes } : SpindleState).scr 0x10000 64)
/-- The same with a chain at 0x10100 that a handle of ring 2 triggers. -/
def armBytes : Cells Byte := cells [(0x10000, 1, 3), (0x1000C, 4, 512), (0x10010, 4, 0x200000), (0x10014, 4, 512), (0x1001C, 4, 0x10100),
  (0x10104, 1, 0x21), (0x10105, 1, 2), (0x1010C, 4, 512)]
def armed1 : SpindleState := { scratch := armBytes }
def ch1 : ChainDesc := parseChain (armed1.scr 0x10100 128)
/-- A pass in the grid since time 0 that has its weights. -/
def pass1 : Pass := { desc := pd, descAddr := 0x10000, chain := none, issuedAt := 0, loadAt := some 0, startedAt := some 0, charged := true, weights := some { shape := 3, cls := 0, addr := 0, block := [], scales := [] } }
def queued1 : Pass := { desc := pd, descAddr := 0x10000, chain := none, issuedAt := 0, charged := true }
/-- One with a weight block. -/
def mat1 : Pass := { queued1 with desc := { shape := 0, m := 1, aStride := 512, wAddr := 0x200000 } }
def with5 (f : SpindleState → SpindleState) (s : State := win) : State := s.modSp 5 (fun x => f { x with seq := { x.seq with runs := true, idle := false } })

/-- A packet of a kind from the DMA endpoint of skein 1 to spindle 5, at byte 256 of its window. -/
def toSp : Endpoint := spindleEndpoint 5
def dma1 : Endpoint := dmaEndpoint 1
def pkt (kind : PacketKind) (dst : Endpoint := toSp) (addr : Nat := 0x200005000000 + 256) (data : List Byte := [1, 2]) : Packet :=
  { kind := kind, src := dma1, dst := dst, vc := 0, owner := .chan 4, tag := 9, addr := addr, bytes := 2, data := data }
/-- One packet is on its way. -/
def sent (p : Packet) (s : State := win) : State := { s with flight := [p] }
def none1 (s : State) : State := { s with flight := [] }
/-- Device memory from 0x1000000 lies in creel window 0; slice 0 serves line 0x10000. -/
def creeled (f : DieState → DieState) (s : State := win) : State := s.modDie 0 (fun x => f { x with wins := x.wins.set 0 { base := 256, limit := 300, cls := 1 } })
def slice0 : Endpoint := sliceEndpoint 0 (homeSlice 0x10000)

/-- Bytes of a table: address, width, value. -/
def zb (n : Nat) (l : List (Nat × Nat × Nat) := []) : List Byte := (List.range n).map (fun i => Cells.get 0 (cells l) i)
/-- A pattern image of sections: kind, scope, bytes. -/
def image (secs : List (Nat × Nat × List Byte)) (hdr : List (Nat × Nat × Nat) := []) : Image :=
  let top := 0x100 + 16 * secs.length
  let rows := secs.foldl (fun (a : Nat × List (Nat × Nat × Nat) × List Byte) x =>
    let o := 0x100 + 16 * a.1
    (a.1 + 1, a.2.1 ++ [(o, 2, x.1), (o + 2, 2, x.2.1), (o + 4, 4, x.2.2.length), (o + 8, 8, top + a.2.2.length)], a.2.2 ++ x.2.2)) (0, [], [])
  zb top (hdr ++ [(0x48, 2, secs.length)] ++ rows.2.1) ++ rows.2.2
def H0 : Ctl := ⟨.hbm, 0⟩
def D0 : Ctl := ⟨.ddr, 0⟩
/-- HBM stack 0, rank 0 lies at address 0. -/
def mem0 (f : CtlState → CtlState := id) (s : State := win) : State :=
  let s := s.modCtl H0 (fun x => f { x with rank := #v[0, 1, 1, 1] })
  { s with dist := { s.dist with map := [{ tier := .hbm, base := 0, size := 0x40000000, g := 0, members := 1, ranks := 1 }] } }
def toMem (kind : PacketKind) (data : List Byte := [1, 2]) : Packet := pkt kind (ctlEndpoint H0) 512 data
def rd1 : MemReq := { pkt := toMem .readReq, r := 0, pc := 2, arrived := 0, data := [1, 2] }
def eligible (n : Nat) (s : State) : State := { s with dist := { s.dist with active := some (image [(6, n, zb 16)]) }, now := 60000 }
def mig1 : Migration := { src := ⟨0, 0⟩, tgt := ⟨0, 1⟩, lines := 1 }
def migrating1 (m : Migration) (s : State) : State := s.modTier .hbm (fun t => { t with mig := some m })
/-- A contiguous copy of 64 bytes inside spindle 5, and its run. -/
def d0 : DmaDesc :=
  { kind := 0, barrier := false, pool := false, push := false, pop := false, mcLast := false, idx64 := false, srcSpace := 1, dstSpace := 1
    srcRegion := 0, dstRegion := 0, idxSpace := 0, idxRegion := 0, srcAddr := 0, dstAddr := 0x1000, idxAddr := 0, len0 := 64, count1 := 1
    count2 := 1, srcStride1 := 0, dstStride1 := 0, srcStride2 := 0, dstStride2 := 0, idxCount := 0, ring := 2, group := 0, aux := 0 }
def r0 : DmaRun := { list := 0, lane := 5, staple := 7, acceptedAt := 0 }
def dmaSt (d : DmaDesc := d0) (r : DmaRun := r0) (f : Channel → Channel := id) (s : State := win) : State :=
  { s.modSk 0 (fun x => { x with lists := [(0, 1)], descs := [d], channels := vmod x.channels 0 (fun ch => f { ch with run := some r }) }) with now := 40 }

def peer1 : PeerIdent := { rank := 9, link := 4, maxRate := 2 }
def lk (f : LinkState → LinkState) (s : State := win) : State := s.modLink 3 (fun x => f { x with enable := true })
def stm : StreamEntry :=
  { stream := 6, token := false, ring := 2, firstSlot := 0, count := 1, staging := 4, expert := 0, quota := 0, rowBytes := 0, deferRegion := 0, deferOffset := 0 }
/-- Ring 2 of link 3's skein, with a handle that staples took from position 0 on, or with nothing in it. -/
def ringL (pre : Nat) (s : State) : State :=
  s.modSk (linkSkein 3) (fun x => x.modRing 2 (fun _ => ringOf (some { wire2 with preload := pre, laneLocal := true }) [] [{ staple := 7, first := 0, count := 2 }]))
/-- A received frame of a kind. -/
def fm (kind : BitVec 8) (seq : BitVec 8 := 0) (payload : List Byte := [3]) : Frame :=
  let f : Frame := { kind := kind, seq := seq, len := 0, ctx := 0, payload := payload, crc := 0 }
  { f with crc := frameCrc f }
/-- The barrier is trained. -/
def bar (s : State := win) : State :=
  { s with slv := { s.slv with barrierUp := true, tx := Vector.ofFn (fun c => { role := trainedRole c }), rx := Vector.ofFn (fun c => { role := trainedRole c }) } }

theorem pair3 {α β γ : Type} {x : α × β × γ} {c : γ} (h : x.2.2 = c) : x = (x.1, x.2.1, c) := by rcases x with ⟨a, b, d⟩; simp at h; simp [h]
/-- Mailbox 3 and the selvedge as `f` and `g` leave them, the barrier up. -/
def box (f : Mailbox → Mailbox) (g : SlvState → SlvState := id) : State :=
  let s := bar
  { s with slv := g { s.slv with computePower := true, mb := vmod s.slv.mb 3 f } }
/-- A transfer of 8 KiB to the device, and its state. -/
def tr1 : Bulk :=
  { toDevice := true, grant := 1, base := 0, offset := 512, total := 8192, listAddr := 0, entries := 1, entry := some { addr := 0x5000, bytes := 8192 }
    crossing := 1, reqHeader := [], arrived := 0, started := true }
def bulkSt (b : Bulk) (s : State := bar mem0) : State := { s with slv := { s.slv with bulk := vmod s.slv.bulk 3 (fun _ => some b) } }
/-- Fabric of die 0: region 3 in a state, endpoint 3 as `f` leaves it. -/
def fab3 (st : BitVec 3) (f : FabEp → FabEp := id) (s : State := win) : State :=
  s.modFab 0 (fun x => { x with regions := vmod x.regions 3 (fun r => { r with state := st }), eps := vmod x.eps 3 f })
def toFab : Packet := { pkt .readReq (fabEndpoint 0 3) with addr := 64 }
def open0 (f : FabEp → FabEp := id) (s : State := win) : State := fab3 1 (fun e => f { e with outLimit := e.outLimit.set 0 255, perm := 3 }) s
/-- Region `i` of die 0 is online and its ingest port open. -/
def ingestOn (s : State := win) : State :=
  s.modFab 0 (fun x => { x with regions := Vector.replicate 16 { state := 1 }, ingest := Vector.replicate 2 { validHeld := false } })
def tr2 : Bulk := { tr1 with toDevice := false, total := 256, entry := some { addr := 0x5000, bytes := 256 } }

/-- A ring that the ingest window fills, on skein 0. -/
def ringI (s : State) : State := s.modSk 0 (fun x => x.modRing 2 (fun _ => ringOf (some { wire2 with preload := 0, producer := 4 }) [] []))

/-- Die 0 with its release sequence at a stage since time 0. -/
def relAt (r : Release) (now : Nat) : State := { win.modFab 0 (fun f => { f with configured := true, release := r }) with now := now }
/-- Region 3 as `f` leaves it. -/
def reg3 (f : FabRegion → FabRegion) (s : State := win) : State := s.modRegion 3 f
/-- A personality image of one region, whose records clear it: form and records are sound. -/
def endRec : List Byte := zb 40 [(0, 2, 4), (4, 4, 16), (8, 1, 3), (16, 2, 3), (20, 4, 16), (24, 4, 3 * 16384), (28, 4, 16384), (32, 2, 0xFF), (36, 4, 8)]
def imgB : List Byte := zb 1488 [(0, 4, 0x49504B59), (4, 2, 2), (6, 2, 0x80), (8, 4, 0x4B128C01), (0x0C, 4, 1), (0x10, 8, 1488), (0x18, 8, 40), (0x20, 8, 8), (0x38, 1, 4), (0x39, 1, 15), (184, 4, 1296), (203, 1, 4), (1327, 1, 5)]
def img1 : StagedImage := { source := .load false, bytes := imgB, plain := endRec }
def imgSt (i : StagedImage) (s : State := win) : State :=
  { s.modFab 0 (fun f => { f with configured := true }) with
    cfg := { s.cfg with staged := some i }, sec := { s.sec with battKeys := #v[some [], some []] } }
/-- Bytes in the primary area of flash. -/
def inFlash (s : State) (bs : List Byte) : State := { s with flash := Cells.write 0xFF [] 0x04000000 bs }
theorem flashRead_placed (s : State) (bs : List Byte) {a n : Nat} (ha : a = 0x04000000) (hn : n = bs.length) : bs = (inFlash s bs).flashRead a n := by
  rw [ha, hn]
  exact (Cells.read_write bs 0x04000000 rfl).symm
theorem flashRead_head (s : State) (bs : List Byte) {a n : Nat} (ha : a = 0x04000000) (hn : n ≤ bs.length) :
    (inFlash s bs).flashRead a n = bs.take n := by
  have e := flashRead_placed s bs ha rfl
  conv => rhs; rw [e]
  simp [State.flashRead, Cells.read, ← List.map_take, List.take_range, Nat.min_eq_left hn]
/-- The image is staged from there. -/
def imgP : State := inFlash (imgSt { img1 with pass := .staging, source := .primary }) imgB
theorem imgRead : imgB = imgP.flashRead (imgP.imageFlash .primary)
    (min (imgP.imageArea .primary) (max 128 (imgHeader (imgP.flashRead (imgP.imageFlash .primary) 128)).total)) :=
  flashRead_placed _ imgB (by decide +kernel) (by
    have h : imgP.flashRead (imgP.imageFlash .primary) 128 = imgB.take 128 := flashRead_head _ imgB (by decide +kernel) (by decide +kernel)
    rw [h]
    decide +kernel)

/-- A vector instruction word; source 1 defaults to V1. -/
def vi (op : Nat) (dst s1 s2 s3 fn ty : Nat := 0) : Word64 :=
  BitVec.ofNat 64 (op * 2 ^ 58 + ty * 2 ^ 55 + dst * 2 ^ 46 + s1 * 2 ^ 39 + s2 * 2 ^ 32 + s3 * 2 ^ 25 + fn)
/-- Spindle 5's vector engine stands at a word; address register 0 names window offset 0x1000. -/
def ve (w : Word64) (f : SpindleState → SpindleState := id) : State :=
  win.modSp 5 (fun x => f { x with
    seq := { x.seq with runs := true, idle := false, bank0 := [(0, w)] }
    vec := { x.vec with running := true, adr := x.vec.adr.set 0 { base := 0x1000 } } })
def getE {α : Type} [Inhabited α] (x : Except VFault (α × SpindleState)) : α × SpindleState :=
  match x with | .ok a => a | .error _ => (default, {})
theorem okE {α : Type} [Inhabited α] {x : Except VFault (α × SpindleState)} (h : x.toBool = true) : x = .ok ((getE x).1, (getE x).2) := by
  cases x <;> simp_all [Except.toBool, getE]

theorem okP {x : Except VFault Nat} {o : Nat} (h : (match x with | .ok a => a == o | .error _ => false) = true) : x = .ok o := by
  cases x <;> simp_all
theorem errP {x : Except VFault Nat} {e : VFault} (h : (match x with | .ok _ => false | .error a => a == e) = true) : x = .error e := by
  cases x <;> simp_all
/-- A spindle whose vector engine stands at the end of a loop. -/
def loopX : SpindleState := { vec := { loops := [{ start := 0, stop := 0, left := 2 }] } }

/-- A store descriptor of a format for 64 columns, in slot 0 at a VST of V1. -/
def vsQ (fmt : Nat) : StoreSlot := { raw := zb 64 [(0, 1, fmt), (8, 4, 64)], row := 0, col := 0 }
def vsW : Word64 := vi 0x23 0x50 1
def vsSt (fmt : Nat) : State := ve vsW (fun x => { x with vec := { x.vec with slots := x.vec.slots.set 0 (some (vsQ fmt)) } })
def vsR (fmt : Nat) : List Src × SpindleState := getE (readSrcs (vecCtx (vsSt fmt) 5 (parseVec vsW)) [1] 0 ((vsSt fmt).vecAt 5))
def vsE (fmt : Nat) : List (Val × Nat × Nat) := (vsQ fmt).elems (vsSt fmt).seed 64 ((src (vsR fmt).1 0).any (parseVec vsW).ty)
def vsB (fmt : Nat) : List (Byte × List Nat) :=
  (List.range (ceilDiv 64 32)).map (fun j => mxBlock fmt (field (vsQ fmt).raw 1 1) ((((vsE fmt).drop (32 * j)).take 32).map (·.2.2))
    ((((vsE fmt).drop (32 * j)).take 32).map (·.1)))

/-- A request of an opcode and a length on mailbox 3, with these fields. -/
def rq (op len : Nat) (l : List (Nat × Nat × Nat) := []) (t : Transport := 3) : Request :=
  { transport := t, crossing := 1, bytes := zb len ([(0, 2, op), (4, 4, len), (0x13, 1, 3)] ++ l) }
def row (op : Nat) : OpRow := (opRow op).getD ⟨0, 0, 0, 0, .any, false⟩
/-- Mailbox 3 holds a role. -/
def asRole (x : Role) (s : State := win) : State := s.modRole 3 (fun r => { r with role := x })
def inst : State := asRole .installer
def maker : State := asRole .maker
/-- The same with a running job, a staged pattern and a grant region of 4 KiB. -/
def dst (f : Distaff → Distaff) (s : State := win) : State := { s with dist := f s.dist }
def gr1 : Grant := { id := 2, base := 0, bytes := 4096, dirIn := true, dirOut := true }
def jobQ : Job := { job1 with state := .queued, accept := 5, promise := 7 }

/-- A pattern image that verifies: empty output and input regions and one wake window of no extent. -/
def patB : List Byte := zb 1040 [(0, 4, 0x54504B59), (4, 2, 3), (6, 2, 0x100), (0x18, 8, 1072), (0x20, 4, 100), (0x24, 4, 1000000), (0x2C, 4, 1), (0x38, 4, 100000), (0x3C, 4, 100000), (0x40, 4, 100000), (0x44, 4, 100000), (0x48, 2, 4), (0x130, 2, 7), (0x138, 8, 512),
  (0x100, 2, 8), (0x104, 4, 16), (0x108, 8, 512), (0x110, 2, 9), (0x114, 4, 16), (0x118, 8, 768), (0x120, 2, 6), (0x124, 4, 16), (0x128, 8, 1024)]
def pat0 : Image := patB ++ sha256 patB

/-- An LM-OTS and LMS signature of zeros, of 8-bit chains in a tree of height 5. -/
def sigZ : List Byte := zb 1292 [(7, 1, 4), (1131, 1, 5)]
/-- The HSS public key under which it signs a message. -/
def keyZ (msg : List Byte) : List Byte := 0 :: 0 :: 0 :: 1 :: lmsKeyOf (List.replicate 16 0) msg sigZ
theorem keyZ_length (msg : List Byte) : (keyZ msg).length = 60 :=
  congrArg (· + 4) (lmsKeyOf_length _ msg sigZ rfl)
theorem signsZ (msg sig : List Byte) (h : sig = 0 :: 0 :: 0 :: 0 :: sigZ) : hssCheck (keyZ msg) msg sig = 0 := by
  subst h
  have e : (hssLength (0 :: 0 :: 0 :: 0 :: sigZ)).isNone = false := by decide +kernel
  have k : hssKeyOk (keyZ msg) = true := by
    have a : ∀ x : List Byte, hssKeyOk (0 :: 0 :: 0 :: 1 :: 0 :: 0 :: 0 :: 5 :: 0 :: 0 :: 0 :: 4 :: x) = true := fun x => rfl
    exact a _
  exact hssCheck_zero (by rw [k, e]; rfl) (hssVerify_keyOf _ msg sigZ rfl (by decide +kernel) (by decide +kernel))
/-- A whole role entry in one part, and a mailbox whose nonce it signs under installer slot 0. -/
def entryQ : Request := rq 0x101 1408 [(0x20, 1, 2), (0x23, 1, 1), (0x24, 2, 1296), (0x28, 4, 1296), (0x77 + 4, 1, 4), (0x70 + 1135, 1, 5)]
def entryMsg : List Byte := State.entryMessage win [7] 2 0 3
def entrySt : State := { win.modRole 3 (fun r => { r with nonce := some ([7], 0) }) with sec := { (win.modRole 3 (fun r => { r with nonce := some ([7], 0) })).sec with
  installer := #v[some { key := keyZ entryMsg }, none, none, none] } }

/-- A firmware image without a body, which a key of LM-OTS chains of 2 bits signs. -/
def fwImg : List Byte :=
  bigEnd 576 0x594b465701008000000003030200000000000000000000000000000100000005000000029c4b2d7379c3c707894cb5815b608d66a0b5ae9862559f246fefb12d3e9ce7b48a9973c4e2d70f67fa7ca7f27c168a8300000000000000000000000000000000000000000000000000000000000000000000000000000000000000007011000000000000000000000000000000000002003f59b900000000000000000000000000000000000000000000000000000000600924352f0ce610521c558f7b0b7e8f55695c18aa788d9a22212b63f436b0dc03e6f0705bea56e4442eaefc844e1f3b9f4b403e0ed227129c79355954321a686b2b47afdf5c6f0c48c281e01ce14ff07837e1ce61a21041994ad4d5420d12615ae05b848f6f0e14243311091b73fcd59c03201aeb4e3a38625d5b928223b7b7de7a3ab6abec294d9344a6c14d3c4d34c1e2ea0a87d770842c2471b64d258c03b410cf8b86432ee0c77a085c127f8168ffa67ec511c2dcc2bc4f9abb09c35c902a2f64a3255405c5fdf62a6570301b8a09cb2ea901f7cf874c28b22b560809ddf244bf192be02586723acb352fb8e51f215ebac793f80f7ddb9acb03f8a2ea962dc22f5e577aa2b9879e9d32b5861bcb317c566d12fe3ec848cade31384ca71a4493b2816352deaaec16171c69720c19a00e88ab893bcb49617ef3ae740c52692f52772bb6bf06b13a05c4d9ce51379b8e6b83b76e42c6628c23669129871d29a5b6df1b183d4edd298acb580097a9689188ad72bf869687dd9fa016665ce10ad9b09324b1715abecb9afa1a ++
  bigEnd 576 0xb6c7ce6e47b557decbd779eea80fa9e7571a920eeba25825f0f03a46e7c756904bc80509440bca7593d8ac40b777582101a00d401d7ecdd7020378b38ca42d7daa3cf2c06b2f3dbbea701d6e0652140fa383f573fec7d5dc0d0991fe100956ff2b97b82e12050f403ee0eb4472c6958b8857d15168e823ffd79a1fb7b1f177e672078002457f6e1b43cd16760781351bea0c528ca7e91e4ed1c67a087ce00bb0dc759a8fd1765f27f56846cc333329cddf77bd606ce1a183f37bd297aa9610432a2f5794e5e537997362b1095717515347960da35f5c3e475eee0656e657702b2b050a44483ae452f529bcf70a43979d7a8606bbf33811088c2d827fa8e1afe76ca6008684fc5ce43165a2a9476bb4ec891e1aa9f7604bfd2bf6f6074205222731eb5afcbb8b9e5ee21afa64ddeaea10aae18382a9e10fed7c8caeb319debe3b5cfd0ebe04639a0fde3706a5e9cd78b039d214bb5a0fd4607015c86edd9c947210bd6f526970999517f89f7147c68e16f353366beccbb020132a31c80fb15d7fd90381fa2a7597c43d29c35f4fa104fde16e1a885226c696a7cd6c615ceb0450f796d832d3c85038937f8f277d106cc52af9f842e667e0d99a4a07ca4306327c2bf5067c192ec66c854b9ffc5ad34f1ec8ae0d7a494cbefe7eee5f2ee218c26fe03712403e0bf0a9e3ef193952046c2c65136fa44cd20220a14661060985ae765533f12949e9c8b3e8070fc694669c4983e0ad9cb7d99f9d423858c594851538ccb1bf32c7a80c413e49dd85198f98f5e5559e545d7875f07d7acb7df3b1f116 ++
  bigEnd 576 0x7e9d4cade8773fc2bc32619c7ae313f067a4edb45b6e08e6f94a832cddec03212df8766be067dd1a1da338eb16cf679a8d33b00f5ac4005db32abcab467f72e3567764e285d9d94a6fee0061e7efaf1739f0a661fd00ea276ed666077a704b051f735f557b762ed252253b51fba997cf2217f034e6cd528c3c0346f3d2401b26d0318228d04df77b7036e2386845c59ad4dd32318511a377ad4f97433177146ba6c993c541b5ed655afe2533d719f11bc1a00cc7b8913eb9ea7bd96e3e6e072892223a0b1ba29bb8fe469379b91ed9ee733e9ccc78eb1e5d02101e11f509c9157951a00a4897f846a5ae3d56ba48f522ad46406d2347473a40f3a37dcb19ca9f2013def7d54366b2bd8eb80db5a86f8d07723c7247883d52120aa3d9ad024ab2e496b1515f54dd549dcdd46858bbfc50a0285cc1318b52e032c20372685762fb2eb080a8ddbf9458914075e10edefa7fc7d793581fce7234339e94de7c9d72effdad9c5e077b4041cfdd187fb9d627e3c1e35ac401d46eeb70af9a4ecc160e40f8066607f218803783e6d7bf936e35a6130a2b4474649e2659188e4704203d75fa81c0355801ef7547258ceaa4467bb4dbdd771764edd205bf073ce1633c0bb05e9ea1f60fd7f1d27f86f07a2050499ddfd8a22d22bf6929044ce6f8ac32c8c7d35cc2a2166f4ab598445d0e887eef28f1f37ecf49d7a7384071807c7751e4409d0d73de951736c1f846462914b5378ab1e8461a0647829c76e2363a142f4f7dff33a2e69c74976a8aa1eac3a68733cae9cc14f2e3975d4d850b012a6d362de3 ++
  bigEnd 576 0xcd0aaff203fdb1e30fb02494a1a7068826c74c0f06a40ea5eb80213114b89fab2a223cc2ee190301696178151ded71f3a8e73ee880961a0550860bd3deb30f5274b4c9f8f7b8c4ebb20e08acc0298bac1c8c7cd1d10a92d099f13c61cd3942347b88659d32c1f5a619820c7e71a7b7d092a44f12f6ed8f3b0a512ea369492ea7dc3c7ded54e328af7a564d0d8be9e7acbf2ffbad990c38dbf08b35698d31ed661116af2c073eafb1ff5b72225dada79a52871f27c1abaea7bd93cbb88319f3420c187ef329e50ab3d94f867998f27e12a621afc79d54c90b36e3c2de3284af17fed17dc95f4f7da9fd19f7a9cd572e9ee4951857b8ceb8248569fcca0c0b7b5ccbef1f9302b552f4bcf0e9e664e94ad6b5cb7526227fae80191a0f44ceecfd72497d3b467bf0cb63e282c73fc49fb484e10f5afde41e9111fc9b2372557a212244b6aec7010a748946c537ae618c66a1f927adb2e19d3f198413805db380ef4d7b9aca4ee3e68caa9ad77e1b63a86334a3542a9991ed0852563263bb67f23116a706dd6384bae88d44c735acc53e39976780dd5c53d1ca0eef9773deddf7ee5fd2e3e52331fa50d3019cd999f03450fb746116a2443210d663551b47596747f1087676c03e7f3127cb7b7618e8359dc5b4a4ed4245ec3feb33183b1447f1ccf65e3661d315180c8a0847a0a9bd242560e7dae0405e327971432eec73d81a86c1e52d5fc3b77a6a87c3ebdf4a814b2f79373374d16d00e75179c40b6d0068dcc2b4db71d2e6ef8311d90fa059b730e281767dee911f412e054900556fa808163e ++
  bigEnd 576 0x3facfde6465d9b324ef4bee2c8c75cc6f88f6eadec3326da51435ea82a6d8928b96612c260b8cb4b0b80fcc61b17be55b4a5d2ec65ab72ff7d28c6a2776dd435dbb661dfd5ca963a155ba83ff120a319f6493ea071e6924dfef858c60e8648a43de7aea0686acd43f2bc2362b5d8ec95e4926d56f49d2ee36b90e9a346a97f3e599286b83af8def2ac8cdc87a51f92121a4f7e0e58e3063eba4c2fa36dd67adfaf026128b728b074c060f64cdbaba771e7c3be385ca7a5efe53e269171408136453edb7a1d676dcaf5a6dccc66d3c15a6a1ccff47c79316b9910f41f78c5250fbb71d2ce15b39af0b05604e27f62178b59374582fbb95b4276e4d720e451a2da8a7e16a36c7dbc7dc2fc43cffe232c6e24a2df16248b3e9c75ab9ab08a223728660a94993a46908b6e56fdbaa4ab6955c0a44daf72f9668d825047b47a9e2f65694ee17ef041214364d9e48f7b188758a4f4b30cbd0245c7e53d83dbb84b6222394959e0afd32458762a7de68d1320f7c37e044b57a062823d6ea2d0a4572647582591edda71799355f6e5c70b536ca1bf90c7bc73ca1431abb7078a63fc8f151a59a622468b98d02793ce575ac9cce21000b292b2220fdb5d52c3334b4693ef6a4e93fa5483c24595f4ffe7fef9ece3baa76886fb3993525e82af2022bfb7b8a5d87097da692cc3e76dedf385bede43963e45332cb1bb4da8fffcb5296cc1db9750543ca72db7114fd987f73733973bcbc6da4540c27acdc55f6cc4017a5c086923f51dbf496f35fbbd4fa19171c00edceb6f76a455621b5d2245f90e37cc67 ++
  bigEnd 576 0xb211231e5cab5a91c192eec01f003174dd49641a7730385562bda9244e7066621fff0f9d09090ecb3268924f1a8f4653a3bc49d77c6df5cfb205a3edbebd2eb383b1e6e83934fbde37007c287ade504a1529a103a3ae2ab83348a5997caf5361c1387b8d1f5e1c95c76486904506eae5df389a6ceee9618a6ac8f05a56c658b350dd0b1a86fddf1af9b760b88aef7b74c24cb284fc33d920fee80b732723dca48dc22a134eaf8908203fb4ca7cdc3de7e3f139d26989e545acf77f839f92e5a43ee51ccb06ca65b7eecc7c30c68c6e6f7164bb9a9ce28966b5060f789fcb8d6b2aea74eb590c56bdc43f6a8a5f11dd1d60ca317d3eb8526c709573eb809aace64307c0b3872c4279fb601a4af5f498dfb0aec71f5c9493508dbd746580b8b0b3815ed8b5f515dda5d274e141cb7ea17d37b54dd8acaca42b69a10a664dde990274713c29489e800c334510415d84bca3d0f203eaef099309c718771cca0cc32501d1b11749d3db524b629000a737a269f3f01207d42c41760ebdbd2b15996e6ed8280fff09501765378b17d8210a906ebff643412aecd8b321be45b67d0f776b8a1b0a7eba19eabbe2199efa43b288709e7398e17483823281f3cfee0a2dd38b8b352167351e0d32b78fd82704ce4c85957c118d3fcd4ac585478e1751a951b1b8721fee7f38a4ed1aa1485450b81eac0ad1dfcb9a097e14d60206b9fd6408771d7841fc7da8642f7a0d1b1b64edff78ec7a2603be296dd7fcd6cbaf1c313807c848cc099495d683685b47331e4d714358e3e60f61a09a5677562a8278212e2c ++
  bigEnd 576 0x71a3e158b8d28e426b9ce2e0b932f7b0a3c80ac275c75013b9dffdbe5d04f4baafa70f539d89aef1d940d3d74d832a94bd4e5c16f7c747ddd406998e987920deb1203bd4d6cd076b160c4cdd37884b44ba61b1a7d990f16b95d84b4ecfa6fbb95d15c400ab8469fd2e7fa6ebcfc8536bed19b429c1c2e53f7c2c27cca91be87f9a2dd1b9b9a739456d88b8f3b95c65f0e3bb7b7fcd81e19f2a65335a295b295c5854198c7205cc3d6b07f0c48e3bad36acaaaf7b0b7cb1346880fa76141312346dc32e7152b18009c8a4a622a69c94d8da87958a65946594783d1627385ffbc3cb7dcdd2612e30550f8c7a23cf82c4af38f0a273538d191a8c580e0605837117953d38a2d1fd361ed087f51d6acf9d5f373768a695f4de3fec676a7a65962d20647adaa9e0b44c825b6add7daf26e0163683dc3ee933006270904e07831e1e87c78e5c4730dd339dacfb05484b33ae58f0a36838bd2e893a174b266a7809eeb3720a9302631ec41389b96e986a689213405e9b0ec02b14ec9739eaea1b799503aa93c97774a42624ef2964517183a9a0e564ecca8e2d2749668bbcd98703648ee1cac8fa8758689003f2a2da0b2050b2b44f7d421bd687058c545ca09443a61f029ba53abd2368dfbbb66d4e6870f011c8ffee119ebd31badd6b0d850e1798d38fd485477f401d6411c3a0e10f2be929fae025f516f879cf66594a11ba10d6bbaac7c2cf579def7975e6a24d16209e0326bdd5aaee92bcd6967006c844ec8eccf79f939be149a3db80fb6ef5c0fa815fc9462ce920fab9d385a83bbba42e24c9 ++
  bigEnd 568 0xefde9b54ba995099e26b2c5fc24beac0cd1ba83fc937398e569cee156be380b3e4e23ca8b080971163622d341200c1a8c326b998b376220f82c3a56b0b2f207b67c374156df7e357edd7c7bc91a5a8c96eb37ddcfeb32eff078641a2e2ddcc527fcb6c46db92299f6d8a8fe1251f9a9c33563ab2eecfb24b479fd4a507cc875834373a40c49c5360c43a35028073eb981f1f81ec66d31cf0d649a973b4d7d6438e1eeae93284a56bc5e151d97cd38163d211a02ce35948a689c577d156710a62354610d2ef79026898fc97e438be38f786b0050f241e291eb634304c8ce7af1773ae66d19ccb72fdb276c9140d3ef18ea8d6335794c86e043db7eae8e809318b57b4ece05945a2040b168fbfa09328aabc937a024d9ec4d87c298a353a4d9469afc3d6128b1325e296e810c42ae7c66dcc896418d579903732e37ad9f266a0a368f8a0a0b45f806c723cc584028a787ccae7e58c2b51a2b9d36b137dfe56c139990d8d048a017b609ab21a9bea45f39d2533bfc468c98d6ac881425244c0d6b1903890b11b33d2296049ee04ebab324d2b031b8c00000005622ddc1b3672d66fb01f4a6130eeed4ce3d7dba9df700768ad5fb0c5e8a859016c279a8ac1a80adf7a6c0b235d5e09b9dbf04ffe8b1b3c4a6b69c2dbf253325b49a38a82366d29c65daf6c25ea97ebb9f9c845b94e32c863be3a3cc0fc95f4f8039f661a3fc5ff551184c15c025b652b878b19ae37c72aceb8fab214ef59acde17f5430417c21042088f091e288e545c3ec296010cb0797ad633fb9cca1af14a

theorem fw_signed : hssVerify (sliceBytes fwImg 0x18 60) (sha256 (fwImg.take 128)) (fwImg.drop 0x88) = true := by decide +kernel
theorem fw_form : hssCheck (sliceBytes fwImg 0x18 60) (sha256 (fwImg.take 128)) (fwImg.drop 0x88) = 0 :=
  hssCheck_zero (by decide +kernel) fw_signed
theorem fw_ok (s : State) (h : s.sec.rootHash = some (sha256 (sliceBytes fwImg 0x18 60))) : s.firmwareOk fwImg = true := by
  have b : field fwImg 0x10 8 = 0 := by decide +kernel
  unfold State.firmwareOk
  rw [h, b]
  simp only [Nat.add_zero, fw_form]
  have n : fwImg.length = 4600 := by decide +kernel
  rw [n]
  decide +kernel
/-- Secrets and fuses as `f` leaves them. -/
def sec (f : SecState → SecState) (s : State := inst) : State := { s with sec := f s.sec }
def grX : Grant := { gr1 with bytes := 8192 }
/-- Memory holds a byte list from address 0 on. -/
def placed (s : State) (bs : List Byte) : State := { s with mem := Cells.write 0 [] 0 bs }
theorem placedRead (s : State) (bs : List Byte) {a n : Nat} (ha : a = 0) (hn : n = bs.length) : bs = (placed s bs).memRead a n := by
  rw [ha, hn]
  exact (memRead_placed s bs 0).symm
theorem readRange_plain {s : State} {d : Die} {a n : Nat} (h : s.meetsWindow d a n = false) : (s.readRange d a n).2.1 = s.memRead a n := by
  simp [State.readRange, h]
theorem admitted_mem (s : State) (q : Request) (r : OpRow) : (admitted s q r).mem = s.mem := by
  unfold admitted State.admitRequest State.touchRole State.i3cRead
  repeat (first | rfl | split)
theorem admitted_dies (s : State) (q : Request) (r : OpRow) : (admitted s q r).dies = s.dies := by
  unfold admitted State.admitRequest State.touchRole State.i3cRead
  repeat (first | rfl | split)
theorem admittedRead (s : State) (q : Request) (r : OpRow) {a n : Nat} (h : s.meetsWindow 0 a n = false) :
    ((admitted s q r).readRange 0 a n).2.1 = s.memRead a n := by
  rw [readRange_plain (by simpa [State.meetsWindow, admitted_dies] using h)]
  simp [State.memRead, admitted_mem]
/-- Its maker's hash is in the fuses. -/
def fwBase (f : SecState → SecState) : State :=
  dst (fun d => { d with grants := [grX] }) (sec (fun x => f { x with rootHash := some (sha256 (sliceBytes fwImg 0x18 60)) }))
def fwSt (f : SecState → SecState) : State := placed (fwBase f) fwImg
def fwQ : Request := rq 0x130 56 [(0x20, 2, 2), (0x30, 8, 4600)]
theorem fw_window : inst.meetsWindow 0 (grX.base + field fwQ.bytes 0x28 8) (min (field fwQ.bytes 0x30 8) 0x1000001) = false := by
  decide +kernel
theorem fwRead (f : SecState → SecState) : fwImg = ((admitted (fwSt f) fwQ (row 0x130)).readRange 0 (grX.base + field fwQ.bytes 0x28 8)
    (min (field fwQ.bytes 0x30 8) 0x1000001)).2.1 :=
  (placedRead (fwBase f) fwImg (by decide +kernel) (by decide +kernel)).trans
    (admittedRead (fwSt f) fwQ (row 0x130) (a := grX.base + field fwQ.bytes 0x28 8) (n := min (field fwQ.bytes 0x30 8) 0x1000001) fw_window).symm
def zeroKey : List Byte := List.replicate 32 0
/-- The zero key wrapped under itself. -/
def wrap0 : List Byte := bigEnd 40 0x97317494343807e690fd1e431413963dc0e3deb4907fb89fa36ce65126d0ea1301381fb3a2941e2f
theorem unwrap0 : keyUnwrap zeroKey wrap0 = some zeroKey := by decide +kernel
def wrapF : List (Nat × Nat × Nat) := [(0x28, 40, leNat wrap0)]
/-- A golden image: form, records, signature and tag are sound. -/
def goldHead : List Byte := imgB.take 128 ++ bigEnd 56 0xcaa7403d5d606b6e044ec5d3baf39d18716003ca27a62a74d162f58e7546358e224ab128454ae17b665dea5267830ff68aff242e15c91019
def gold : List Byte := goldHead ++ imgB.drop 184
def goldBase : State :=
  dst (fun d => { d with grants := [grX] }) (sec (fun x => { x with
    battKeys := #v[some zeroKey, none]
    slots := x.slots.set 0 { image := zb 24 ++ (keyZ (sha256 goldHead) ++ []), valid := true } }) maker)
def goldSt : State := placed goldBase gold
def goldQ : Request := rq 0x138 56 [(0x20, 2, 2), (0x30, 8, 1488)]
theorem goldRead : gold = ((admitted goldSt goldQ (row 0x138)).readRange 0 (grX.base + field goldQ.bytes 0x28 8) (field goldQ.bytes 0x30 8)).2.1 :=
  (placedRead goldBase gold (by decide +kernel) (by decide +kernel)).trans (admittedRead _ _ _ (by decide +kernel)).symm
theorem gold_ok : (admitted goldSt goldQ (row 0x138)).goldenFault gold = (0, 0) := by
  have im : (admitted goldSt goldQ (row 0x138)).sec.running.image = zb 24 ++ (keyZ (sha256 goldHead) ++ []) := rfl
  have k : (admitted goldSt goldQ (row 0x138)).signerKey (imgHeader gold).sigKey = some (keyZ (sha256 goldHead)) := by
    have e : (imgHeader gold).sigKey = 15 := by decide +kernel
    have m : sliceBytes (zb 24 ++ (keyZ (sha256 goldHead) ++ [])) 24 60 = keyZ (sha256 goldHead) :=
      sliceBytes_mid _ _ _ (by decide +kernel) (keyZ_length _)
    unfold State.signerKey
    rw [e, dif_neg (by decide), if_pos (by decide), im]
    exact congrArg some m
  have d : imgDigest gold = sha256 goldHead := congrArg sha256 (by decide +kernel)
  have c : hssCheck (keyZ (sha256 goldHead)) (sha256 goldHead) (gold.drop (0x98 + (imgHeader gold).body)) = 0 :=
    signsZ _ _ (by decide +kernel)
  have g : gcmOpen zeroKey (imgHeader gold).iv (gold.take 128) (sliceBytes gold 0x80 (imgHeader gold).body)
    (sliceBytes gold (0x80 + (imgHeader gold).body) 16) = some endRec := by decide +kernel
  have s : (admitted goldSt goldQ (row 0x138)).sec.key (imgHeader gold).keySlot = some zeroKey := by decide +kernel
  have f : imgCheckForm gold 0x10000000 = (0, 0) := by decide +kernel
  have y : (admitted goldSt goldQ (row 0x138)).imgCheckKeys gold true = (0, 0) := by
    have e : (imgHeader gold).sigKey = 15 := by decide +kernel
    unfold State.imgCheckKeys
    simp only [k, s]
    simp [e]
  have a : (admitted goldSt goldQ (row 0x138)).imgAuthenticate gold = ((0, 0), endRec) := by
    unfold State.imgAuthenticate
    simp [k, s, d, c, g]
  have r : ∀ n, imgCheckRecords gold endRec n = (0, 0) := fun n => rfl
  unfold State.goldenFault
  rw [f, y, a]
  simp [r]

def flt (f : FaultState → FaultState) (s : State := win) : State := { s with flt := f s.flt }
def pwr (f : PwrState → PwrState) (s : State := win) : State := { s with pwr := f s.pwr }
/-- SYS_RST_N is high. -/
def ups (s : State := win) : State := pwr (fun p => { p with sysRstLow := false }) s
/-- A rung over a unit runs since time 0. -/
def rg (u : ResetUnit) (n : Nat) : Rung := { unit := u, rung := n, cause := 0x0802, startedAt := 0, boundFrom := 0 }
def rung1 (u : ResetUnit) (n : Nat) (now : Nat := 0) (s : State := win) : State := { flt (fun f => { f with rungs := [rg u n] }) s with now := now }

/-- A register's entry, or one of zeros. -/
def regOr (x : Option Reg) : Reg := x.getD { value := 0, named := 0, plain := true }

theorem someGetD {α : Type} {x : Option α} {d : α} (h : x.isSome = true) : x = some (x.getD d) := by
  cases x <;> simp_all
/-- A job whose step 1 was committed at tick 5; a state in which no step runs, and link 3 is up. -/
def jobL : Job := { job1 with commit := { job1.commit with committedTick := 5, committedStep := 1 } }
def lateS : State := up3 id ({ dst (fun d => { d with jobs := [jobL] }) with step := {} } : State)
def abortF : Flit := fl 5 (leBytes 63 5) 0

/-- A pattern with one board of skein 3, of one staple and one ring, and a job that is due under it. -/
def imB : Image := image [(2, 3, zb 0xD0 [(4, 2, 1), (6, 2, 1), (0x40, 2, 0), (0x42, 2, 1), (0xC0, 2, 7), (0xC2, 2, 3), (0xC4, 4, 1000)]), (3, 3, zb 48 [(0, 2, 1)])]
def boardS : State := dst (fun d => { d with active := some imB, jobs := [{ job1 with state := .queued, pattern := imB.id }] }) { win with step := { closed := true } }


/-- A statistics record whose address is nobody's. -/
def statP : StatRec := { addr := 0x100, tensorId := 1, format := 1, isInt := false }

def getB (x : Except VFault (List Byte)) : List Byte := match x with | .ok b => b | .error _ => []
theorem okB {x : Except VFault (List Byte)} (h : x.toBool = true) : x = .ok (getB x) := by
  cases x <;> simp_all [Except.toBool, getB]

/-! Tests from the spec's own examples and tables. -/

/-- The example of R141: the sums of the fused F06 chain and of the form with a BF16 intermediate. -/
theorem test_fused_residual :
    fp32Add false 0x3F808000 0x3B000000 = 0x3F80C000 ∧ fp32Add true 0x3F80C000 0xBF800000 = 0x3BC00000 ∧ fp32Add true 0x3F810000 0xBF800000 = 0x3C000000 := by
  decide
/-- The example of R457: the block after 9,000 begins with leaf 576,064. -/
theorem test_leaf_block : (({ block := 9000, blockValid := true } : SecState).takeBlock).nextLeaf = 576064 := by decide
/-- The example of R48: 4,370,000 µJ at 2.3 ms need 1,900 W, and 1,800 W refuse them. -/
theorem test_power_cap :
    Image.fitsCap (zb 72 [(0x38, 4, 4370000)]) 2300000 1900 = true ∧ Image.fitsCap (zb 72 [(0x38, 4, 4370000)]) 2300000 1800 = false := by
  decide +kernel
/-- The example of R257: 81,254,400 B in a tick of 2.3 ms. -/
theorem test_wake_share : 96 * win.rateTenths 0 * 2300000 / 1000 = 81254400 := by decide
/-- The example of R17: the window of spindle 77. -/
theorem test_spindle_window : spindleBase 77 = 0x20004D000000 := rfl
/-- SHA-256 of "abc", from FIPS 180-4. -/
theorem test_sha256 : sha256 [0x61, 0x62, 0x63] =
    bigEnd 32 0xba7816bf8f01cfea414140de5dae2223b00361a396177a9cb410ff61f20015ad := by decide +kernel
/-- AES key wrap, from RFC 3394 4.6. -/
theorem test_key_unwrap : keyUnwrap ((List.range 32).map (BitVec.ofNat 8))
    (bigEnd 40 0x28C9F404C4B810F4CBCCB35CFB87F8263F5786E2D80ED326CBC7F0E71A99F43BFB988B9B7A02DD21) =
    some (bigEnd 32 0x00112233445566778899AABBCCDDEEFF000102030405060708090A0B0C0D0E0F) := by decide +kernel
/-- No row of the table gives bits. -/
theorem test_no_words (n w : Nat) : decodeTableWord n w = none := rfl
/-- An empty queue passes one cycle of the sequencing clock from reset. -/
theorem test_idle_cycle : ∃ t, step State.reset = .next t ∧ t.now = 10 := ⟨_, rfl, rfl⟩

/-! Well-formedness refuses one ill-formed command for each check. -/

theorem test_wf_flit : (Instr.dataFlit 3 (fl 1)).wf = false := by decide +kernel
theorem test_wf_frame : (Instr.barrierFrame true 0 (fm 1)).wf = false := by decide +kernel
theorem test_wf_frame_length : (Instr.barrierFrame true 0 { fm 1 0 (List.replicate 256 0) with len := 257 }).wf = false := by decide +kernel
theorem test_wf_request : (Instr.jobStatus (rq 0x22 4097)).wf = false := by decide +kernel
theorem test_wf_training : (Instr.fullDeviceReset 0 { stackSet := 0xFFF, ddr := [] }).wf = false := by decide
theorem test_wf_slice : (Instr.userClockEdge 0 0 { slices := [{ slice := 2048, a := 0, b := 0, op := 0, reset := false }], rams := [], flops := [], pins := [] }).wf =
    false := by decide
theorem test_wf_flop : (Instr.userClockEdge 0 0 { slices := [], rams := [], flops := [{ flop := 2457600, d := true, en := true, rst := false }], pins := [] }).wf =
    false := by decide
theorem test_wf_ram : (Instr.userClockEdge 0 0 { slices := [], rams := List.replicate 2 { ram := 1, port := 0, addr := 0, write := none }, flops := [], pins := [] }).wf =
    false := by decide
theorem test_wf_answer : (Instr.fabricInboundAnswer 0 3 0 (List.replicate 4097 0)).wf = false := by decide +kernel
theorem test_wf_fabric_write : (Instr.fabricOutboundRequest 0 3 (some (List.replicate 4097 0)) 0 0 0).wf = false := by decide +kernel
theorem test_wf_fabric_read : (Instr.fabricOutboundRequest 0 3 none 0 4097 0).wf = false := by decide
theorem test_wf_ingest : (Instr.ingestBeat 0 0 0 [] 0).wf = false := by decide
theorem test_wf_capture : (Instr.captureReadoutComplete 0 (List.replicate 52408321 0)).wf = false := by
  simp only [Instr.wf, List.length_replicate]
  decide
theorem test_wf_bulk_entry : (Instr.bulkPiece 3 (List.replicate 8 0) (.data []) .clean).wf = false := by decide
theorem test_wf_bulk_entries : (Instr.bulkPiece 3 (List.replicate 65552 0) (.data []) .clean).wf = false := by
  simp only [Instr.wf, List.length_replicate]
  decide
theorem test_wf_bulk_data : (Instr.bulkPiece 3 (List.replicate 16 0) (.data (List.replicate 4097 0)) .clean).wf = false := by decide +kernel
theorem test_wf_lanes : (Instr.sknStallCycle [3, 3]).wf = false := by decide
theorem test_wf_thermal : (Instr.thermalReading 0 [400] [400, 400, 400] [400, 400, 400]).wf = false := by decide
theorem test_wf_rails : (Instr.pmbusPoll (List.replicate 2 { rail := 3, mv := 0, ma := 0 })).wf = false := by decide
theorem test_wf_thermal_stacks : (Instr.thermalReading 0 (List.replicate 32 400) [] [400, 400, 400]).wf = false := by decide
theorem test_wf_thermal_modules : (Instr.thermalReading 0 (List.replicate 32 400) [400, 400, 400] []).wf = false := by decide
theorem test_wf_sliver_short : (Instr.slotBoundary 3 (some (List.replicate 15 0))).wf = false := by decide
theorem test_wf_sliver_long : (Instr.slotBoundary 3 (some (List.replicate 241 0))).wf = false := by decide +kernel
theorem test_wf_blocked : (Instr.multicastWrite dma1 {} [.die 1, .die 1]).wf = false := by decide
theorem test_wf_found : (Instr.memReadComplete ⟨.hbm, 0⟩ 0 (List.replicate 18 .clean)).wf = false := by decide
theorem test_wf_bar0 : (Instr.bar0Access 0 4 (some [1])).wf = false := by decide

/-! States and operands that meet the hypotheses of each statement. -/

/-- Hypotheses of EmptyQueuePassesCycle. -/
theorem test_meets_empty_queue_passes_cycle :
    ∃ (s : State), s.pending = [] :=
  ⟨State.reset, by decide⟩

/-- Hypotheses of TickEdgeCommand. -/
theorem test_meets_tick_edge_command :
    (∃ (s : State) (edge : Time), Clocked s ∧ s.tick.enable = true ∧ s.tick.src ≠ 3 ∧
      (if s.tick.src = 2 then s.tick.tickInAt = some edge else edge = s.tick.nextEdge) ∧ edge ≤ s.now ∧
      ((s.step.phase = .idle ∨ s.step.phase = .window)) ∧ s.tick.count ≠ 0xFFFFFFFFFFFF) ∧
    (∃ (s : State) (edge : Time), Clocked s ∧ s.tick.enable = true ∧ s.tick.src ≠ 3 ∧
      (if s.tick.src = 2 then s.tick.tickInAt = some edge else edge = s.tick.nextEdge) ∧ edge ≤ s.now ∧
      ((s.step.phase = .idle ∨ s.step.phase = .window)) ∧ s.tick.count = 0xFFFFFFFFFFFF) ∧
    (∃ (s : State) (i : Spindle), Clocked s ∧ s.tick.enable = true ∧ s.tick.src = 0 ∧ s.tick.nextEdge ≤ s.now ∧ s.step.phase = .window ∧
      s.tick.count ≠ 0xFFFFFFFFFFFF ∧ (s.spindles[i]).seq.runs = true ∧ (s.spindles[i]).seq.idle = false ∧ s.laneExcused i = false) :=
  ⟨⟨win, 0, by decide⟩,
   ⟨{ win with tick := { enable := true, count := 0xFFFFFFFFFFFF } }, 0, by decide⟩,
   ⟨sp5 0 id, 5, by decide⟩⟩

/-- Hypotheses of StepsBeginAndClose. -/
theorem test_meets_steps_begin_and_close :
    (∃ (s : State) (j : Job) (im : Image), Clocked s ∧ s.step.phase = .idle ∧ s.step.closed = true ∧ s.tick.enable = true ∧ s.tick.stopped = false ∧
      s.endCancelled.jobDue = some j ∧ s.endCancelled.dist.active = some im) ∧
    (∃ (s : State), Clocked s ∧ s.step.phase = .drain ∧ s.tick.lastEdge + 17 * s.drainNs ≤ s.now ∧ s.step.begun = true ∧ s.outstanding = true) ∧
    (∃ (s : State), Clocked s ∧ s.step.phase = .drain ∧ s.tick.lastEdge + 17 * s.drainNs ≤ s.now ∧ (s.step.begun = false ∨ s.outstanding = false ∧
      s.stats = [])) ∧
    (∃ (s : State), Clocked s ∧ s.step.phase = .drain ∧ s.tick.lastEdge + 17 * s.drainNs ≤ s.now ∧ s.step.begun = true ∧ s.outstanding = false ∧
      ((∃ r ∈ s.stats, (s.writeRecord r).2 ≠ 0))) ∧
    (∃ (s : State) (j : Job), Clocked s ∧ s.step.phase = .spread ∧ s.tick.lastEdge + 17 * s.tick.holdNs.toNat ≤ s.now ∧ s.step.begun = true ∧
      s.runningJob = some j ∧ s.step.overrun = false ∧ s.step.aborted = false ∧ s.step.faulted = false ∧ s.step.index + 1 ≠ j.steps) ∧
    (∃ (s : State) (j : Job), Clocked s ∧ s.step.phase = .spread ∧ s.tick.lastEdge + 17 * s.tick.holdNs.toNat ≤ s.now ∧ s.step.begun = true ∧
      s.runningJob = some j ∧ s.step.overrun = false ∧ s.step.aborted = false ∧ s.step.faulted = false ∧ s.step.index + 1 = j.steps) ∧
    (∃ (s : State) (j : Job), Clocked s ∧ s.step.phase = .spread ∧ s.tick.lastEdge + 17 * s.tick.holdNs.toNat ≤ s.now ∧ s.step.begun = true ∧
      s.runningJob = some j ∧ (s.step.overrun = true ∨ s.step.aborted = true ∨ s.step.faulted = true)) :=
  ⟨⟨{ base with tick := { enable := true }, dist := { jobs := [job1], active := some [] } }, job1, [], by decide⟩,
   ⟨({ win with step := { phase := .drain, begun := true }, now := 68000 } : State).modSp 5 (fun x => { x with vec := { x.vec with memWrites := [{ due := 0, at_ := 0, bytes := [] }] } }),
     by decide +kernel⟩,
   ⟨{ win with step := { phase := .drain, begun := true }, now := 68000 }, by decide +kernel⟩,
   ⟨{ win with step := { phase := .drain, begun := true }, now := 68000, stats := [statP] }, by decide +kernel⟩,
   ⟨{ win with step := { phase := .spread, begun := true }, now := 68000, dist := { jobs := [job1], active := some [] } }, job1, by decide⟩,
   ⟨{ win with step := { phase := .spread, begun := true, index := 1 }, now := 68000, dist := { jobs := [job1], active := some [] } }, job1,
     by decide⟩,
   ⟨{ win with step := { phase := .spread, begun := true, overrun := true }, now := 68000, dist := { jobs := [job1], active := some [] } }, job1,
     by decide⟩⟩

/-- Hypotheses of TickBlockCommands. -/
theorem test_meets_tick_block_commands :
    (∃ (s : State), 20000 ≤ s.tick.periodNext.toNat ∧ s.tick.periodNext.toNat ≤ 200000000 ∧ s.tick.count.toNat + 2 ≤ s.tick.applyTick) ∧
    (∃ (s : State), (s.tick.periodNext.toNat < 20000 ∨ 200000000 < s.tick.periodNext.toNat ∨ s.tick.applyTick < s.tick.count.toNat + 2)) ∧
    (∃ (s : State), Clocked s ∧ s.tick.periodArm = true ∧ s.tick.applyTick = s.tick.count.toNat) ∧
    (∃ (s : State), Clocked s ∧ s.tick.enable = true ∧ s.tick.src = 0 ∧ s.tick.lost = false ∧ s.tick.lossLimit.toNat ≤ s.tick.missed) ∧
    (∃ (s : State) (g : Staged), Clocked s ∧ s.dist.staged = some g ∧ g.armedAt = some s.tick.count.toNat ∧ s.step.phase = .idle ∧
      s.step.closed = true) ∧
    (∃ (l : Link) (f : Flit) (s : State), (s.links[l]).phase = .up ∧ s.looped l = false ∧ flitGood f = false) ∧
    (∃ (l : Link) (f : Flit) (s : State), (s.links[l]).phase = .up ∧ s.looped l = false ∧ flitGood f = true ∧ f.kind = 4 ∧
      ((s.tick.enable = false ∨ s.tick.src ≠ 0 ∨ s.tick.upLink.toNat ≠ l.val))) ∧
    (∃ (l : Link) (f : Flit) (s : State), (s.links[l]).phase = .up ∧ s.looped l = false ∧ flitGood f = true ∧ f.kind = 4 ∧ s.tick.enable = true ∧
      s.tick.src = 0 ∧ s.tick.upLink.toNat = l.val) :=
  ⟨⟨{ base with tick := { applyLo := 2, periodNext := 20000 } }, by decide⟩,
   ⟨{ base with tick := { applyLo := 2, periodNext := 200000001 } }, by decide⟩,
   ⟨{ base with tick := { periodArm := true } }, by decide⟩,
   ⟨{ win with tick := { enable := true, missed := 4 } }, by decide⟩,
   ⟨{ base with dist := { staged := some { image := [], verified := true, armedAt := some 0 } } },
     { image := [], verified := true, armedAt := some 0 }, by decide⟩,
   ⟨3, badFl 4, up3 id, by decide +kernel⟩,
   ⟨3, fl 4, up3 id, by decide +kernel⟩,
   ⟨3, fl 4, { up3 id with tick := { enable := true, upLink := 3 } }, by decide +kernel⟩⟩

/-- Hypotheses of SequencerWords. -/
theorem test_meets_sequencer_words :
    (∃ (s : State) (i : Spindle) (w : Word64), AtWord s i .none w 0xB ∧ (s.spindles[i]).seq.taken = none) ∧
    (∃ (s : State) (i : Spindle) (w : Word64), AtWord s i .none w 0xA ∧ (s.spindles[i]).seq.taken = none ∧ wbits w 15 0 ≠ 0 ∧ wbits w 28 16 ≠ 0 ∧
      (s.spindles[i]).seq.loops.length < 2 ∧ (∀ l ∈ (s.spindles[i]).seq.loops.head?, (s.spindles[i]).seq.pc.toNat + wbits w 28 16 ≤ l.stop)) ∧
    (∃ (s : State) (i : Spindle) (w : Word64), AtWord s i .none w 0xD ∧ (s.spindles[i]).seq.taken = none) ∧
    (∃ (s : State) (i : Spindle) (w : Word64), AtWord s i .none w 3 ∧ (s.spindles[i]).seq.taken = none ∧ (s.spindles[i]).seq.inStaple = true) ∧
    (∃ (s : State) (i : Spindle) (w : Word64) (st : Staple), AtWord s i .none w 2 ∧ (s.spindles[i]).seq.taken = some st ∧
      (s.spindles[i]).seq.inStaple = false ∧ st.id = BitVec.ofNat 16 (wbits w 47 32) ∧ st.budget = wbits w 31 0) ∧
    (∃ (s : State) (i : Spindle) (w : Word64), AtWord s i .stepend w 0xC ∧ (s.spindles[i]).seq.taken = none ∧ (s.spindles[i]).seq.inStaple = false ∧
      (s.spindles[i]).armed = [] ∧ (∀ p ∈ (s.spindles[i]).passes, p.held = none)) :=
  ⟨⟨sp5 (wd 0xB 9) id, 5, wd 0xB 9, by decide⟩,
   ⟨sp5 (wd 0xA 0x10001) id, 5, wd 0xA 0x10001, by decide⟩,
   ⟨sp5 (wd 0xD 0x50004) id, 5, wd 0xD 0x50004, by decide⟩,
   ⟨sp5 (wd 3) (fun x => { x with seq := { x.seq with inStaple := true } }), 5, wd 3, by decide⟩,
   ⟨sp5 (wd 2 (7 * 2 ^ 32 + 1000)) (fun x => { x with seq := { x.seq with taken := some st1 } }), 5, wd 2 (7 * 2 ^ 32 + 1000), st1, by decide⟩,
   ⟨sp5 (wd 0xC) id, 5, wd 0xC, by decide⟩⟩

/-- Hypotheses of NextTakesStaple. -/
theorem test_meets_next_takes_staple :
    (∃ (s : State) (i : Spindle) (w : Word64), AtWord s i .next w 1 ∧ (s.spindles[i]).seq.taken = none ∧ (s.spindles[i]).seq.inStaple = false ∧
      (s.skeins[skeinOf i]).boardActive = false) ∧
    (∃ (s : State) (i : Spindle) (w : Word64) (st : Staple) (b : SkeinState), AtWord s i .next w 1 ∧ (s.spindles[i]).seq.taken = none ∧
      (s.spindles[i]).seq.inStaple = false ∧ (s.skeins[skeinOf i]).boardActive = true ∧ (s.skeins[skeinOf i]).take (laneOf i) = some (.own st, b)) ∧
    (∃ (s : State) (i : Spindle) (w : Word64) (st : Staple) (b : SkeinState), AtWord s i .next w 1 ∧ (s.spindles[i]).seq.taken = none ∧
      (s.spindles[i]).seq.inStaple = false ∧ (s.skeins[skeinOf i]).boardActive = true ∧ (s.skeins[skeinOf i]).take (laneOf i) = some (.stolen st, b)) ∧
    (∃ (s : State) (i : Spindle) (w : Word64), AtWord s i .next w 1 ∧ (s.spindles[i]).seq.taken = none ∧ (s.spindles[i]).seq.inStaple = false ∧
      (s.skeins[skeinOf i]).boardActive = true ∧ (s.skeins[skeinOf i]).take (laneOf i) = none) ∧
    (∃ (x : SkeinState) (l : Fin 8) (st : Staple) (rest : List Staple), x.excludedNow.getLsbD l.val = false ∧ x.slow.getLsbD l.val = false ∧
      x.returned = st :: rest ∧ (st.pinned = false ∨ st.owner = l)) ∧
    (∃ (x : SkeinState) (l : Fin 8) (st : Staple) (rest : List Staple), x.excludedNow.getLsbD l.val = false ∧ x.slow.getLsbD l.val = false ∧
      x.returned = [] ∧ x.list l = st :: rest) ∧
    (∃ (x : SkeinState) (l : Fin 8) (v : Fin 8) (st : Staple), x.excludedNow.getLsbD l.val = false ∧ x.slow.getLsbD l.val = false ∧ x.returned = [] ∧
      x.list l = [] ∧ x.victim l = some v ∧ (x.list v).getLast? = some st) ∧
    (∃ (x : SkeinState) (l : Fin 8) (st : Staple) (rest : List Staple), x.excludedNow.getLsbD l.val = false ∧ x.slow.getLsbD l.val = true ∧
      x.returned = [] ∧ x.list l = st :: rest) ∧
    (∃ (x : SkeinState) (l : Fin 8), x.excludedNow.getLsbD l.val = true) ∧
    (∃ (x : SkeinState) (l : Fin 8) (v : _) (u : Fin 8), x.victim l = some v ∧ u ≠ l ∧ ((∃ st, (x.list u).getLast? = some st ∧ st.pinned = false))) :=
  ⟨⟨sp5 (wd 1 4) id, 5, (wd 1 4), by decide⟩,
   ⟨sp5 (wd 1 4) id (win.modSk 0 (fun x => { x with boardActive := true, returned := [st1] })), 5, (wd 1 4), st1,
     { (win.skeins[(0 : Skein)]) with boardActive := true }, by decide⟩,
   ⟨sp5 (wd 1 4) id (win.modSk 0 (fun x => { x with boardActive := true, phases := [{ window := 0, lists := #v[[], [], [], [], [], [], [], [st1]] }] })),
     5, (wd 1 4), st1,
     { (win.skeins[(0 : Skein)]) with boardActive := true, phases := [{ window := 0, lists := #v[[], [], [], [], [], [], [], []] }] }, by decide⟩,
   ⟨sp5 (wd 1 4) id (win.modSk 0 (fun x => { x with boardActive := true })), 5, (wd 1 4), by decide⟩,
   ⟨{ returned := [st1] }, 5, st1, [], by decide⟩,
   ⟨{ phases := [{ window := 0, lists := #v[[], [], [], [], [], [st1], [], []] }] }, 5, st1, [], by decide⟩,
   ⟨{ phases := [{ window := 0, lists := #v[[], [], [], [], [], [], [], [st1]] }] }, 5, 7, st1, by decide⟩,
   ⟨{ slow := 32, phases := [{ window := 0, lists := #v[[], [], [], [], [], [st1], [], []] }] }, 5, st1, [], by decide⟩,
   ⟨{ excludedNow := 32 }, 5, by decide⟩,
   ⟨{ phases := [{ window := 0, lists := #v[[], [], [], [], [], [], [], [st1]] }] }, 5, 7, 7, by decide, by decide, ⟨st1, by decide, by decide⟩⟩⟩

/-- Hypotheses of SequencerWaitsAndPublishes. -/
theorem test_meets_sequencer_waits_and_publishes :
    (∃ (s : State) (i : Spindle) (w : Word64) (e : Nat), AtWord s i .none w 7 ∧ (s.spindles[i]).seq.taken = none ∧ wbits w 7 0 = e ∧ e ≤ 36 ∧
      (32 ≤ e ∨ ((s.spindles[i]).seq.inStaple = true ∧ ((s.skeins[skeinOf i]).ring e).wiring ≠ none)) ∧ s.eventCome i e = true) ∧
    (∃ (s : State) (i : Spindle) (w : Word64) (e : Nat), AtWord s i .none w 7 ∧ (s.spindles[i]).seq.taken = none ∧ wbits w 7 0 = e ∧ e ≤ 36 ∧
      (32 ≤ e ∨ ((s.spindles[i]).seq.inStaple = true ∧ ((s.skeins[skeinOf i]).ring e).wiring ≠ none)) ∧ s.eventCome i e = false) ∧
    (∃ (s : State) (i : Spindle) (e : Nat), (s.spindles[i]).seq.stall = .event e ∧ s.seqReady i (.event e) = true) ∧
    (∃ (s : State) (i : Spindle) (w : Word64), AtWord s i .none w 9 ∧ (s.spindles[i]).seq.taken = none ∧ (s.spindles[i]).seq.inStaple = true ∧
      s.nextPop i (wbits w 4 0) ≠ none) ∧
    (∃ (s : State) (i : Spindle) (r : Nat) (reg : Nat) (pos : Nat) (wi : RingWiring) (h : Word), r < 32 ∧ reg < 32 ∧
      (s.spindles[i]).seq.stall = .popWait r reg ∧ s.seqReady i (.popWait r reg) = true ∧ s.nextPop i r = some pos ∧
      ((s.skeins[skeinOf i]).ring r).wiring = some wi ∧ ((s.skeins[skeinOf i]).ring r).handleAt pos = some h ∧ wi.fits h = true) ∧
    (∃ (s : State) (i : Spindle) (w : Word64) (k : Skein) (wi : RingWiring) (pos : Nat), AtWord s i .none w 8 ∧ (s.spindles[i]).seq.taken = none ∧
      (s.spindles[i]).seq.inStaple = true ∧ s.pushRing (skeinOf i) (wbits w 4 0) = some k ∧ ((s.skeins[k]).ring (wbits w 4 0)).wiring = some wi ∧
      wi.fits ((s.spindles[i]).seq.h[wbits w 12 8 % 32]) = true ∧
      nthPos ((s.skeins[k]).ring (wbits w 4 0)).producers (s.spindles[i]).seq.stapleId ((s.spindles[i]).seq.pushes.filter (fun p => p.skein == k && p.ring == wbits w 4 0)).length = some pos) ∧
    (∃ (s : State) (i : Spindle), (s.spindles[i]).seq.stall = .send ∧ s.seqReady i .send = true ∧ (s.spindles[i]).passes = [] ∧
      (s.spindles[i]).armed = [] ∧ s.stapleDmaDone i = true ∧ (∀ p ∈ (s.spindles[i]).seq.pushes, s.pushSpace p = true)) :=
  ⟨⟨sp5 (wd 7 32) id, 5, wd 7 32, 32, by decide⟩,
   ⟨sp5 (wd 7 2) (fun x => { x with seq := { x.seq with inStaple := true, stapleId := 7 } }) (win.modSk 0 (fun x => x.modRing 2 (fun _ => ringOf (some { wire2 with preload := 0 }) [] [{ staple := 7, first := 0, count := 2 }]))),
     5, wd 7 2, 2, by decide⟩,
   ⟨sp5 (wd 7 32) (fun x => { x with seq := { x.seq with stall := .event 32 } }), 5, 32, by decide⟩,
   ⟨sp5 (wd 9 0x402) (fun x => { x with seq := { x.seq with inStaple := true, stapleId := 7 } }) (win.modSk 0 (fun x => x.modRing 2 (fun _ => ring2))),
     5, wd 9 0x402, by decide⟩,
   ⟨sp5 (wd 9 0x402) (fun x => { x with seq := { x.seq with inStaple := true, stapleId := 7, stall := .popWait 2 4 } }) (win.modSk 0 (fun x => x.modRing 2 (fun _ => ring2))),
     5, 2, 4, 0, wire2, 4096, by decide⟩,
   ⟨sp5 (wd 8 0x402) (fun x => { x with seq := { x.seq with inStaple := true, stapleId := 7, h := x.seq.h.set 4 4097 } }) (win.modSk 0 (fun x => x.modRing 2 (fun _ => ring2))),
     5, wd 8 0x402, 0, wire2, 1, by decide⟩,
   ⟨sp5 (wd 3) (fun x => { x with seq := { x.seq with inStaple := true, stapleId := 7, stall := .send, pushes := [{ skein := 0, ring := 2, pos := 1, handle := 4097 }] } }) (win.modSk 0 (fun x => x.modRing 2 (fun _ => ring2))),
     5, by decide⟩⟩

/-- Hypotheses of SequencerStartsWork. -/
theorem test_meets_sequencer_starts_work :
    (∃ (s : State) (i : Spindle) (w : Word64) (o : Nat) (d : PassDesc) (c : Option ChainDesc), (s.spindles[i]).seq.taken = none ∧
      AtWord s i .none w 4 ∧ (s.spindles[i]).descriptor w = (o, d, c) ∧ (s.spindles[i]).passes.length < 2 ∧ (s.spindles[i]).armed = [] ∧ (∀ ch ∈ c,
      ch.trigger = false) ∧ (s.spindles[i]).descOk i o d c = true) ∧
    (∃ (s : State) (i : Spindle) (w : Word64) (o : Nat) (pos : Nat) (d : PassDesc) (ch : ChainDesc), (s.spindles[i]).seq.taken = none ∧
      AtWord s i .none w 4 ∧ (s.spindles[i]).descriptor w = (o, d, some ch) ∧ ch.trigger = true ∧ (s.spindles[i]).armed.length < 4 ∧
      (s.spindles[i]).descOk i o d (some ch) = true ∧ s.nextPop i ch.trigRing = some pos) ∧
    (∃ (s : State) (i : Spindle) (w : Word64), (s.spindles[i]).seq.taken = none ∧ AtWord s i .none w 5 ∧ wbits w 15 13 = 0 ∧
      (s.spindles[i]).vec.running = false ∧ (s.spindles[i]).vec.barred = false) ∧
    (∃ (s : State) (i : Spindle) (w : Word64) (c : Fin 4), (s.spindles[i]).seq.taken = none ∧ AtWord s i .none w 6 ∧ wbits w 1 0 = c.val ∧
      wbits w 31 16 < (s.skeins[skeinOf i]).lists.length ∧ (s.flt.chanFn[chanOf (skeinOf i) c]).st = .on ∧
      (((s.skeins[skeinOf i]).channels[c]).run = none ∨ ((s.skeins[skeinOf i]).channels[c]).queued = none)) ∧
    (∃ (s : State) (i : Spindle) (w : Word64) (c : Fin 4), (s.spindles[i]).seq.taken = none ∧ AtWord s i .none w 6 ∧ wbits w 1 0 = c.val ∧
      wbits w 31 16 < (s.skeins[skeinOf i]).lists.length ∧ (s.flt.chanFn[chanOf (skeinOf i) c]).st ≠ .on) :=
  ⟨⟨sp5 (wd 4 0x10000) (fun x => { x with scratch := passBytes }), 5, (wd 4 0x10000), 0x10000, pd, none, by decide⟩,
   ⟨sp5 (wd 4 0x10000) (fun x => { x with scratch := armBytes, seq := { x.seq with inStaple := true, stapleId := 7 } }) (win.modSk 0 (fun x => x.modRing 2 (fun _ => ring2))),
     5, (wd 4 0x10000), 0x10000, 0, parsePass (armed1.scr 0x10000 64), ch1, by decide⟩,
   ⟨sp5 (wd 5 9) id, 5, wd 5 9, by decide⟩,
   ⟨sp5 (wd 6 1) id (win.modSk 0 (fun x => { x with lists := [(0, 1)] })), 5, wd 6 1, 1, by decide⟩,
   ⟨sp5 (wd 6 1) id { win.modSk 0 (fun x => { x with lists := [(0, 1)] }) with flt := { win.flt with chanFn := win.flt.chanFn.set (chanOf 0 1) { st := .draining } } },
     5, wd 6 1, 1, by decide⟩⟩

/-- Hypotheses of GridRunsPasses. -/
theorem test_meets_grid_runs_passes :
    (∃ (s : State) (i : Spindle) (p : Pass) (rest : _), Clocked s ∧ s.spDown i = false ∧
      (s.spindles[i]).passes.filter (fun q => q.startedAt.isNone) = p :: rest ∧ p.noLoad = false ∧ p.weights = none ∧ p.loadAt = none ∧
      p.issuedAt ≤ s.now ∧ ((∀ g ∈ (s.spindles[i]).inGrid, g.restartAt = none ∧ ∃ t ∈ g.startedAt, t + 10 ≤ s.now))) ∧
    (∃ (s : State) (i : Spindle) (p : Pass), Clocked s ∧ s.spDown i = false ∧ (s.spindles[i]).head = some p ∧ s.mayStart i p = true ∧ (∀ c ∈ p.chain,
      (s.spindles[i]).areasOk p.desc c = true)) ∧
    (∃ (s : State) (i : Spindle) (p : Pass) (rest : List Pass) (st : Time) (o : PassOut) (w : WeightSet), Clocked s ∧ s.spDown i = false ∧
      (s.spindles[i]).inGrid = p :: rest ∧ p.restartAt = none ∧ p.startedAt = some st ∧ st + 10 * p.desc.latency ≤ s.now ∧
      (s.spindles[i]).operandsBad p = false ∧ p.weights = some w ∧ (s.spindles[i]).runPass p.desc p.chain w s.seed = o ∧ o.record = none ∧
      o.rep = {} ∧ p.held = none) ∧
    (∃ (s : State) (i : Spindle) (p : Pass), Clocked s ∧ s.spDown i = false ∧ (s.spindles[i]).passes.find? (fun q => q.restartAt.isSome) = some p ∧
      (∀ at_ ∈ p.restartAt, at_ ≤ s.now)) ∧
    (∃ (d : PassDesc) (o : PassOut) (r : _), r < 4096 ∧ d.accRow + d.rows ≤ 4096 ∧ o.writes = []) ∧
    (∃ (x : SpindleState) (o : PassOut) (a : Nat) (w : Word), o.acc = [(a, w)] ∧ o.writes = [] ∧ x.sel.getLsbD (a / 128) = true) ∧
    (∃ (x : SpindleState) (o : PassOut) (a : Nat) (w : Word), o.acc = [(a, w)] ∧ o.writes = [] ∧ x.sel.getLsbD (a / 128) = false) :=
  ⟨⟨with5 (fun x => { x with passes := [mat1] }), 5, mat1, [], by decide⟩,
   ⟨with5 (fun x => { x with passes := [queued1] }), 5, queued1, by decide⟩,
   ⟨{ with5 (fun x => { x with passes := [pass1] }) with now := 10000 }, 5, pass1, [], 0,
     (({ passes := [pass1], seq := { runs := true, idle := false } } : SpindleState)).runPass pd none { shape := 3, cls := 0, addr := 0, block := [], scales := [] } 0,
     { shape := 3, cls := 0, addr := 0, block := [], scales := [] }, by decide⟩,
   ⟨with5 (fun x => { x with passes := [{ pass1 with restartAt := some 0 }] }), 5, { pass1 with restartAt := some 0 }, by decide⟩,
   ⟨{ accRow := 4095 }, { acc := [] }, 4095, by decide⟩,
   ⟨{ sel := 1 }, { acc := [(0, 1)], writes := [] }, 0, 1, by decide +kernel⟩,
   ⟨{}, { acc := [(0, 1)], writes := [] }, 0, 1, by decide +kernel⟩⟩

/-- Hypotheses of GridFaults. -/
theorem test_meets_grid_faults :
    (∃ (s : State) (i : Spindle) (before : List Pass) (after : List Pass) (p : Pass) (later : Bool), Clocked s ∧
      (s.spindles[i]).inGrid = before ++ p :: after ∧ before.length = (if later then 1 else 0) ∧ p ∉ before ∧ p.restartAt = none ∧
      p.restarts < (s.spindles[i]).retryLimit.toNat ∧ (s.spindles[i]).preemptPending ≠ some .abandon) ∧
    (∃ (s : State) (i : Spindle) (before : List Pass) (after : List Pass) (p : Pass) (later : Bool), Clocked s ∧
      (s.spindles[i]).inGrid = before ++ p :: after ∧ before.length = (if later then 1 else 0) ∧ p ∉ before ∧ p.restartAt = none ∧
      (s.spindles[i]).preemptPending = some .abandon) ∧
    (∃ (s : State) (i : Spindle) (before : List Pass) (after : List Pass) (p : Pass) (later : Bool), Clocked s ∧
      (s.spindles[i]).inGrid = before ++ p :: after ∧ before.length = (if later then 1 else 0) ∧ p ∉ before ∧ p.restartAt = none ∧
      (s.spindles[i]).retryLimit.toNat ≤ p.restarts ∧ (s.spindles[i]).preemptPending ≠ some .abandon ∧ s.stepOpen = true ∧ s.step.cause = 0) ∧
    (∃ (s : State) (i : Spindle) (before : List Pass) (after : List Pass) (p : Pass) (later : Bool), Clocked s ∧
      (s.spindles[i]).inGrid = before ++ p :: after ∧ before.length = (if later then 1 else 0) ∧ p ∉ before ∧ p.restartAt = none ∧ s.stepOpen = true ∧
      s.step.cause = 0) :=
  ⟨⟨with5 (fun x => { x with passes := [pass1, { pass1 with descAddr := 0x10040 }] }), 5, [pass1], [], { pass1 with descAddr := 0x10040 }, true,
     by decide +kernel⟩,
   ⟨with5 (fun x => { x with passes := [pass1], preemptPending := some .abandon }), 5, [], [], pass1, false, by decide⟩,
   ⟨with5 (fun x => { x with passes := [{ pass1 with restarts := 2 }] }), 5, [], [], { pass1 with restarts := 2 }, false, by decide +kernel⟩,
   ⟨with5 (fun x => { x with passes := [pass1, { pass1 with descAddr := 0x10040 }] }), 5, [pass1], [], { pass1 with descAddr := 0x10040 }, true,
     by decide +kernel⟩⟩

/-- Hypotheses of PreemptionAndTriggers. -/
theorem test_meets_preemption_and_triggers :
    (∃ (s : State) (i : Spindle), (s.spindles[i]).preemptPending = none ∧ (s.spindles[i]).preempted = false) ∧
    (∃ (s : State) (i : Spindle), Clocked s ∧ (s.spindles[i]).inGrid = [] ∧ (s.spindles[i]).takeAt ≤ s.now ∧
      (s.spindles[i]).preemptPending = some .resume) ∧
    (∃ (s : State) (i : Spindle), Clocked s ∧ (s.spindles[i]).inGrid = [] ∧ (s.spindles[i]).takeAt ≤ s.now ∧
      (s.spindles[i]).preemptPending = some .abandon ∧ s.listsStopping i = false) ∧
    (∃ (s : State) (i : Spindle), (s.spindles[i]).seq.inStaple = true ∧ (s.spindles[i]).seq.budget = 0 ∧ (s.spindles[i]).returning = none ∧
      s.step.phase = .window ∧ s.spDown i = false ∧ s.step.faulted = false ∧ s.step.aborted = false ∧ (s.spindles[i]).preemptPending = none ∧
      (s.skeins[skeinOf i]).faultedOnce.contains (s.spindles[i]).seq.stapleId = false) ∧
    (∃ (s : State) (i : Spindle), (s.spindles[i]).seq.inStaple = true ∧ (s.spindles[i]).seq.budget = 0 ∧ (s.spindles[i]).returning = none ∧
      s.step.phase = .window ∧ s.spDown i = false ∧ s.step.faulted = false ∧ s.step.aborted = false ∧
      (s.skeins[skeinOf i]).faultedOnce.contains (s.spindles[i]).seq.stapleId = true ∧ s.step.cause = 0) ∧
    (∃ (s : State) (i : Spindle) (st : Staple), Clocked s ∧ (s.spindles[i]).returning = some st ∧ (s.spindles[i]).preemptPending = some .abandon ∧
      (s.spindles[i]).stopReqAt + 43620 < s.now ∧ RungFree s (.spindle i) 1 ∧ (s.spindles[i]).power ≠ .failed ∧
      (s.rungEntries i).length < s.flt.repeatLimit.toNat) ∧
    (∃ (s : State) (i : Spindle) (st : Staple), Clocked s ∧ (s.spindles[i]).returning = some st ∧ (s.spindles[i]).preemptPending = some .abandon ∧
      s.now ≤ (s.spindles[i]).stopReqAt + 43620) ∧
    (∃ (s : State) (i : Spindle) (p : Pass) (rest : List Pass) (c : ChainDesc) (w : RingWiring) (h : Word) (d : PassDesc),
      (s.spindles[i]).armed = p :: rest ∧ p.chain = some c ∧ c.trigRing < 32 ∧ ((s.skeins[skeinOf i]).ring c.trigRing).wiring = some w ∧
      ((s.skeins[skeinOf i]).ring c.trigRing).handleAt p.wantPos = some h ∧ (s.spindles[i]).passes.length < 2 ∧
      (s.spindles[i]).preemptPending ≠ some .abandon ∧ s.spDown i = false ∧
      d = (if c.trigW then { p.desc with wAddr := w.bufferIn i (h.toNat % 4096) } else { p.desc with aAddr := w.bufferIn i (h.toNat % 4096) }) ∧
      (c.trigW = false → (d.m - 1) * d.aStride + d.rowBytes ≤ h.toNat / 4096 * 256) ∧ (c.trigW = true → d.shape = 3 →
      (d.m - 1) * d.wStride + d.rowBytes ≤ h.toNat / 4096 * 256) ∧ (c.trigW = true → d.shape ≠ 3 → 0x8000 ≤ h.toNat / 4096 * 256) ∧
      inScratch d.aRows = true ∧ inScratch d.wRows = true ∧ w.bufferIn i (h.toNat % 4096) % 256 = 0 ∧ (isIngest i = true ∨ (∀ g ∈ groupsOf d.aRows,
      g ∉ groupsOf d.wRows))) :=
  ⟨⟨with5 id, 5, by decide⟩,
   ⟨with5 (fun x => { x with preemptPending := some .resume }), 5, by decide⟩,
   ⟨with5 (fun x => { x with preemptPending := some .abandon, returning := some st1 }), 5, by decide +kernel⟩,
   ⟨with5 (fun x => { x with seq := { x.seq with inStaple := true, stapleId := 7 } }) (win.modSk 0 (fun x => { x with inProgress := [(5, st1)] })), 5,
     by decide⟩,
   ⟨with5 (fun x => { x with seq := { x.seq with inStaple := true, stapleId := 7 } }) (win.modSk 0 (fun x => { x with inProgress := [(5, st1)], faultedOnce := [7] })),
     5, by decide⟩,
   ⟨{ with5 (fun x => { x with preemptPending := some .abandon, returning := some st1 }) with now := 43621 }, 5, st1, by decide⟩,
   ⟨{ with5 (fun x => { x with preemptPending := some .abandon, returning := some st1 }) with now := 43620 }, 5, st1, by decide⟩,
   ⟨with5 (fun x => { x with armed := [{ queued1 with chain := some ch1 }] }) (win.modSk 0 (fun x => x.modRing 2 (fun _ => ringOf (some { wire2 with laneLocal := true, home := 5, bufferBase := 0x1000, preloadUnits := 2 }) [] []))),
     5, { queued1 with chain := some ch1 }, [], ch1, { wire2 with laneLocal := true, home := 5, bufferBase := 0x1000, preloadUnits := 2 }, 8192,
     { pd with aAddr := 0x1000 }, by decide⟩⟩

/-- Hypotheses of BoardsAndArbiters. -/
theorem test_meets_boards_and_arbiters :
    (∃ (s : State) (k : Skein) (at_ : Time), Clocked s ∧ (s.skeins[k]).completeAt = some at_ ∧ s.now < at_ + 40) ∧
    (∃ (s : State) (k : Skein) (at_ : Time), Clocked s ∧ (s.skeins[k]).completeAt = some at_ ∧ at_ + 40 ≤ s.now) ∧
    (∃ (s : State) (lanes : List Spindle) (k : Skein), Clocked s ∧ ((∃ i ∈ lanes, s.ringWaits i = true)) ∧ ((∀ i ∈ lanes,
      (s.spindles[i]).seq.atEnd = true ∨ s.ringWaits i = true)) ∧ (∀ i ∈ lanes, s.ringWaits i = true → (∀ w ∈ s.waitedOn i,
      s.closedBy lanes w = true) ∧ (s.spindles[i]).seq.waitSince + 10 * (s.skeins[skeinOf i]).limit.toNat < s.now) ∧ ((∃ i ∈ lanes, skeinOf i = k)) ∧
      (s.skeins[k]).stallEn = true ∧ s.stepOpen = true ∧ s.step.cause = 0) ∧
    (∃ (s : State), Clocked s) ∧
    (∃ (s : State), Clocked s) ∧
    (∃ (s : State) (u : State) (c : Ctl) (pc : Fin 64) (slot : Fin 64) (n : Nat) (req : BitVec 32), Clocked s ∧
      slot = (match c.tier with | .hbm => pc | .ddr => 0) ∧ n = (s.ctl c).slotNo[slot] + 1 ∧
      u = s.modCtl c (fun x => { x with slotNo := vmod x.slotNo slot (fun _ => n) }) ∧ (n % 25 ≠ 0 ∧
      (s.stepRuns = true ∨ s.migrating c = false) ∨ req.getLsbD 18 = false)) ∧
    (∃ (s : State) (u : State) (c : Ctl) (pc : Fin 64) (slot : Fin 64) (n : Nat) (req : BitVec 32), Clocked s ∧
      slot = (match c.tier with | .hbm => pc | .ddr => 0) ∧ n = (s.ctl c).slotNo[slot] + 1 ∧
      u = s.modCtl c (fun x => { x with slotNo := vmod x.slotNo slot (fun _ => n) }) ∧ (n % 25 = 0 ∨ s.stepRuns = false ∧ s.migrating c = true) ∧
      req.getLsbD 18 = true) ∧
    (∃ (a : Arbiter), (a.backoffEn.shadow ≠ none ∨ a.fairN.shadow ≠ none)) ∧
    (∃ (req : BitVec 32), req = 0) ∧
    (∃ (a : Arbiter) (req : BitVec 32) (w : Fin 32) (b : Arbiter) (i : Fin 32), a.grant req = (some w, b) ∧ i ≠ w) ∧
    (∃ (a : Arbiter) (req : BitVec 32) (w : Fin 32) (b : Arbiter) (i : Fin 32), a.grant req = (some w, b) ∧ (a.g + 1) % a.fairN.eff.toNat = 0 ∧
      req.getLsbD i.val = true) ∧
    (∃ (a : Arbiter) (req : BitVec 32) (w : Fin 32) (b : Arbiter) (i : Fin 32), a.grant req = (some w, b) ∧ (a.g + 1) % a.fairN.eff.toNat ≠ 0 ∧
      req.getLsbD i.val = true ∧ a.backoff[i] = 0) ∧
    (∃ (req : BitVec 32), req ≠ 0) :=
  ⟨⟨{ win.modSk 0 (fun x => { x with completeAt := some 0 }) with now := 39 }, 0, 0, by decide⟩,
   ⟨{ win.modSk 0 (fun x => { x with completeAt := some 0 }) with now := 40 }, 0, 0, by decide⟩,
   ⟨{ sp5 0 (fun x => { x with seq := { x.seq with inStaple := true, stapleId := 7, stall := .popWait 2 4 } }) (win.modSk 0 (fun x => { x.modRing 2 (fun _ => ringOf (some { wire2 with preload := 0 }) [{ staple := 7, first := 0, count := 2 }] [{ staple := 7, first := 0, count := 2 }]) with inProgress := [(5, st1)] })) with now := 163841 },
     [5], 0, by decide⟩,
   ⟨win, by decide⟩,
   ⟨win, by decide⟩,
   ⟨win, win.modCtl ⟨.hbm, 0⟩ (fun x => { x with slotNo := vmod x.slotNo 7 (fun _ => 1) }), ⟨.hbm, 0⟩, 7, 7, 1, 5, by decide +kernel,
     by decide +kernel, by decide +kernel, rfl, by decide +kernel⟩,
   ⟨win.modCtl ⟨.hbm, 0⟩ (fun x => { x with slotNo := vmod x.slotNo 7 (fun _ => 24) }), (win.modCtl ⟨.hbm,
     0⟩ (fun x => { x with slotNo := vmod x.slotNo 7 (fun _ => 24) })).modCtl ⟨.hbm, 0⟩ (fun x => { x with slotNo := vmod x.slotNo 7 (fun _ => 25) }),
     ⟨.hbm, 0⟩, 7, 7, 25, 0x40000, by decide +kernel, by decide +kernel, by decide +kernel, rfl, by decide +kernel, by decide +kernel⟩,
   ⟨{ fairN := { eff := 8, shadow := some 127 } }, by decide⟩,
   ⟨0, by decide⟩,
   ⟨({ fairN := { eff := 2 } } : Arbiter), 6, 1, (({ fairN := { eff := 2 } } : Arbiter).grant 6).2, 2, by decide⟩,
   ⟨{ fairN := { eff := 2 }, g := 1 }, 6, 1, (({ fairN := { eff := 2 }, g := 1 } : Arbiter).grant 6).2, 2, by decide⟩,
   ⟨({ fairN := { eff := 2 } } : Arbiter), 6, 1, (({ fairN := { eff := 2 } } : Arbiter).grant 6).2, 2, by decide⟩,
   ⟨1, by decide⟩⟩

/-- Hypotheses of WeftPackets. -/
theorem test_meets_weft_packets :
    (∃ (s : State) (u : State) (k : PacketKind) (src : Endpoint) (dst : Endpoint) (vc : BitVec 2) (p : Packet), s.arrive k src dst vc = some (p, u)) ∧
    (∃ (s : State) (u : State) (i : Spindle) (src : Endpoint) (dst : Endpoint) (vc : BitVec 2) (way : Transit) (p : Packet) (j : Spindle) (o : Nat),
      spindleAt dst = some i ∧ s.arrive .readReq src dst vc = some (p, u) ∧ u.spDown i = false ∧ u.decodeAddr p.addr = .spindle j o ∧ way.bad = false) ∧
    (∃ (s : State) (u : State) (i : Spindle) (src : Endpoint) (dst : Endpoint) (vc : BitVec 2) (way : Transit) (p : Packet) (j : Spindle) (o : Nat),
      spindleAt dst = some i ∧ s.arrive .readReq src dst vc = some (p, u) ∧ u.spDown i = false ∧ u.decodeAddr p.addr = .spindle j o ∧ way.bad = true ∧
      s.stepOpen = true ∧ s.step.cause = 0) ∧
    (∃ (s : State) (u : State) (i : Spindle) (src : Endpoint) (dst : Endpoint) (vc : BitVec 2) (way : Transit) (p : Packet) (j : Spindle) (o : Nat),
      spindleAt dst = some i ∧ s.arrive .write src dst vc = some (p, u) ∧ u.spDown i = false ∧ u.decodeAddr p.addr = .spindle j o ∧
      (u.spindles[i]).protects o p.data.length = false ∧ p.poison = false ∧ way.bad = false) ∧
    (∃ (s : State) (u : State) (i : Spindle) (src : Endpoint) (dst : Endpoint) (vc : BitVec 2) (way : Transit) (p : Packet) (j : Spindle) (o : Nat),
      spindleAt dst = some i ∧ s.arrive .write src dst vc = some (p, u) ∧ u.spDown i = false ∧ u.decodeAddr p.addr = .spindle j o ∧
      (u.spindles[i]).protects o p.data.length = false ∧ (p.poison = true ∨ way.bad = true) ∧ s.stepOpen = true ∧ s.step.cause = 0) ∧
    (∃ (dst : Endpoint), spindleAt dst = none) ∧
    (∃ (s : State) (u : State) (src : Endpoint) (dst : Endpoint) (vc : BitVec 2) (p : Packet), s.arrive .readResp src dst vc = some (p, u)) ∧
    (∃ (s : State) (u : State) (src : Endpoint) (dst : Endpoint) (vc : BitVec 2) (p : Packet), s.arrive .writeAck src dst vc = some (p, u)) ∧
    (∃ (s : State) (p : Packet) (e : Fin 16), p.owner = .fabric ∧ fabricAtEp p.dst = some e ∧
      ((s.fabric[p.dst.die]).eps[e]).outstanding.any (fun o => o.tag == BitVec.ofNat 12 p.tag) = true) :=
  ⟨⟨sent (pkt .write), none1 win, .write, dma1, toSp, 0, pkt .write, rfl⟩,
   ⟨sent (pkt .readReq), none1 win, 5, dma1, toSp, 0, { fixed := #v[3, 0, 0, 0] }, pkt .readReq, 5, 256, by decide +kernel, rfl, by decide +kernel,
     by decide +kernel, by decide +kernel⟩,
   ⟨sent (pkt .readReq), none1 win, 5, dma1, toSp, 0, { bad := true }, pkt .readReq, 5, 256, by decide, rfl, by decide, by decide, by decide,
     by decide, by decide⟩,
   ⟨sent (pkt .write), none1 win, 5, dma1, toSp, 0, {}, pkt .write, 5, 256, by decide +kernel, rfl, by decide +kernel, by decide +kernel,
     by decide +kernel, by decide +kernel, by decide +kernel⟩,
   ⟨sent (pkt .write), none1 win, 5, dma1, toSp, 0, { bad := true }, pkt .write, 5, 256, by decide, rfl, by decide, by decide, by decide, by decide,
     by decide, by decide⟩,
   ⟨dma1, by decide⟩,
   ⟨sent (pkt .readResp), none1 win, dma1, toSp, 0, pkt .readResp, rfl⟩,
   ⟨sent (pkt .writeAck), none1 win, dma1, toSp, 0, pkt .writeAck, rfl⟩,
   ⟨win.modFab 0 (fun f => { f with eps := vmod f.eps 3 (fun e => { e with outstanding := [{ tag := 9, write := false, addr := 0, bytes := 32 }] }) }),
     { pkt .readResp (fabEndpoint 0 3) with owner := .fabric }, 3, by decide⟩⟩

/-- Hypotheses of MulticastAndFences. -/
theorem test_meets_multicast_and_fences :
    (∃ (s : State) (u : State) (src : Endpoint) (p : Packet), Clocked s ∧ s.streams = [] ∧
      s.takePacket (fun q => q.kind == .mcast && q.src == src) = some (p, u) ∧ (if h : p.group < 64 then (s.dies[src.die]).mcast[p.group] else 0) = 0) ∧
    (∃ (s : State) (u : State) (src : Endpoint) (way : Transit) (p : Packet) (i : Spindle) (h : p.group < 64), Clocked s ∧ s.streams = [] ∧
      s.takePacket (fun q => q.kind == .mcast && q.src == src) = some (p, u) ∧ (s.dies[src.die]).mcast[p.group] = 1#128 <<< i.val ∧ (∀ e : Fin 4,
      .edge e ∈ dieRoute src.die (dieOf i) → (s.edges[e]).up = true) ∧ s.spDown i = false ∧ p.poison = false ∧ way.bad = false ∧ p.last = false ∧
      (s.spindles[i]).protects p.addr p.data.length = false) ∧
    (∃ (s : State) (src : Endpoint) (stream : BitVec 8) (b : McOut) (st : McStream) (at_ : Time), Clocked s ∧
      s.streams.find? (fun x => x.src == src && x.stream == stream.toNat) = some st ∧ (st.branch b).since = some at_ ∧ s.now < at_ + 5120) ∧
    (∃ (s : State) (src : Endpoint) (stream : BitVec 8) (b : McOut) (st : McStream) (at_ : Time), Clocked s ∧
      s.streams.find? (fun x => x.src == src && x.stream == stream.toNat) = some st ∧ (st.branch b).since = some at_ ∧ at_ + 5120 ≤ s.now ∧
      s.stepOpen = true ∧ s.step.cause = 0) ∧
    (∃ (s : State) (d : Die) (e : Fin 16), (s.dies[d]).basez.getLsbD e.val = true ∧ (s.dies[d]).fenced.getLsbD e.val = false ∧
      (s.dies[d]).draining.getLsbD e.val = false) ∧
    (∃ (s : State) (d : Die) (e : Fin 16), Clocked s ∧ (s.dies[d]).draining.getLsbD e.val = true ∧ ((s.fabric[d]).eps[e]).inFlight = [] ∧
      ((s.fabric[d]).eps[e]).outstanding = [] ∧ (s.dies[d]).releaseHeld.getLsbD e.val = false ∧ ((s.fabric[d]).regions[e]).switching = none) ∧
    (∃ (s : State) (d : Die) (e : Fin 16), Clocked s ∧ (s.dies[d]).draining.getLsbD e.val = true ∧
      (s.dies[d]).fenceAt[e] + 10 * (s.dies[d]).fenceLimit.toNat < s.now ∧ (s.dies[d]).releaseHeld.getLsbD e.val = false ∧
      ((s.fabric[d]).regions[e]).switching = none) ∧
    (∃ (s : State) (d : Die) (e : Fin 16), (s.dies[d]).draining.getLsbD e.val = false ∧ (s.dies[d]).fenced.getLsbD e.val = true) ∧
    (∃ (s : State) (d : Die) (e : Fin 16), (s.dies[d]).draining.getLsbD e.val = true) :=
  ⟨⟨sent ({ (pkt .mcast toSp 256) with group := 1, stream := 2 }), none1 win, dma1, { (pkt .mcast toSp 256) with group := 1, stream := 2 }, by decide,
     by decide, rfl, by decide⟩,
   ⟨sent ({ (pkt .mcast toSp 256) with group := 1, stream := 2 }) (win.modDie dma1.die (fun x => { x with mcast := x.mcast.set 1 (1#128 <<< 5) })),
     none1 (win.modDie dma1.die (fun x => { x with mcast := x.mcast.set 1 (1#128 <<< 5) })), dma1, {},
     { (pkt .mcast toSp 256) with group := 1, stream := 2 }, 5, (by decide), by decide +kernel, by decide +kernel, rfl, by decide +kernel,
     by decide +kernel, by decide +kernel, by decide +kernel, by decide +kernel, by decide +kernel, by decide +kernel⟩,
   ⟨{ (win.modDie dma1.die (fun x => { x with mcast := x.mcast.set 1 (1#128 <<< 6) })) with streams := [{ src := dma1, stream := 2, group := 1, ring := 0, branches := [{ out := .column 0 3, skid := [{ (pkt .mcast toSp 256) with group := 1, stream := 2 }], since := some 0 }] }], now := 5119 },
     dma1, 2, .column 0 3,
     { src := dma1, stream := 2, group := 1, ring := 0, branches := [{ out := .column 0 3, skid := [{ (pkt .mcast toSp 256) with group := 1, stream := 2 }], since := some 0 }] },
     0, by decide +kernel⟩,
   ⟨{ (win.modDie dma1.die (fun x => { x with mcast := x.mcast.set 1 (1#128 <<< 6) })) with streams := [{ src := dma1, stream := 2, group := 1, ring := 0, branches := [{ out := .column 0 3, skid := [{ (pkt .mcast toSp 256) with group := 1, stream := 2 }], since := some 0 }] }], now := 5120 },
     dma1, 2, .column 0 3,
     { src := dma1, stream := 2, group := 1, ring := 0, branches := [{ out := .column 0 3, skid := [{ (pkt .mcast toSp 256) with group := 1, stream := 2 }], since := some 0 }] },
     0, by decide +kernel⟩,
   ⟨win.modDie 0 (fun x => { x with basez := 0x8000 }), 0, 15, by decide⟩,
   ⟨win.modDie 0 (fun x => { x with basez := 0x8000, draining := 0x8000 }), 0, 15, by decide⟩,
   ⟨{ (win.modDie 0 (fun x => { x with basez := 0x8000, draining := 0x8000 })).modFab 0 (fun f => { f with eps := vmod f.eps 15 (fun e => { e with inFlight := [{ pkt := pkt .readReq (fabEndpoint 0 15), since := 0 }] }) }) with now := 20481 },
     0, 15, by decide⟩,
   ⟨win.modDie 0 (fun x => { x with basez := 0x8000, fenced := 0x8000 }), 0, 15, by decide⟩,
   ⟨win.modDie 0 (fun x => { x with basez := 0x8000, draining := 0x8000 }), 0, 15, by decide⟩⟩

/-- Hypotheses of CreelCommands. -/
theorem test_meets_creel_commands :
    (∃ (s : State) (u : State) (src : Endpoint) (dst : Endpoint) (vc : BitVec 2) (p : Packet) (x : Fin 8), sliceAt dst = some x ∧
      s.arrive .readReq src dst vc = some (p, u) ∧
      ((s.dies[dst.die]).creelEn = false ∨ (s.dies[dst.die]).emptying ≠ none ∨ s.creelClass dst.die p.addr = 0)) ∧
    (∃ (s : State) (u : State) (src : Endpoint) (dst : Endpoint) (vc : BitVec 2) (p : Packet) (x : Fin 8) (n : Nat) (l : CreelLine) (ecc : Ecc),
      sliceAt dst = some x ∧ s.arrive .readReq src dst vc = some (p, u) ∧ (s.dies[dst.die]).creelEn = true ∧ (s.dies[dst.die]).emptying = none ∧
      s.creelClass dst.die p.addr ≠ 0 ∧ linesOf p.addr p.bytes = [n] ∧
      ((s.dies[dst.die]).slices[homeSlice n]).lines.find? (fun y => y.n == n) = some l ∧ ecc ≠ .uncorrectable) ∧
    (∃ (s : State) (u : State) (src : Endpoint) (dst : Endpoint) (vc : BitVec 2) (p : Packet) (x : Fin 8) (n : Nat) (l : CreelLine),
      sliceAt dst = some x ∧ s.arrive .readReq src dst vc = some (p, u) ∧ (s.dies[dst.die]).creelEn = true ∧ (s.dies[dst.die]).emptying = none ∧
      s.creelClass dst.die p.addr ≠ 0 ∧ linesOf p.addr p.bytes = [n] ∧
      ((s.dies[dst.die]).slices[homeSlice n]).lines.find? (fun y => y.n == n) = some l ∧
      ((s.dies[dst.die]).slices[homeSlice n]).fetches.find? (fun f => f.n == n && !f.stale) = none ∧
      ((s.dies[dst.die]).slices[homeSlice n]).fetches.length < 64) ∧
    (∃ (s : State) (u : State) (src : Endpoint) (dst : Endpoint) (vc : BitVec 2) (p : Packet) (x : Fin 8) (n : Nat), sliceAt dst = some x ∧
      s.arrive .readReq src dst vc = some (p, u) ∧ (s.dies[dst.die]).creelEn = true ∧ (s.dies[dst.die]).emptying = none ∧
      s.creelClass dst.die p.addr ≠ 0 ∧ linesOf p.addr p.bytes = [n] ∧
      ((s.dies[dst.die]).slices[homeSlice n]).lines.find? (fun y => y.n == n) = none ∧
      ((s.dies[dst.die]).slices[homeSlice n]).fetches.find? (fun f => f.n == n && !f.stale) = none ∧
      ((s.dies[dst.die]).slices[homeSlice n]).fetches.length < 64) ∧
    (∃ (s : State) (u : State) (src : Endpoint) (dst : Endpoint) (p : Packet) (x : Fin 8) (f : CreelFetch) (rest : List CreelFetch),
      sliceAt dst = some x ∧ s.takePacket (fun q => q.kind == .readResp && q.src == src && q.dst == dst) = some (p, u) ∧
      takeFirst (fun (f : CreelFetch) => f.id == p.tag) ((s.dies[dst.die]).slices[x]).fetches = some (f, rest) ∧ f.allocate = true ∧ f.stale = false ∧
      p.status = 0 ∧ p.poison = false ∧ (∀ l ∈ ((s.dies[dst.die]).slices[x]).lines, l.n ≠ f.n)) ∧
    (∃ (s : State) (u : State) (src : Endpoint) (dst : Endpoint) (p : Packet) (x : Fin 8) (c : Ctl), sliceAt dst = some x ∧ ctlAt src = some c ∧
      s.arrive .inval src dst 1 = some (p, u)) ∧
    (∃ (s : State), Clocked s) :=
  ⟨⟨sent (pkt .readReq slice0), none1 win, dma1, slice0, 0, pkt .readReq slice0, homeSlice 0x10000, by decide, rfl, by decide⟩,
   ⟨sent (pkt .readReq slice0 0x1000000) (creeled (fun x => { x with slices := vmod x.slices (homeSlice 0x10000) (fun y => { y with lines := [{ n := 0x10000, way := 3, data := [1, 2, 3] }] }) })),
     none1 (creeled (fun x => { x with slices := vmod x.slices (homeSlice 0x10000) (fun y => { y with lines := [{ n := 0x10000, way := 3, data := [1, 2, 3] }] }) })),
     dma1, slice0, 0, (pkt .readReq slice0 0x1000000), homeSlice 0x10000, 0x10000, { n := 0x10000, way := 3, data := [1, 2, 3] }, .corrected,
     by decide +kernel, rfl, by decide +kernel, by decide +kernel, by decide +kernel, by decide +kernel, by decide +kernel, by decide +kernel⟩,
   ⟨sent (pkt .readReq slice0 0x1000000) (creeled (fun x => { x with slices := vmod x.slices (homeSlice 0x10000) (fun y => { y with lines := [{ n := 0x10000, way := 3, data := [1, 2, 3] }] }) })),
     none1 (creeled (fun x => { x with slices := vmod x.slices (homeSlice 0x10000) (fun y => { y with lines := [{ n := 0x10000, way := 3, data := [1, 2, 3] }] }) })),
     dma1, slice0, 0, (pkt .readReq slice0 0x1000000), homeSlice 0x10000, 0x10000, { n := 0x10000, way := 3, data := [1, 2, 3] }, by decide, rfl,
     by decide, by decide, by decide, by decide, by decide, by decide, by decide⟩,
   ⟨sent (pkt .readReq slice0 0x1000000) (creeled (fun x => x)), none1 (creeled (fun x => x)), dma1, slice0, 0, (pkt .readReq slice0 0x1000000),
     homeSlice 0x10000, 0x10000, by decide, rfl, by decide, by decide, by decide, by decide, by decide, by decide, by decide⟩,
   ⟨sent (pkt .readResp slice0) (creeled (fun x => { x with slices := vmod x.slices (homeSlice 0x10000) (fun y => { y with fetches := [{ n := 0x10000, id := 9, allocate := true }] }) })),
     none1 (creeled (fun x => { x with slices := vmod x.slices (homeSlice 0x10000) (fun y => { y with fetches := [{ n := 0x10000, id := 9, allocate := true }] }) })),
     dma1, slice0, pkt .readResp slice0, homeSlice 0x10000, { n := 0x10000, id := 9, allocate := true }, [], by decide, rfl, by decide, by decide,
     by decide, by decide, by decide, by decide⟩,
   ⟨sent { (pkt .inval slice0 0x1000000) with vc := 1, src := ctlEndpoint ⟨.hbm, 0⟩ } (win.modCtl ⟨.hbm,
     0⟩ (fun x => { x with owed := [{ id := 9, left := 1, ack := pkt .writeAck }] })), none1 (win.modCtl ⟨.hbm,
     0⟩ (fun x => { x with owed := [{ id := 9, left := 1, ack := pkt .writeAck }] })), ctlEndpoint ⟨.hbm, 0⟩, slice0,
     { (pkt .inval slice0 0x1000000) with vc := 1, src := ctlEndpoint ⟨.hbm, 0⟩ }, homeSlice 0x10000, (⟨.hbm, 0⟩ : Ctl), by decide +kernel,
     by decide +kernel, rfl⟩,
   ⟨win, by decide⟩⟩

/-- Hypotheses of MemoryAccesses. -/
theorem test_meets_memory_accesses :
    (∃ (s : State) (u : State) (src : Endpoint) (dst : Endpoint) (vc : BitVec 2) (p : Packet) (c : Ctl) (pc : Nat) (loc : Nat) (r : Fin 4) (q : MemReq),
      ctlAt dst = some c ∧ s.ctlPlace c p.addr = some (pc, r, loc) ∧ s.placeStatus c pc r = 0 ∧
      q = { pkt := p, r := r, pc := queueOf c.tier pc p.addr, arrived := s.now } ∧ s.arrive .readReq src dst vc = some (p, u)) ∧
    (∃ (s : State) (u : State) (src : Endpoint) (dst : Endpoint) (vc : BitVec 2) (p : Packet) (c : Ctl) (pc : Nat) (loc : Nat) (r : Fin 4) (q : MemReq),
      ctlAt dst = some c ∧ s.ctlPlace c p.addr = some (pc, r, loc) ∧ s.placeStatus c pc r = 0 ∧
      q = { pkt := p, r := r, pc := queueOf c.tier pc p.addr, arrived := s.now } ∧ s.arrive .write src dst vc = some (p, u) ∧ Canonical s ∧
      s.waitsCopy q = none ∧ behindWrite (s.ctl c).queue q = false ∧ s.rankState c.tier (s.server c.tier ⟨c.n, r⟩) ≠ 4) ∧
    (∃ (s : State) (u : State) (src : Endpoint) (dst : Endpoint) (vc : BitVec 2) (p : Packet) (c : Ctl) (pc : Nat) (loc : Nat) (r : Fin 4) (q : MemReq),
      ctlAt dst = some c ∧ s.ctlPlace c p.addr = some (pc, r, loc) ∧ s.placeStatus c pc r = 0 ∧
      q = { pkt := p, r := r, pc := queueOf c.tier pc p.addr, arrived := s.now } ∧ s.arrive .write src dst vc = some (p, u) ∧
      (s.waitsCopy q ≠ none ∨ behindWrite (s.ctl c).queue q = true)) ∧
    (∃ (s : State) (u : State) (src : Endpoint) (dst : Endpoint) (vc : BitVec 2) (p : Packet) (c : Ctl) (pc : Nat) (loc : Nat) (r : Fin 4) (q : MemReq),
      ctlAt dst = some c ∧ s.ctlPlace c p.addr = some (pc, r, loc) ∧ s.placeStatus c pc r = 0 ∧
      q = { pkt := p, r := r, pc := queueOf c.tier pc p.addr, arrived := s.now } ∧ s.arrive .write src dst vc = some (p, u) ∧ s.waitsCopy q = none ∧
      behindWrite (s.ctl c).queue q = false ∧ s.rankState c.tier (s.server c.tier ⟨c.n, r⟩) = 4) ∧
    (∃ (s : State) (c : Ctl) (g : Ctl) (i : Nat) (q : MemReq), Clocked s ∧ (s.ctl c).queue[i]? = some q ∧ g = ⟨c.tier, (s.server c.tier ⟨c.n,
      q.r⟩).n⟩ ∧ q.pkt.kind = .readReq ∧ s.waitsCopy q = none ∧ behindWrite ((s.ctl c).queue.take i) q = false ∧ s.awake c q = true) ∧
    (∃ (s : State) (c : Ctl) (g : Ctl) (i : Nat) (q : MemReq) (at_ : Time), Clocked s ∧ (s.ctl c).queue[i]? = some q ∧ g = ⟨c.tier,
      (s.server c.tier ⟨c.n, q.r⟩).n⟩ ∧ s.waitsCopy q = some at_ ∧ s.now ≤ at_ + 10240) ∧
    (∃ (s : State) (c : Ctl) (g : Ctl) (i : Nat) (q : MemReq) (at_ : Time), Clocked s ∧ (s.ctl c).queue[i]? = some q ∧ g = ⟨c.tier,
      (s.server c.tier ⟨c.n, q.r⟩).n⟩ ∧ s.waitsCopy q = some at_ ∧ at_ + 10240 < s.now) :=
  ⟨⟨sent (toMem .readReq) mem0, none1 mem0, dma1, ctlEndpoint H0, 0, toMem .readReq, H0, 2, 0, 0,
     { pkt := toMem .readReq, r := 0, pc := 2, arrived := 0 }, by decide +kernel, by decide +kernel, by decide +kernel, by decide +kernel, rfl⟩,
   ⟨sent (toMem .write) mem0, none1 mem0, dma1, ctlEndpoint H0, 0, toMem .write, H0, 2, 0, 0, { pkt := toMem .write, r := 0, pc := 2, arrived := 0 },
     by decide +kernel, by decide +kernel, by decide +kernel, by decide +kernel, rfl, by decide +kernel, by decide +kernel, by decide +kernel,
     by decide +kernel⟩,
   ⟨sent (toMem .write) (mem0 (fun x => { x with queue := [{ pkt := toMem .write, r := 0, pc := 2, arrived := 0 }] })),
     none1 (mem0 (fun x => { x with queue := [{ pkt := toMem .write, r := 0, pc := 2, arrived := 0 }] })), dma1, ctlEndpoint H0, 0, toMem .write, H0,
     2, 0, 0, { pkt := toMem .write, r := 0, pc := 2, arrived := 0 }, by decide, by decide, by decide, by decide, rfl, by decide⟩,
   ⟨sent (toMem .write) (mem0 (fun x => { x with rank := #v[4, 1, 1, 1] })), none1 (mem0 (fun x => { x with rank := #v[4, 1, 1, 1] })), dma1,
     ctlEndpoint H0, 0, toMem .write, H0, 2, 0, 0, { pkt := toMem .write, r := 0, pc := 2, arrived := 0 }, by decide +kernel, by decide +kernel,
     by decide +kernel, by decide +kernel, rfl, by decide +kernel, by decide +kernel, by decide +kernel⟩,
   ⟨(mem0 (fun x => { x with queue := [rd1] })), H0, H0, 0, rd1, by decide +kernel⟩,
   ⟨{ (migrating1 { mig1 with lines := 3, since := (Vector.replicate 64 none).set 2 (some 0) } (mem0 (fun x => { x with queue := [rd1] }))) with now := 10240 },
     H0, H0, 0, rd1, 0, by decide +kernel⟩,
   ⟨{ (migrating1 { mig1 with lines := 3, since := (Vector.replicate 64 none).set 2 (some 0) } (mem0 (fun x => { x with queue := [rd1] }))) with now := 10241 },
     H0, H0, 0, rd1, 0, by decide +kernel⟩⟩

/-- Hypotheses of MemoryUpkeep. -/
theorem test_meets_memory_upkeep :
    (∃ (s : State) (c : Ctl) (pc : Fin 64), Clocked s ∧ (s.ctl c).inSr.getLsbD pc.val = false) ∧
    (∃ (s : State) (c : Ctl) (pc : Fin 64), Clocked s ∧ c.tier = .hbm ∧ s.idleEligible c pc.val = true ∧ (s.ctl c).srEn = true ∧
      (s.ctl c).idleClocks.toNat * s.clockPeriod c ≤ 1000 * (s.now - (s.ctl c).lastCmd[pc])) ∧
    (∃ (s : State) (c : Ctl) (pc : Fin 64), Clocked s ∧ c.tier = .ddr ∧ s.idleEligible c pc.val = true ∧ (s.ctl c).srEn = true ∧
      (s.ctl c).idleClocks.toNat * s.clockPeriod c ≤ 1000 * (s.now - (s.ctl c).lastCmd[0])) ∧
    (∃ (s : State) (c : Ctl) (pc : Fin 64), Clocked s ∧ c.tier = .hbm ∧ (s.ctl c).inSr.getLsbD pc.val = true) ∧
    (∃ (s : State) (c : Ctl), Clocked s ∧ c.tier = .ddr ∧ (s.ctl c).inSr.getLsbD 0 = true) ∧
    (∃ (s : State) (c : Ctl) (rank : Fin 4) (pc : Fin 64) (line : Nat) (u : State), Clocked s ∧ line < s.rankLines c.tier c.n ∧
      srIndex c.tier pc.val = pc ∧ u = (s.wake c pc.val).cmdDone c pc.val ∧ scrubbed (s.rankState c.tier ⟨c.n, rank⟩) = true ∧
      s.lastScrubbed c rank pc.val line = false) ∧
    (∃ (s : State) (c : Ctl) (rank : Fin 4) (pc : Fin 64) (line : Nat) (u : State) (a : Nat), Clocked s ∧ line < s.rankLines c.tier c.n ∧
      srIndex c.tier pc.val = pc ∧ u = (s.wake c pc.val).cmdDone c pc.val ∧ s.rankState c.tier ⟨c.n, rank⟩ = 0 ∧ s.physAddr c.tier ⟨c.n,
      rank⟩ pc.val (256 * line) = some a) ∧
    (∃ (s : State) (c : Ctl) (rank : Fin 4) (pc : Fin 64) (line : Nat) (u : State), Clocked s ∧ line < s.rankLines c.tier c.n ∧
      srIndex c.tier pc.val = pc ∧ u = (s.wake c pc.val).cmdDone c pc.val ∧ s.rankState c.tier ⟨c.n, rank⟩ = 1 ∧ (∀ w ∈ (s.tier c.tier).waiting,
      w.1 ≠ ⟨c.n, rank⟩)) ∧
    (∃ (s : State) (c : Ctl), Clocked s ∧ (s.ctl c).retry = none) ∧
    (∃ (s : State) (c : Ctl) (rank : Fin 4) (pc : Fin 64), Clocked s ∧ (s.ctl c).retry = some { r := rank, pc := pc.val, tries := 2 } ∧
      (s.ctl c).code = 0) ∧
    (∃ (s : State) (t : Tier) (n : Fin 12) (r : Fin 4) (y : RankId), s.rankState t ⟨n, r⟩ = 0 ∧ (s.tier t).waiting.any (fun w => w.1 == ⟨n,
      r⟩) = false ∧ s.pickSpare t ⟨n, r⟩ = some y) ∧
    (∃ (s : State) (t : Tier) (n : Fin 12) (r : Fin 4), s.rankState t ⟨n, r⟩ = 0 ∧ (s.tier t).waiting.any (fun w => w.1 == ⟨n, r⟩) = false ∧
      s.pickSpare t ⟨n, r⟩ = none) ∧
    (∃ (s : State) (t : Tier) (x : RankId) (y : RankId), Clocked s ∧ (s.tier t).mig = none ∧ (s.tier t).waiting.find? (fun w => w.2.isSome) = some (x,
      some y) ∧ x ≠ y) ∧
    (∃ (s : State) (t : Tier) (m : Migration) (pc : Fin 64), Clocked s ∧ (s.tier t).mig = some m ∧ m.line[pc] < m.lines ∧ srIndex t pc.val = pc ∧
      (∀ a ∈ s.physAddr t m.src pc.val (256 * m.line[pc]), a / 256 ∉ s.poison)) ∧
    (∃ (s : State) (t : Tier) (m : Migration) (pc : Fin 64) (a : Nat), Clocked s ∧ (s.tier t).mig = some m ∧ m.line[pc] < m.lines ∧
      srIndex t pc.val = pc ∧ s.physAddr t m.src pc.val (256 * m.line[pc]) = some a ∧ (∀ n : Fin 12, (s.ctl ⟨t, n⟩).queue = [])) ∧
    (∃ (s : State) (t : Tier) (m : Migration) (pc : Fin 64), Clocked s ∧ (s.tier t).mig = some m ∧ m.line[pc] < m.lines ∧ srIndex t pc.val = pc ∧
      m.src ≠ m.tgt) ∧
    (∃ (s : State) (t : Tier) (m : Migration), Clocked s ∧ (s.tier t).mig = some m ∧ (∀ i : Fin 64, srIndex t i.val = i → m.lines ≤ m.line[i]) ∧
      (s.tier t).poolPending = false ∧ m.src ≠ m.tgt) :=
  ⟨⟨win, H0, 63, by decide⟩,
   ⟨eligible 3 win, H0, 3, by decide⟩,
   ⟨eligible 768 win, D0, 3, by decide⟩,
   ⟨win.modCtl H0 (fun x => { x with inSr := 8 }), H0, 3, by decide⟩,
   ⟨win.modCtl D0 (fun x => { x with inSr := 1 }), D0, by decide⟩,
   ⟨mem0, H0, 0, 2, 0, (mem0.wake H0 2).cmdDone H0 2, by decide +kernel, by decide +kernel, by decide +kernel, rfl, by decide +kernel,
     by decide +kernel⟩,
   ⟨mem0, H0, 0, 2, 0, (mem0.wake H0 2).cmdDone H0 2, 512, by decide +kernel, by decide +kernel, by decide +kernel, rfl, by decide +kernel,
     by decide +kernel⟩,
   ⟨mem0, H0, 1, 2, 0, (mem0.wake H0 2).cmdDone H0 2, by decide +kernel, by decide +kernel, by decide +kernel, rfl, by decide +kernel,
     by decide +kernel⟩,
   ⟨win, H0, by decide⟩,
   ⟨win.modCtl H0 (fun x => { x with retry := some { r := 3, pc := 63, tries := 2 } }), H0, 3, 63, by decide⟩,
   ⟨mem0, .hbm, 0, 0, ⟨0, 1⟩, by decide⟩,
   ⟨mem0 (fun x => { x with rank := #v[0, 6, 6, 6] }), .hbm, 0, 0, by decide⟩,
   ⟨mem0.modTier .hbm (fun t => { t with waiting := [(⟨0, 0⟩, some ⟨0, 1⟩)] }), .hbm, ⟨0, 0⟩, ⟨0, 1⟩, by decide⟩,
   ⟨migrating1 mig1 mem0, .hbm, mig1, 2, by decide +kernel⟩,
   ⟨migrating1 mig1 mem0, .hbm, mig1, 2, 512, by decide +kernel⟩,
   ⟨migrating1 mig1 mem0, .hbm, mig1, 2, by decide⟩,
   ⟨migrating1 { mig1 with line := Vector.replicate 64 1 } mem0, .hbm, { mig1 with line := Vector.replicate 64 1 }, by decide +kernel⟩⟩

/-- Hypotheses of DmaCommands. -/
theorem test_meets_dma_commands :
    (∃ (s : State) (c : Chan) (r : DmaRun) (d : DmaDesc) (data : List Byte) (a : Nat) (e : Endpoint), Clocked s ∧ (s.chan c).run = some r ∧
      (s.chan c).halted = false ∧ (s.chan c).halting = false ∧ (s.chan c).doneAt = none ∧ (s.chan c).failing = none ∧ r.acceptedAt + 40 ≤ s.now ∧
      ((s.chan c).disable = false ∨ r.atBoundary = false) ∧ (s.skeins[chanSkein c]).runDesc r = some d ∧ (d.pop = false ∨ r.popped ≠ none) ∧
      d.kind ≠ 3 ∧ d.kind ≠ 4 ∧ r.wUnit < d.units ∧ ((s.chan c).stopping = false ∨ r.wUnit < (s.chan c).stopAt) ∧ (s.chan c).writes.length < 64 ∧
      r.writeData d r.wUnit r.wPiece = some data ∧
      s.resolve (r.spindle (chanSkein c)) d.dstSpace d.dstRegion (d.writeAddr ((r.index d r.wUnit).getD 0) r.wUnit r.wPiece) data.length = some a ∧
      s.granted true d.dstSpace a data.length = true ∧ (s.decodeAddr a).endpoint = some e) ∧
    (∃ (s : State) (c : Chan) (r : DmaRun) (d : DmaDesc) (a : Nat) (e : Endpoint), Clocked s ∧ (s.chan c).run = some r ∧ (s.chan c).halted = false ∧
      (s.chan c).halting = false ∧ (s.chan c).doneAt = none ∧ (s.chan c).failing = none ∧ r.acceptedAt + 40 ≤ s.now ∧
      ((s.chan c).disable = false ∨ r.atBoundary = false) ∧ (s.skeins[chanSkein c]).runDesc r = some d ∧ (d.pop = false ∨ r.popped ≠ none) ∧
      r.unit < d.units ∧ ((s.chan c).stopping = false ∨ r.unit < (s.chan c).stopAt) ∧
      ((¬ r.wUnit < d.units) ∨ 64 ≤ (s.chan c).writes.length ∨ r.writeData d r.wUnit r.wPiece = none) ∧
      (s.dies[dieOfSkein (chanSkein c)]).creelEn = false ∧ (d.kind = 0 ∨ d.kind = 1) ∧
      ((s.chan c).reads.filter (fun q => q.use != .index)).length < 64 ∧
      s.resolve (r.spindle (chanSkein c)) d.srcSpace d.srcRegion (d.readAddr ((r.index d (d.elemAt r.unit r.elem)).getD 0) r.unit r.piece) (d.pieceLen r.piece) = some a ∧
      s.granted false d.srcSpace a (d.pieceLen r.piece) = true ∧ (s.decodeAddr a).endpoint = some e) ∧
    (∃ (s : State) (c : Chan) (r : DmaRun) (d : DmaDesc) (a : Nat), Clocked s ∧ (s.chan c).run = some r ∧ (s.chan c).halted = false ∧
      (s.chan c).halting = false ∧ (s.chan c).doneAt = none ∧ (s.chan c).failing = none ∧ r.acceptedAt + 40 ≤ s.now ∧
      ((s.chan c).disable = false ∨ r.atBoundary = false) ∧ (s.skeins[chanSkein c]).runDesc r = some d ∧ (d.pop = false ∨ r.popped ≠ none) ∧
      r.unit < d.units ∧ ((s.chan c).stopping = false ∨ r.unit < (s.chan c).stopAt) ∧
      ((¬ r.wUnit < d.units) ∨ 64 ≤ (s.chan c).writes.length ∨ r.writeData d r.wUnit r.wPiece = none) ∧
      (s.dies[dieOfSkein (chanSkein c)]).creelEn = false ∧ (d.kind = 0 ∨ d.kind = 1) ∧
      ((s.chan c).reads.filter (fun q => q.use != .index)).length < 64 ∧
      s.resolve (r.spindle (chanSkein c)) d.srcSpace d.srcRegion (d.readAddr ((r.index d (d.elemAt r.unit r.elem)).getD 0) r.unit r.piece) (d.pieceLen r.piece) = some a ∧
      s.granted false d.srcSpace a (d.pieceLen r.piece) = false) ∧
    (∃ (s : State) (c : Chan) (r : DmaRun) (d : DmaDesc) (a : Nat) (n : Nat) (e : Endpoint), Clocked s ∧ (s.chan c).run = some r ∧
      (s.chan c).halted = false ∧ (s.chan c).halting = false ∧ (s.chan c).doneAt = none ∧ (s.chan c).failing = none ∧ r.acceptedAt + 40 ≤ s.now ∧
      ((s.chan c).disable = false ∨ r.atBoundary = false) ∧ (s.skeins[chanSkein c]).runDesc r = some d ∧ (d.pop = false ∨ r.popped ≠ none) ∧
      r.unit < d.units ∧ ((s.chan c).stopping = false ∨ r.unit < (s.chan c).stopAt) ∧
      ((¬ r.wUnit < d.units) ∨ 64 ≤ (s.chan c).writes.length ∨ r.writeData d r.wUnit r.wPiece = none) ∧
      (s.dies[dieOfSkein (chanSkein c)]).creelEn = false ∧ d.kind = 2 ∧ r.idxAsked < r.indexLimit d ∧
      n = min 256 (d.idxCount * d.idxBytes - 256 * r.idxAsked) ∧
      s.resolve (r.spindle (chanSkein c)) d.idxSpace d.idxRegion (d.idxAddr + 256 * r.idxAsked) n = some a ∧ s.granted false d.idxSpace a n = true ∧
      (s.decodeAddr a).endpoint = some e) ∧
    (∃ (s : State) (c : Chan) (r : DmaRun) (d : DmaDesc) (h : Word) (w : RingWiring), Clocked s ∧ (s.chan c).run = some r ∧ d.ring < 32 ∧
      (s.skeins[chanSkein c]).runDesc r = some d ∧ d.pop = true ∧ r.popped = none ∧ (s.chan c).stopping = false ∧ (s.chan c).failing = none ∧
      (s.chan c).pushDue = [] ∧ ((s.skeins[chanSkein c]).ring d.ring).wiring = some w ∧
      ((s.skeins[chanSkein c]).ring d.ring).handleAt ((s.skeins[chanSkein c]).ring d.ring).nextTake = some h ∧
      r.wUnit < ({ d with len0 := h.toNat / 4096 * 256 } : DmaDesc).units) ∧
    (∃ (s : State) (c : Chan) (r : DmaRun) (at_ : Time), Clocked s ∧ (s.chan c).run = some r ∧ (s.chan c).doneAt = some at_ ∧ s.now < at_ + 20) ∧
    (∃ (s : State) (c : Chan) (r : DmaRun) (at_ : Time), Clocked s ∧ (s.chan c).run = some r ∧ (s.chan c).doneAt = some at_ ∧ at_ + 20 ≤ s.now) ∧
    (∃ (s : State) (c : Chan) (r : DmaRun) (at_ : Time) (f : DmaFail), Clocked s ∧ (s.chan c).failing = some r ∧ (s.chan c).retryAt = some at_ ∧
      at_ ≤ s.now ∧ r.fail = some f ∧ (r ∈ (s.chan c).past ∨ (s.chan c).run = some r)) ∧
    (∃ (s : State) (c : Chan) (r : DmaRun) (t : State) (f : DmaFail), Clocked s ∧ (s.chan c).failing = some r ∧ r.fail = some f ∧
      (s.chan c).reads = [] ∧ (s.chan c).writes = [] ∧ (s.chan c).retryAt = none ∧ t = s.settleChan c ∧ retryable f.code = true ∧
      (t.chan c).res.attempts ≤ (s.skeins[chanSkein c]).retryLimit.toNat ∧ r.gone = false ∧ (s.chan c).stopping = false) ∧
    (∃ (s : State) (c : Chan) (r : DmaRun) (t : State) (f : DmaFail), Clocked s ∧ (s.chan c).failing = some r ∧ r.fail = some f ∧
      (s.chan c).reads = [] ∧ (s.chan c).writes = [] ∧ (s.chan c).retryAt = none ∧ t = s.settleChan c ∧
      (retryable f.code = false ∨ (s.skeins[chanSkein c]).retryLimit.toNat < (t.chan c).res.attempts) ∧ s.stepOpen = true ∧ s.step.cause = 0) :=
  ⟨⟨dmaSt d0 ({ r0 with landed := [({ tag := 0, use := .data, desc := 0, unit := 0, piece := 0, elem := 0, addr := 0, bytes := 64 }, [1, 2])] }), 0,
     { r0 with landed := [({ tag := 0, use := .data, desc := 0, unit := 0, piece := 0, elem := 0, addr := 0, bytes := 64 }, [1, 2])] }, d0, [1, 2],
     0x200005001000, spindleEndpoint 5, by decide⟩,
   ⟨(dmaSt).modDie 0 (fun x => { x with creelEn := false }), 0, r0, d0, 0x200005000000, spindleEndpoint 5, by decide⟩,
   ⟨(dmaSt { d0 with srcSpace := 0 }).modDie 0 (fun x => { x with creelEn := false }), 0, r0, { d0 with srcSpace := 0 }, 0, by decide +kernel⟩,
   ⟨(dmaSt ({ d0 with kind := 2, idxSpace := 1, idxAddr := 0x2000, idxCount := 4 })).modDie 0 (fun x => { x with creelEn := false }), 0, r0,
     { d0 with kind := 2, idxSpace := 1, idxAddr := 0x2000, idxCount := 4 }, 0x200005002000, 16, spindleEndpoint 5, by decide⟩,
   ⟨dmaSt ({ d0 with pop := true }) r0 id (win.modSk 0 (fun x => x.modRing 2 (fun _ => ring2))), 0, r0, { d0 with pop := true }, 4096, wire2,
     by decide⟩,
   ⟨dmaSt d0 r0 (fun x => { x with doneAt := some 21 }), 0, r0, 21, by decide⟩,
   ⟨dmaSt d0 r0 (fun x => { x with doneAt := some 20, queued := some { r0 with list := 9 } }), 0, r0, 20, by decide⟩,
   ⟨dmaSt d0 { r0 with fail := some { desc := 0, unit := 0, piece := 0, code := 0x0404, write := false, addr := 0 } } (fun x => { x with retryAt := some 40, halting := true, res := { attempts := 64, valid := true } }),
     0, { r0 with fail := some { desc := 0, unit := 0, piece := 0, code := 0x0404, write := false, addr := 0 } }, 40,
     { desc := 0, unit := 0, piece := 0, code := 0x0404, write := false, addr := 0 }, by decide⟩,
   ⟨dmaSt d0 { r0 with fail := some { desc := 0, unit := 0, piece := 0, code := 0x0404, write := false, addr := 0 } } (fun x => { x with halting := true, res := { attempts := 3, valid := true, list := 0, desc := 0, unit := 0 } }),
     0, { r0 with fail := some { desc := 0, unit := 0, piece := 0, code := 0x0404, write := false, addr := 0 } },
     State.settleChan (dmaSt d0 { r0 with fail := some { desc := 0, unit := 0, piece := 0, code := 0x0404, write := false, addr := 0 } } (fun x => { x with halting := true, res := { attempts := 3, valid := true, list := 0, desc := 0, unit := 0 } })) 0,
     { desc := 0, unit := 0, piece := 0, code := 0x0404, write := false, addr := 0 }, by decide +kernel, by decide +kernel, by decide +kernel,
     by decide +kernel, by decide +kernel, by decide +kernel, rfl, by decide +kernel, by decide +kernel, by decide +kernel, by decide +kernel⟩,
   ⟨dmaSt d0 { r0 with fail := some { desc := 0, unit := 0, piece := 0, code := 0x0404, write := false, addr := 0 } } (fun x => { x with halting := true, res := { attempts := 64, valid := true, list := 0, desc := 0, unit := 0 } }),
     0, { r0 with fail := some { desc := 0, unit := 0, piece := 0, code := 0x0404, write := false, addr := 0 } },
     State.settleChan (dmaSt d0 { r0 with fail := some { desc := 0, unit := 0, piece := 0, code := 0x0404, write := false, addr := 0 } } (fun x => { x with halting := true, res := { attempts := 64, valid := true, list := 0, desc := 0, unit := 0 } })) 0,
     { desc := 0, unit := 0, piece := 0, code := 0x0404, write := false, addr := 0 }, by decide +kernel, by decide +kernel, by decide +kernel,
     by decide +kernel, by decide +kernel, by decide +kernel, rfl, by decide +kernel, by decide +kernel, by decide +kernel⟩⟩

/-- Hypotheses of LinkBringUpAndLoss. -/
theorem test_meets_link_bring_up_and_loss :
    (∃ (s : State) (l : Link), Clocked s ∧ (s.links[l]).enable = false) ∧
    (∃ (s : State) (l : Link) (peer : PeerIdent), Clocked s ∧ (s.links[l]).enable = true ∧ s.pwr.refWarpBad.getLsbD (linkDie l).val = false ∧
      ((s.links[l]).peerCheck = false ∨ ((s.links[l]).peerRank = peer.rank ∧ (s.links[l]).peerLink = peer.link))) ∧
    (∃ (s : State) (l : Link) (peer : PeerIdent), Clocked s ∧ (s.links[l]).enable = true ∧ s.pwr.refWarpBad.getLsbD (linkDie l).val = false ∧
      (s.links[l]).peerCheck = true ∧ ((s.links[l]).peerRank ≠ peer.rank ∨ (s.links[l]).peerLink ≠ peer.link)) ∧
    (∃ (s : State) (l : Link), Clocked s ∧ (s.links[l]).phase = .training) ∧
    (∃ (s : State) (l : Link), Clocked s ∧ (s.links[l]).phase = .measuring) ∧
    (∃ (s : State) (l : Link) (at_ : Time), Clocked s ∧ (s.links[l]).enable = true ∧ (s.links[l]).autoRetrain = true ∧ (s.links[l]).fn.st = .on ∧
      s.pwr.refWarpBad.getLsbD (linkDie l).val = false ∧ (s.links[l]).phase = .down ∧ (s.links[l]).downAt = some at_ ∧ (s.links[l]).los = 0 ∧
      (s.links[l]).lol = 0 ∧ s.now < at_ + 17000000) ∧
    (∃ (s : State) (l : Link) (at_ : Time), Clocked s ∧ (s.links[l]).enable = true ∧ (s.links[l]).autoRetrain = true ∧ (s.links[l]).fn.st = .on ∧
      s.pwr.refWarpBad.getLsbD (linkDie l).val = false ∧ (s.links[l]).phase = .down ∧ (s.links[l]).downAt = some at_ ∧ (s.links[l]).los = 0 ∧
      (s.links[l]).lol = 0 ∧ at_ + 17000000 ≤ s.now) ∧
    (∃ (s : State) (l : Link) (lane : Fin 2) (k : _), (s.links[l]).phase = .up ∧ k ∈ [Instr.lossOfSignal l lane true, .lossOfLock l lane true]) ∧
    (∃ (l : Link) (lane : Fin 2) (k : _), k ∈ [Instr.lossOfSignal l lane false, .lossOfLock l lane false]) :=
  ⟨⟨win, 3, by decide⟩,
   ⟨lk id, 3, peer1, by decide⟩,
   ⟨lk (fun x => { x with peerCheck := true, peerRank := 9, peerLink := 5 }), 3, peer1, by decide⟩,
   ⟨lk (fun x => { x with phase := .training, target := 2, rate := 1, tries := 2 }), 3, by decide⟩,
   ⟨lk (fun x => { x with phase := .measuring }), 3, by decide⟩,
   ⟨{ lk (fun x => { x with downAt := some 0 }) with now := 16999999 }, 3, 0, by decide⟩,
   ⟨{ lk (fun x => { x with downAt := some 0 }) with now := 17000000 }, 3, 0, by decide⟩,
   ⟨up3 id, 3, 1, (.lossOfLock 3 1 true : Instr), by decide +kernel⟩,
   ⟨3, 1, (.lossOfSignal 3 1 false : Instr), by decide⟩⟩

/-- Hypotheses of LinkSends. -/
theorem test_meets_link_sends :
    (∃ (s : State) (l : Link), Clocked s ∧ (s.links[l]).phase = .up ∧ s.looped l = false ∧ 4095 ≤ (s.links[l]).slotsSinceIdle) ∧
    (∃ (s : State) (l : Link) (p : TickPayload), Clocked s ∧ (s.links[l]).phase = .up ∧ s.looped l = false ∧ (s.links[l]).slotsSinceIdle < 4095 ∧
      (s.links[l]).tickDue = some p) ∧
    (∃ (s : State) (l : Link) (p : List Byte) (rest : List (List Byte)), Clocked s ∧ (s.links[l]).phase = .up ∧ s.looped l = false ∧
      (s.links[l]).slotsSinceIdle < 4095 ∧ (s.links[l]).tickDue = none ∧ (s.links[l]).aborts = p :: rest ∧ (s.links[l]).replay.length < 256) ∧
    (∃ (s : State) (l : Link) (why : BitVec 8), Clocked s ∧ (s.links[l]).phase = .up ∧ s.looped l = false ∧ (s.links[l]).slotsSinceIdle < 4095 ∧
      (s.links[l]).tickDue = none ∧ (s.links[l]).aborts = [] ∧ (s.links[l]).replayDue = some why) ∧
    (∃ (s : State) (l : Link) (f : Flit) (rest : List Flit), Clocked s ∧ (s.links[l]).phase = .up ∧ s.looped l = false ∧
      (s.links[l]).slotsSinceIdle < 4095 ∧ (s.links[l]).tickDue = none ∧ (s.links[l]).aborts = [] ∧ (s.links[l]).replayDue = none ∧
      (s.links[l]).resend = f :: rest) ∧
    (∃ (s : State) (l : Link) (t0 : StreamTx), Clocked s ∧ (s.links[l]).phase = .up ∧ s.looped l = false ∧ (s.links[l]).slotsSinceIdle < 4095 ∧
      (s.links[l]).tickDue = none ∧ (s.links[l]).aborts = [] ∧ (s.links[l]).replayDue = none ∧ (s.links[l]).resend = [] ∧
      (s.links[l]).replay.length < 256 ∧ (s.links[l]).owner = some t0 ∧ t0.ready = true ∧ (s.links[l]).displaced = [] ∧ s.computeDown = false) ∧
    (∃ (s : State) (l : Link) (sliver : Option (List Byte)) (p : List Byte), Clocked s ∧ (s.links[l]).phase = .up ∧ s.looped l = false ∧
      (s.links[l]).slotsSinceIdle < 4095 ∧ (s.links[l]).tickDue = none ∧ (s.links[l]).aborts = [] ∧ (s.links[l]).replayDue = none ∧
      (s.links[l]).resend = [] ∧ (s.links[l]).replay.length < 256 ∧ sliver = some p ∧ (s.links[l]).slivers = [] ∧ (∀ x ∈ (s.links[l]).tx,
      x.ready = false) ∧ (∀ x ∈ (s.links[l]).rx, x.creditsDue = 0)) ∧
    (∃ (s : State) (l : Link) (n : BitVec 12) (t0 : StreamTx) (h : Word) (w : RingWiring), Clocked s ∧ t0.e.ring < 32 ∧
      (s.links[l]).tx.find? (fun t => t.e.stream == n.toNat) = some t0 ∧ s.step.phase = .window ∧ t0.out = [] ∧ t0.e.token = false ∧
      s.linkFits l = true ∧ (s.links[l]).phase = .up ∧ ((s.skeins[linkSkein l]).ring t0.e.ring).wiring = some w ∧
      ((s.skeins[linkSkein l]).ring t0.e.ring).handleAt ((s.skeins[linkSkein l]).ring t0.e.ring).nextTake = some h ∧
      (s.readDevice l (w.buffer (linkSkein l) (h.toNat % 4096)) (h.toNat / 4096 * 256)).2.2 = false) :=
  ⟨⟨up3 (fun x => { x with tickDue := some { tick := 5, rootRank := 0, fwdDelay := 0, depth := 0, periodNs := 10000 }, slotsSinceIdle := 4095 }), 3,
     by decide⟩,
   ⟨up3 (fun x => { x with tickDue := some { tick := 5, rootRank := 0, fwdDelay := 0, depth := 0, periodNs := 10000 } }), 3,
     { tick := 5, rootRank := 0, fwdDelay := 0, depth := 0, periodNs := 10000 }, by decide⟩,
   ⟨up3 (fun x => { x with aborts := [[1]] }), 3, [1], [], by decide⟩,
   ⟨up3 (fun x => { x with replayDue := some 1, replaysStep := 1 }), 3, 1, by decide⟩,
   ⟨up3 (fun x => { x with resend := [fl 1] }), 3, fl 1, [], by decide +kernel⟩,
   ⟨up3 (fun x => { x with tx := [{ e := stm, credits := 4, out := [([1], true)] }] }), 3, { e := stm, credits := 4, out := [([1], true)] },
     by decide +kernel⟩,
   ⟨up3 id, 3, some [7], [7], by decide⟩,
   ⟨ringL 1 (up3 (fun x => { x with tx := [{ e := stm, credits := 4 }] })), 3, 6, { e := stm, credits := 4 }, 4096, { wire2 with laneLocal := true },
     by decide⟩⟩

/-- Hypotheses of LinkReceives. -/
theorem test_meets_link_receives :
    (∃ (s : State) (l : Link) (f : Flit) (u : State) (m : Link), s.receiveSeq l f = some u ∧ m ≠ l) ∧
    (∃ (s : State) (l : Link) (f : Flit) (loop : Option (Link × Bool)) (k : _), (s.links[l]).phase = .up ∧ s.looped l = false ∧ flitGood f = false ∧
      k ∈ [Instr.dataFlit l f, .sliverFlit l f loop, .creditFlit l f, .abortFlit l f]) ∧
    (∃ (s : State) (l : Link) (f : Flit), (s.links[l]).phase = .up ∧ s.looped l = false ∧ f.kind = 1 ∧ flitGood f = true ∧
      f.seq ≠ (s.links[l]).rxNext ∧ (f.seq - (s.links[l]).rxNext).toNat < 2048) ∧
    (∃ (s : State) (u : State) (l : Link) (f : Flit) (r : StreamRx) (w : RingWiring) (e : Endpoint) (out : List Byte) (carry : List Byte),
      (s.links[l]).phase = .up ∧ s.looped l = false ∧ f.kind = 1 ∧ s.receiveSeq l f = some u ∧ u.computeDown = false ∧ u.step.phase = .window ∧
      (u.links[l]).rx.find? (fun r => r.e.stream == f.stream.toNat) = some r ∧ r.staged = [] ∧
      ((u.skeins[linkSkein l]).ring r.e.ring).wiring = some w ∧ ((u.skeins[linkSkein l]).ring r.e.ring).space (r.pos + w.preload) = true ∧
      r.unit s.fresh (f.payload.take (16 * f.len.toNat)) f.last = (out, carry) ∧ out ≠ [] ∧
      (u.decodeAddr (w.buffer (linkSkein l) ((r.pos + w.preload) % max 1 w.bufferCount) + r.bytes)).endpoint = some e) ∧
    (∃ (s : State) (u : State) (l : Link) (f : Flit), (s.links[l]).phase = .up ∧ s.looped l = false ∧ f.kind = 2 ∧ s.receiveSeq l f = some u) ∧
    (∃ (s : State) (u : State) (l : Link) (f : Flit), (s.links[l]).phase = .up ∧ s.looped l = false ∧ f.kind = 3 ∧ s.receiveSeq l f = some u) ∧
    (∃ (s : State) (l : Link) (f : Flit), (s.links[l]).phase = .up ∧ s.looped l = false ∧ f.kind = 0 ∧ flitGood f = true) ∧
    (∃ (s : State) (l : Link) (f : Flit), (s.links[l]).phase = .up ∧ s.looped l = false ∧ flitGood f = false) ∧
    (∃ (s : State) (l : Link) (f : Flit), (s.links[l]).phase = .up ∧ s.looped l = false ∧ f.kind = 6 ∧ flitGood f = true ∧
      (s.links[l]).replaysStep.toNat < 2) ∧
    (∃ (s : State) (u : State) (l : Link) (f : Flit), (s.links[l]).phase = .up ∧ s.looped l = false ∧ f.kind = 5 ∧ s.receiveSeq l f = some u ∧
      s.step.phase ≠ .idle ∧ BitVec.ofNat 48 (field f.payload 0 6) = s.step.tick ∧ s.step.seen.contains (s.step.tick,
      BitVec.ofNat 16 (field f.payload 6 2)) = false ∧ s.step.cause = 0) :=
  ⟨⟨(up3 id), 3, fl 1, (((up3 id) : State).receiveSeq 3 (fl 1)).get (by decide +kernel), 4, (Option.some_get _).symm, by decide⟩,
   ⟨up3 id, 3, badFl 1, none, Instr.creditFlit 3 (badFl 1), by decide +kernel⟩,
   ⟨up3 id, 3, fl 1 [] 2047, by decide +kernel⟩,
   ⟨(ringL 0 (up3 (fun x => { x with rx := [{ e := stm, carry := List.replicate 16 9 }] }))),
     (((ringL 0 (up3 (fun x => { x with rx := [{ e := stm, carry := List.replicate 16 9 }] }))) : State).receiveSeq 3 ({ fl 1 (List.replicate 16 7) with stream := 6, crc := flitCrc { fl 1 (List.replicate 16 7) with stream := 6 } })).get (by decide +kernel),
     3, { fl 1 (List.replicate 16 7) with stream := 6, crc := flitCrc { fl 1 (List.replicate 16 7) with stream := 6 } },
     { e := stm, carry := List.replicate 16 9 }, { wire2 with preload := 0, laneLocal := true }, spindleEndpoint (spindleOf (linkSkein 3) 0),
     List.replicate 16 9 ++ List.replicate 16 7, [], by decide +kernel, by decide +kernel, by decide +kernel, (Option.some_get _).symm,
     by decide +kernel, by decide +kernel, by decide +kernel, by decide +kernel, by decide +kernel, by decide +kernel, by decide +kernel,
     by decide +kernel, by decide +kernel⟩,
   ⟨(up3 id), (((up3 id) : State).receiveSeq 3 (fl 2 [7])).get (by decide +kernel), 3, fl 2 [7], by decide +kernel, by decide +kernel,
     by decide +kernel, (Option.some_get _).symm⟩,
   ⟨(up3 (fun x => { x with tx := [{ e := stm, credits := 4 }] })),
     (((up3 (fun x => { x with tx := [{ e := stm, credits := 4 }] })) : State).receiveSeq 3 (fl 3 [6, 0, 2])).get (by decide +kernel), 3, fl 3 [6, 0,
     2], by decide +kernel, by decide +kernel, by decide +kernel, (Option.some_get _).symm⟩,
   ⟨up3 id, 3, fl 0, by decide +kernel⟩,
   ⟨up3 id, 3, badFl 0, by decide +kernel⟩,
   ⟨up3 (fun x => { x with replaysStep := 1, replay := [fl 1, fl 1 [2] 1] }), 3, fl 6 [1], by decide +kernel⟩,
   ⟨({ up3 id with step := { phase := .window, begun := true, tick := 5 } }),
     ((({ up3 id with step := { phase := .window, begun := true, tick := 5 } }) : State).receiveSeq 3 (fl 5 [5, 0, 0, 0, 0, 0,
     9])).get (by decide +kernel), 3, fl 5 [5, 0, 0, 0, 0, 0, 9], by decide +kernel, by decide +kernel, by decide +kernel, (Option.some_get _).symm,
     by decide +kernel, by decide +kernel, by decide +kernel, by decide +kernel⟩⟩

/-- Hypotheses of BarrierAndHostLink. -/
theorem test_meets_barrier_and_host_link :
    (∃ (s : State) (rx : Bool) (ch : Fin 20) (f : Frame), s.slv.perst = false ∧ ((s.slv.dir rx)[ch]).failed = false ∧
      ((s.slv.dir rx)[ch]).role ≠ .out ∧ frameGood f = true ∧ f.seq = ((s.slv.dir rx)[ch]).seq) ∧
    (∃ (s : State) (rx : Bool) (ch : Fin 20) (f : Frame), s.slv.perst = false ∧ ((s.slv.dir rx)[ch]).failed = false ∧
      ((s.slv.dir rx)[ch]).role ≠ .out ∧ frameGood f = true ∧ f.seq ≠ ((s.slv.dir rx)[ch]).seq) ∧
    (∃ (s : State) (rx : Bool) (ch : Fin 20) (f : Frame), s.slv.perst = false ∧ ((s.slv.dir rx)[ch]).failed = false ∧
      ((s.slv.dir rx)[ch]).role ≠ .out ∧ frameGood f = false ∧ ((s.slv.dir rx)[ch]).errors.length < s.slv.errLimit.toNat) ∧
    (∃ (s : State) (rx : Bool) (ch : Fin 20) (sp : Fin 20), ((s.slv.dir rx)[ch]).failed = false ∧ ((s.slv.dir rx)[ch]).role = .bulk ∧
      spareOf (s.slv.dir rx) = some sp ∧ 8 ≤ roleCount (s.slv.dir rx) .bulk ∧ 1 ≤ roleCount (s.slv.dir rx) .msg) ∧
    (∃ (s : State), s.slv.perst = false ∧ s.slv.computePower = true ∧ s.inFullReset = false ∧ s.slv.barrierUp = false ∧ s.slv.trainDue = false) ∧
    (∃ (s : State), s.slv.perst = false ∧ s.slv.computePower = true ∧ s.inFullReset = false ∧ s.slv.barrierUp = false ∧ s.slv.trainDue = true) ∧
    (∃ (s : State), s.slv.perst = true) ∧
    (∃ (s : State), s.slv.perst = false) :=
  ⟨⟨bar, false, 15, fm 5, by decide +kernel⟩,
   ⟨bar, true, 19, fm 1 2, by decide +kernel⟩,
   ⟨bar, false, 0, { fm 1 with crc := (fm 1).crc + 1 }, by decide +kernel⟩,
   ⟨bar, false, 15, 18, by decide⟩,
   ⟨{ win with slv := { win.slv with computePower := true, trainDue := false } }, by decide +kernel⟩,
   ⟨{ win with slv := { win.slv with computePower := true, trainDue := true } }, by decide⟩,
   ⟨{ win with slv := { win.slv with perst := true } }, by decide⟩,
   ⟨win, by decide⟩⟩

/-- Hypotheses of MailboxesAndMirror. -/
theorem test_meets_mailboxes_and_mirror :
    (∃ (s : State) (n : Fin 8) (len : BitVec 13), s.slv.perst = false ∧ (s.slv.mb[n]).state = .idle ∧ 32 ≤ len.toNat ∧ len.toNat ≤ 4096 ∧
      len.toNat % 8 = 0 ∧ s.slv.computePower = true ∧ s.slv.barrierUp = true) ∧
    (∃ (s : State) (n : Fin 8) (len : BitVec 13), s.slv.perst = false ∧ (s.slv.mb[n]).state = .idle ∧
      (len.toNat < 32 ∨ 4096 < len.toNat ∨ len.toNat % 8 ≠ 0)) ∧
    (∃ (s : State) (n : Fin 8) (len : BitVec 13), s.slv.perst = false ∧ (s.slv.mb[n]).state = .idle ∧ 32 ≤ len.toNat ∧ len.toNat ≤ 4096 ∧
      len.toNat % 8 = 0 ∧ s.slv.computePower = false) ∧
    (∃ (s : State) (n : Fin 8) (len : BitVec 13), s.slv.perst = false ∧ (s.slv.mb[n]).state = .idle ∧ 32 ≤ len.toNat ∧ len.toNat ≤ 4096 ∧
      len.toNat % 8 = 0 ∧ s.slv.computePower = true ∧ s.slv.barrierUp = false) ∧
    (∃ (s : State) (n : Fin 8), s.slv.perst = false ∧ (s.slv.mb[n]).state ≠ .idle) ∧
    (∃ (s : State) (n : Fin 8) (r : Response) (rest : List Response), s.slv.barrierUp = true ∧
      takeFirst (fun r => r.transport.val == n.val) s.dist.responses = some (r, rest) ∧ (s.slv.mb[n]).state = .busy ∧
      (s.slv.mb[n]).crossing = r.crossing ∧ s.now < (s.slv.mb[n]).since + 17000000 * s.slv.timeoutMs.toNat) ∧
    (∃ (s : State) (n : Fin 8) (r : Response) (rest : List Response), s.slv.barrierUp = true ∧
      takeFirst (fun r => r.transport.val == n.val) s.dist.responses = some (r, rest) ∧
      ((s.slv.mb[n]).state ≠ .busy ∨ (s.slv.mb[n]).crossing ≠ r.crossing)) ∧
    (∃ (s : State) (n : Fin 8), (s.slv.mb[n]).state = .busy ∧ s.now < (s.slv.mb[n]).since + 17000000 * s.slv.timeoutMs.toNat) ∧
    (∃ (s : State) (n : Fin 8), (s.slv.mb[n]).state = .busy ∧ (s.slv.mb[n]).since + 17000000 * s.slv.timeoutMs.toNat ≤ s.now) ∧
    (∃ (s : State) (n : Fin 8), ((s.slv.mb[n]).state = .done ∨ (s.slv.mb[n]).state = .failed)) ∧
    (∃ (s : State) (n : Fin 8), ((s.slv.mb[n]).state = .idle ∨ (s.slv.mb[n]).state = .busy)) ∧
    (∃ (s : State), s.slv.barrierUp = true ∧ s.dist.alive = true ∧ s.flt.coreHalted.getLsbD 3 = false) ∧
    (∃ (s : State), s.slv.mirrorValid = true ∧ s.now ≤ s.slv.mirrorAt + 17000000 * max 1 s.slv.staleMs.toNat) ∧
    (∃ (s : State), s.slv.mirrorValid = true ∧ s.slv.mirrorAt + 17000000 * max 1 s.slv.staleMs.toNat < s.now) :=
  ⟨⟨box id, 3, 4096, by decide⟩,
   ⟨box id, 3, 4097, by decide⟩,
   ⟨box id (fun v => { v with computePower := false }), 3, 32, by decide⟩,
   ⟨box id (fun v => { v with barrierUp := false }), 3, 32, by decide⟩,
   ⟨box (fun m => { m with state := .done }), 3, by decide⟩,
   ⟨{ box (fun m => { m with state := .busy, crossing := 4 }) with dist := { responses := [{ transport := 3, crossing := 4, bytes := [1, 2] }] }, now := 33999999999 },
     3, { transport := 3, crossing := 4, bytes := [1, 2] }, [], by decide⟩,
   ⟨{ box (fun m => { m with state := .busy, crossing := 5 }) with dist := { responses := [{ transport := 3, crossing := 4, bytes := [1, 2] }] }, now := 0 },
     3, { transport := 3, crossing := 4, bytes := [1, 2] }, [], by decide⟩,
   ⟨{ box (fun m => { m with state := .busy }) with now := 33999999999 }, 3, by decide⟩,
   ⟨{ box (fun m => { m with state := .busy }) with now := 34000000000 }, 3, by decide⟩,
   ⟨box (fun m => { m with state := .failed, cause := 5 }), 3, by decide⟩,
   ⟨box (fun m => { m with state := .busy }), 3, by decide⟩,
   ⟨bar, by decide⟩,
   ⟨{ box id (fun v => { v with mirrorValid := true }) with now := 850000000 }, by decide⟩,
   ⟨{ box (fun m => { m with state := .busy }) (fun v => { v with mirrorValid := true }) with now := 850000001 }, by decide⟩⟩

/-- Hypotheses of BulkCommands. -/
theorem test_meets_bulk_commands :
    (∃ (s : State) (n : Fin 8) (b : Bulk), s.slv.bulk[n] = some b ∧ s.slv.barrierUp = true) ∧
    (∃ (s : State) (n : Fin 8) (b : Bulk) (entry : List Byte) (bs : List Byte) (l : List (BitVec 64 × Nat)) (b' : Bulk) (u : State) (m : Nat),
      s.slv.bulk[n] = some b ∧ Clocked s ∧ b.ended = false ∧ b.started = true ∧ b.retryAt = none ∧ b.toDevice = true ∧
      walkList (2 * min 4096 (b.total - b.done) + 2) b b.done (min 4096 (b.total - b.done)) entry = .segs l b' ∧
      s.agentWrites (lineParts (b.base + b.offset + b.done) (min 4096 (b.total - b.done))) (sliceBytes bs 0 (min 4096 (b.total - b.done))) = (u, m,
      0) ∧ b'.done + min 4096 (b.total - b.done) ≠ b'.total) ∧
    (∃ (s : State) (n : Fin 8) (b : Bulk) (entry : List Byte) (bytes : List Byte) (host : HostData) (ecc : Ecc) (l : List (BitVec 64 × Nat)) (b' : Bulk) (u : State),
      s.slv.bulk[n] = some b ∧ Clocked s ∧ host ≠ .failed ∧ b.ended = false ∧ b.started = true ∧ b.retryAt = none ∧ b.toDevice = false ∧
      b'.toDevice = false ∧ walkList (2 * min 4096 (b.total - b.done) + 2) b b.done (min 4096 (b.total - b.done)) entry = .segs l b' ∧
      s.agentReads ecc (lineParts (b.base + b.offset + b.done) (min 4096 (b.total - b.done))) = (u, bytes, 0) ∧
      b'.done + min 4096 (b.total - b.done) = b'.total) ∧
    (∃ (s : State) (n : Fin 8) (b : Bulk), s.slv.bulk[n] = some b ∧ Clocked s ∧ b.ended = true) ∧
    (∃ (s : State) (n : Fin 8) (b : Bulk) (at_ : Time), s.slv.bulk[n] = some b ∧ b.retryAt = some at_ ∧ s.now < at_) ∧
    (∃ (s : State) (n : Fin 8) (b : Bulk) (at_ : Time), s.slv.bulk[n] = some b ∧ b.retryAt = some at_ ∧ at_ ≤ s.now) ∧
    (∃ (s : State) (u : State) (a : Nat) (n : Nat) (m : Nat) (bs : List Byte) (i : _), Canonical s ∧ bs.length = n ∧
      s.agentWrites (lineParts a n) bs = (u, m, 0) ∧ i < n) ∧
    (∃ (s : State) (u : State) (a : Nat) (n : Nat) (m : Nat) (bs : List Byte) (x : _), Canonical s ∧ bs.length = n ∧
      s.agentWrites (lineParts a n) bs = (u, m, 0) ∧ (x < a ∨ a + n ≤ x)) :=
  ⟨⟨bulkSt { tr1 with started := false }, 3, { tr1 with started := false }, by decide⟩,
   ⟨bulkSt tr1, 3, tr1, [], [], [(0x5000, 4096)], { tr1 with entryDone := 4096 },
     ((bulkSt tr1).agentWrites (lineParts (tr1.base + tr1.offset + tr1.done) (min 4096 (tr1.total - tr1.done))) (sliceBytes [] 0 (min 4096 (tr1.total - tr1.done)))).1,
     ((bulkSt tr1).agentWrites (lineParts (tr1.base + tr1.offset + tr1.done) (min 4096 (tr1.total - tr1.done))) (sliceBytes [] 0 (min 4096 (tr1.total - tr1.done)))).2.1,
     by decide +kernel, by decide +kernel, by decide +kernel, by decide +kernel, by decide +kernel, by decide +kernel, rfl, pair3 (by decide +kernel),
     by decide +kernel⟩,
   ⟨bulkSt tr2, 3, tr2, [], ((bulkSt tr2).agentReads .clean (lineParts (tr2.base + tr2.offset + tr2.done) (min 4096 (tr2.total - tr2.done)))).2.1,
     .data [], .clean, [(0x5000, 256)], { tr2 with entry := none, entryIndex := 1 },
     ((bulkSt tr2).agentReads .clean (lineParts (tr2.base + tr2.offset + tr2.done) (min 4096 (tr2.total - tr2.done)))).1, by decide +kernel,
     by decide +kernel, by decide +kernel, by decide +kernel, by decide +kernel, by decide +kernel, by decide +kernel, by decide +kernel, rfl,
     pair3 (by decide +kernel), by decide +kernel⟩,
   ⟨bulkSt { tr1 with ended := true }, 3, { tr1 with ended := true }, by decide⟩,
   ⟨{ bulkSt { tr1 with retryAt := some 5 } with now := 4 }, 3, { tr1 with retryAt := some 5 }, 5, by decide⟩,
   ⟨{ bulkSt { tr1 with retryAt := some 5 } with now := 5 }, 3, { tr1 with retryAt := some 5 }, 5, by decide⟩,
   ⟨mem0, ((mem0 : State).agentWrites (lineParts 0x2FF 2) [7, 8]).1, 0x2FF, 2, ((mem0 : State).agentWrites (lineParts 0x2FF 2) [7, 8]).2.1, [7, 8], 1,
     by decide +kernel, by decide +kernel, pair3 (by decide +kernel), by decide +kernel⟩,
   ⟨mem0, ((mem0 : State).agentWrites (lineParts 0x2FF 2) [7, 8]).1, 0x2FF, 2, ((mem0 : State).agentWrites (lineParts 0x2FF 2) [7, 8]).2.1, [7, 8],
     0x2FE, by decide +kernel, by decide +kernel, pair3 (by decide +kernel), by decide +kernel⟩⟩

/-- Hypotheses of FabricRequests. -/
theorem test_meets_fabric_requests :
    (∃ (s : State) (u : State) (src : Endpoint) (dst : Endpoint) (vc : BitVec 2) (p : Packet) (i : Fin 16), fabricAtEp dst = some i ∧
      s.takePacket (fun p => (p.kind == .readReq || p.kind == .write) && p.src == src && p.dst == dst && p.vc == vc) = some (p, u) ∧
      s.epFenced dst.die i = true) ∧
    (∃ (s : State) (u : State) (src : Endpoint) (dst : Endpoint) (vc : BitVec 2) (p : Packet) (i : Fin 16), fabricAtEp dst = some i ∧
      s.takePacket (fun p => (p.kind == .readReq || p.kind == .write) && p.src == src && p.dst == dst && p.vc == vc) = some (p, u) ∧
      s.epFenced dst.die i = false ∧ (s.region (regionOf dst.die i)).state ≠ 1) ∧
    (∃ (s : State) (u : State) (src : Endpoint) (dst : Endpoint) (vc : BitVec 2) (p : Packet) (i : Fin 16), fabricAtEp dst = some i ∧
      s.takePacket (fun p => (p.kind == .readReq || p.kind == .write) && p.src == src && p.dst == dst && p.vc == vc) = some (p, u) ∧
      s.epFenced dst.die i = false ∧ (s.region (regionOf dst.die i)).state = 1) ∧
    (∃ (s : State) (d : Die) (e : Fin 16) (i : Nat) (q : FabIn), Clocked s ∧ ((s.fabric[d]).eps[e]).inFlight[i]? = some q) ∧
    (∃ (s : State) (d : Die) (e : Fin 16) (i : Nat) (q : FabIn), Clocked s ∧ ((s.fabric[d]).eps[e]).inFlight[i]? = some q ∧
      s.now < q.since + 17000 * (s.fabric[d]).epTimeoutUs.toNat) ∧
    (∃ (s : State) (d : Die) (e : Fin 16) (i : Nat) (q : FabIn), Clocked s ∧ ((s.fabric[d]).eps[e]).inFlight[i]? = some q ∧
      q.since + 17000 * (s.fabric[d]).epTimeoutUs.toNat ≤ s.now) ∧
    (∃ (s : State) (d : Die) (ep : Fin 16) (write : Option (List Byte)) (addr : BitVec 64) (bytes : Nat) (n : Nat) (tag : BitVec 12), Clocked s ∧
      n = (match write with | some b => b.length | none => bytes) ∧ 32 ≤ n ∧ n ≤ 4096 ∧ n % 32 = 0 ∧ (s.region (regionOf d ep)).state = 1 ∧
      s.epFenced d ep = false ∧ ((s.fabric[d]).eps[ep]).outstanding.any (fun o => o.tag == tag) = false ∧
      (write ≠ none ∨ (((s.fabric[d]).eps[ep]).outstanding.filter (fun o => !o.write)).length < 64) ∧
      ((s.fabric[d]).eps[ep]).reaches write.isSome addr.toNat n = false) ∧
    (∃ (s : State) (d : Die) (ep : Fin 16) (write : Option (List Byte)) (addr : BitVec 64) (bytes : Nat) (n : Nat) (tag : BitVec 12) (e : Endpoint),
      Clocked s ∧ n = (match write with | some b => b.length | none => bytes) ∧ 32 ≤ n ∧ n ≤ 4096 ∧ n % 32 = 0 ∧
      (s.region (regionOf d ep)).state = 1 ∧ s.epFenced d ep = false ∧ ((s.fabric[d]).eps[ep]).outstanding.any (fun o => o.tag == tag) = false ∧
      (write ≠ none ∨ (((s.fabric[d]).eps[ep]).outstanding.filter (fun o => !o.write)).length < 64) ∧
      ((s.fabric[d]).eps[ep]).reaches write.isSome addr.toNat n = true ∧ (s.decodeAddr addr.toNat).endpoint = some e) ∧
    (∃ (s : State) (d : Die) (j : Fin 2) (addr : BitVec 17) (be : BitVec 64), Clocked s ∧ s.ingestReady d j = true ∧ 64 * addr.toNat < 0x600000 ∧
      (∀ k, be.getLsbD k = true → (s.spindles[ingestSpindle d j]).protects (64 * addr.toNat + k) 1 = false)) ∧
    (∃ (s : State) (d : Die) (j : Fin 2) (addr : BitVec 17), Clocked s ∧ s.ingestReady d j = true ∧ 0x600000 ≤ 64 * addr.toNat) ∧
    (∃ (s : State) (d : Die) (j : Fin 2) (ring : BitVec 5) (w : RingWiring) (k : Skein), k.val = 4 * d.val ∧ Clocked s ∧ s.ingestReady d j = true ∧
      ring.toNat % 2 = j.val ∧ ((s.skeins[k]).ring ring.toNat).wiring = some w ∧ w.producer = 4 ∧
      ((s.skeins[k]).ring ring.toNat).space ((s.skeins[k]).ring ring.toNat).nextPost = true) :=
  ⟨⟨sent toFab ((fab3 1).modDie 0 (fun x => { x with fenced := 8 })), none1 ((fab3 1).modDie 0 (fun x => { x with fenced := 8 })), dma1,
     fabEndpoint 0 3, 0, toFab, 3, by decide, rfl, by decide⟩,
   ⟨sent toFab (fab3 2), none1 (fab3 2), dma1, fabEndpoint 0 3, 0, toFab, 3, by decide, rfl, by decide, by decide⟩,
   ⟨sent toFab (fab3 1), none1 (fab3 1), dma1, fabEndpoint 0 3, 0, toFab, 3, by decide, rfl, by decide, by decide⟩,
   ⟨fab3 1 (fun e => { e with inFlight := [{ pkt := toFab, since := 0 }] }), 0, 3, 0, { pkt := toFab, since := 0 }, by decide⟩,
   ⟨{ fab3 1 (fun e => { e with inFlight := [{ pkt := toFab, since := 0 }] }) with now := 1699999 }, 0, 3, 0, { pkt := toFab, since := 0 }, by decide⟩,
   ⟨{ fab3 1 (fun e => { e with inFlight := [{ pkt := toFab, since := 0 }] }) with now := 1700000 }, 0, 3, 0, { pkt := toFab, since := 0 }, by decide⟩,
   ⟨open0, 0, 3, some (List.replicate 32 1), 0xFFFFE1, 0, 32, 5, by decide⟩,
   ⟨(open0 id mem0).modDie 0 (fun x => { x with creelEn := false }), 0, 3, none, 0xFFF000, 4096, 4096, 5, ctlEndpoint H0, by decide⟩,
   ⟨ingestOn, 0, 1, 0x17FFF, 3, by decide +kernel, by decide +kernel, by decide +kernel, fun k _ => rfl⟩,
   ⟨ingestOn, 0, 1, 0x18000, by decide⟩,
   ⟨ringI ingestOn, 0, 0, 2, { wire2 with preload := 0, producer := 4 }, 0, by decide⟩⟩

/-- Hypotheses of UserClockEdges. -/
theorem test_meets_user_clock_edges :
    (∃ (s : State) (d : Die), Clocked s ∧ (s.fabric[d]).capRead = false ∧ (s.fabric[d]).capStopped = false ∧ (s.fabric[d]).capArmed = false) ∧
    (∃ (s : State) (d : Die) (q : FlopInput), Clocked s ∧ (s.fabric[d]).capRead = false ∧ (s.fabric[d]).capStopped = false ∧
      (s.fabric[d]).capArmed = false ∧ (s.fabric[d]).stage s.now (q.flop / 153600) = 3 ∧ q.en = true) ∧
    (∃ (s : State) (d : Die) (q : RamAccess) (v : Nat), Clocked s ∧ (s.fabric[d]).capRead = false ∧ (s.fabric[d]).capStopped = false ∧
      (s.fabric[d]).capArmed = false ∧ 2 ≤ (s.fabric[d]).stage s.now (ramRegion q.ram) ∧ q.write = some v) ∧
    (∃ (s : State) (d : Die) (q : SliceInput), Clocked s ∧ (s.fabric[d]).capRead = false ∧ (s.fabric[d]).capStopped = false ∧
      (s.fabric[d]).capArmed = false ∧ (s.fabric[d]).stage s.now (q.slice / 128) = 3) ∧
    (∃ (s : State) (d : Die) (q : BorderSignal), Clocked s ∧ (s.fabric[d]).capRead = false ∧ (s.fabric[d]).capStopped = false ∧
      (s.fabric[d]).capArmed = false ∧ (s.fabric[d]).stage s.now q.region.val = 3) ∧
    (∃ (s : State) (d : Die) (m : Fin 16), Clocked s ∧ (s.fabric[d]).capDomain.toNat = m.val ∧ (s.fabric[d]).capStopped = true) ∧
    (∃ (q : SliceInput), q.reset = true) ∧
    (∃ (x : Slice) (q : SliceInput) (p0 : BitVec 27 × BitVec 24 × BitVec 2 × Bool) (p1 : BitVec 27 × BitVec 24 × BitVec 2 × Bool), q.reset = false ∧
      x.pipe = [p0, p1]) ∧
    (∃ (v : Int), -(2 ^ 63) ≤ v ∧ v < 2 ^ 63) ∧
    (∃ (v : Int), 2 ^ 63 ≤ v) ∧
    (∃ (v : Int), v < -(2 ^ 63)) :=
  ⟨⟨win, 0, by decide⟩,
   ⟨ingestOn, 0, { flop := 2457599, d := true, en := true, rst := false }, by decide⟩,
   ⟨ingestOn, 0, { ram := 0, port := 1, addr := 3, write := some 9 }, 9, by decide⟩,
   ⟨ingestOn, 0, { slice := 2047, a := 1, b := 2, op := 0, reset := false }, by decide⟩,
   ⟨ingestOn, 0, { region := 3, group := 2, signal := 7, value := true }, by decide⟩,
   ⟨win.modFab 0 (fun f => { f with capDomain := 5, capStopped := true }), 0, 5, by decide⟩,
   ⟨{ slice := 1, a := 0, b := 0, op := 0, reset := true }, by decide⟩,
   ⟨{ slice := 1, acc := 5, pipe := [(1, 1, 0, false), (2, 3, 0, false)] }, { slice := 1, a := 0, b := 0, op := 0, reset := false }, (1, 1, 0, false),
     (2, 3, 0, false), by decide⟩,
   ⟨-(2 ^ 63), by decide⟩,
   ⟨2 ^ 63, by decide⟩,
   ⟨-(2 ^ 63) - 1, by decide⟩⟩

/-- Hypotheses of ReleaseAndRegionSwitches. -/
theorem test_meets_release_and_region_switches :
    (∃ (s : State) (d : Die), s.cfg.doneHeld = false ∧ (s.fabric[d]).configured = true ∧ (s.fabric[d]).release = .none ∧
      (s.fabric[d]).released = false) ∧
    (∃ (s : State) (d : Die), (s.fabric[d]).release = .done ∧ (s.fabric[d]).releaseAt + 170 * (s.fabric[d]).gap ≤ s.now) ∧
    (∃ (s : State) (d : Die), (s.fabric[d]).release = .outputs ∧ (s.fabric[d]).releaseAt + 170 * (2 * (s.fabric[d]).gap) ≤ s.now) ∧
    (∃ (s : State) (d : Die), (s.fabric[d]).release = .enables ∧ (s.fabric[d]).releaseAt + 170 * (3 * (s.fabric[d]).gap) ≤ s.now) ∧
    (∃ (s : State) (r : Region), (s.dies[regionDie r]).basez.getLsbD (regionIdx r).val = false) ∧
    (∃ (s : State) (r : Region), (s.dies[regionDie r]).basez.getLsbD (regionIdx r).val = true ∧
      (s.dies[regionDie r]).fenced.getLsbD (regionIdx r).val = false ∧ (s.dies[regionDie r]).draining.getLsbD (regionIdx r).val = false) ∧
    (∃ (s : State) (r : Region), (s.region r).state ≠ 5 ∧ (s.region r).poweringOff = false) :=
  ⟨⟨{ relAt .none 5 with cfg := { win.cfg with doneHeld := false } }, 0, by decide⟩,
   ⟨relAt .done (170 * 8), 0, by decide⟩,
   ⟨relAt .outputs (170 * 16), 0, by decide⟩,
   ⟨relAt .enables (170 * 24), 0, by decide⟩,
   ⟨win, 3, by decide⟩,
   ⟨win.modDie 0 (fun x => { x with basez := 8 }), 3, by decide⟩,
   ⟨win, 3, by decide⟩⟩

/-- Hypotheses of RegionLoadSequence. -/
theorem test_meets_region_load_sequence :
    (∃ (s : State) (r : Region), (s.region r).load = .none ∧ (s.loading r = true ∨ ((s.region r).poweringOff = true ∧ (s.region r).state ≠ 5)) ∧
      (s.needsDrain r = false ∨ (s.region r).state ≠ 1)) ∧
    (∃ (s : State) (r : Region), (s.region r).load = .fenced ∧ (s.region r).loadAt + 340 ≤ s.now ∧
      (s.loading r = true ∨ (s.region r).poweringOff = false)) ∧
    (∃ (s : State) (r : Region), (s.region r).load = .fenced ∧ (s.region r).loadAt + 340 ≤ s.now ∧ s.loading r = false ∧
      (s.region r).poweringOff = true) ∧
    (∃ (s : State) (r : Region) (img : StagedImage), s.cfg.staged = some img ∧ (s.region r).load = .gated ∧ s.loading r = true ∧
      (s.region r).loadAt + 10 * (80 * (regionRec img.plain r).2.2.length) ≤ s.now) ∧
    (∃ (s : State) (r : Region), (s.region r).load = .written ∧ (s.region r).loadAt + 340 ≤ s.now) ∧
    (∃ (s : State) (r : Region) (img : StagedImage), s.cfg.staged = some img ∧ (s.region r).load = .ungated ∧
      (s.region r).loadAt + 170 * (4 * (s.fabric[regionDie r]).gap) ≤ s.now) :=
  ⟨⟨imgSt ({ img1 with pass := .written, left := 8 }) (fab3 1 (fun e => { e with inFlight := [{ pkt := toFab, since := 0 }] })), 3, by decide⟩,
   ⟨{ reg3 (fun x => { x with load := .fenced }) with now := 340 }, 3, by decide⟩,
   ⟨{ reg3 (fun x => { x with load := .fenced, poweringOff := true }) with now := 340 }, 3, by decide⟩,
   ⟨imgSt ({ img1 with pass := .written, left := 8 }) ({ reg3 (fun x => { x with load := .gated }) with now := 0 }), 3,
     { img1 with pass := .written, left := 8 }, rfl, by decide +kernel, by decide +kernel, by decide +kernel⟩,
   ⟨{ reg3 (fun x => { x with load := .written }) with now := 340 }, 3, by decide⟩,
   ⟨imgSt ({ img1 with pass := .written, left := 8 }) ({ reg3 (fun x => { x with load := .ungated }) with now := 5440 }), 3,
     { img1 with pass := .written, left := 8 }, rfl, by decide +kernel, by decide +kernel⟩⟩

/-- Hypotheses of CaptureCommands. -/
theorem test_meets_capture_commands :
    (∃ (s : State) (d : Die), (s.fabric[d]).capArmed = false ∧ (s.fabric[d]).capRead = false ∧ (s.fabric[d]).capStopped = false) ∧
    (∃ (s : State) (d : Die), (s.fabric[d]).capArmed = true ∧ max 1 (s.fabric[d]).capEdge.toNat ≤ (s.fabric[d]).capCount) ∧
    (∃ (s : State) (d : Die) (frames : List Byte), Canonical s ∧ (s.fabric[d]).capRead = true ∧
      s.inMemory (s.fabric[d]).capDst.toNat (max 1 frames.length) = true ∧ ((s.fabric[d]).capLen = 0 ∨ frames.length ≤ (s.fabric[d]).capLen)) ∧
    (∃ (s : State) (d : Die) (frames : List Byte), (s.fabric[d]).capRead = true ∧
      (s.inMemory (s.fabric[d]).capDst.toNat (max 1 frames.length) = false ∨ ((s.fabric[d]).capLen ≠ 0 ∧ (s.fabric[d]).capLen < frames.length))) ∧
    (∃ (s : State) (d : Die), (s.fabric[d]).capStopped = true) :=
  ⟨⟨win, 0, by decide⟩,
   ⟨(mem0.modFab 0 (fun x => { x with capDst := 64, capArmed := true, capCount := 1, regions := vmod x.regions 3 (fun r => { r with state := 1 }) })),
     0, by decide⟩,
   ⟨(mem0.modFab 0 (fun x => { x with capDst := 64, capRead := true, capLen := 2 })), 0, [1, 2], by decide⟩,
   ⟨(mem0.modFab 0 (fun x => { x with capDst := 64, capRead := true, capLen := 2 })), 0, [1, 2, 3], by decide⟩,
   ⟨(mem0.modFab 0 (fun x => { x with capDst := 64, capStopped := true, regions := vmod x.regions 3 (fun r => { r with state := 6 }) })), 0,
     by decide⟩⟩

/-- Hypotheses of FabricImages. -/
theorem test_meets_fabric_images :
    (∃ (s : State), s.cfg.bootDue = true ∧ s.dist.alive = true ∧ s.cfg.staged = none) ∧
    (∃ (s : State), s.pwr.progLow = false ∧ s.inFullReset = false) ∧
    (∃ (s : State), s.pwr.progLow = true) ∧
    (∃ (s : State) (img : StagedImage) (bytes : List Byte) (toFlash : Bool), s.cfg.staged = some img ∧ img.pass = .staging ∧
      img.source = .load toFlash ∧ bytes = img.bytes ∧ imgCheckForm bytes 0x18000000 = (0, 0) ∧ s.imgCheckKeys bytes false = (0, 0)) ∧
    (∃ (s : State) (img : StagedImage) (bytes : List Byte), s.cfg.staged = some img ∧ img.pass = .staging ∧
      (img.source = .primary ∨ img.source = .golden) ∧
      bytes = s.flashRead (s.imageFlash img.source) (min (s.imageArea img.source) (max 128 (imgHeader (s.flashRead (s.imageFlash img.source) 128)).total)) ∧
      imgCheckForm bytes (s.imageArea img.source) = (0, 0) ∧ s.imgCheckKeys bytes (img.source == .golden) = (0, 0)) ∧
    (∃ (s : State) (img : StagedImage), s.cfg.staged = some img ∧ img.pass = .staging ∧ img.source = .primary ∧ s.cfg.code = 0) ∧
    (∃ (s : State) (img : StagedImage) (plain : List Byte) (f : ImgFault), s.cfg.staged = some img ∧ img.pass = .staged ∧
      s.imgCheckKeys img.bytes (img.source == .golden) = (0, 0) ∧ s.imgAuthenticate img.bytes = (f, plain)) ∧
    (∃ (s : State) (img : StagedImage) (vccio : Bool) (design : Bool), s.cfg.staged = some img ∧ img.pass = .authentic ∧ img.source ≠ .load true ∧
      imgCheckRecords img.bytes img.plain (Config.freeWord s.fresh).toNat = (0, 0) ∧
      imgCheckDesign img.bytes img.plain vccio design (Config.freeWord s.fresh).toNat = (0, 0) ∧ s.imgCheckPartial img.bytes = (0, 0)) ∧
    (∃ (s : State) (img : StagedImage), s.cfg.staged = some img ∧ img.pass = .authentic ∧ img.source = .load true ∧ img.logged = true ∧
      imgCheckRecords img.bytes img.plain (Config.freeWord s.fresh).toNat = (0, 0)) ∧
    (∃ (s : State) (img : StagedImage), s.cfg.staged = some img ∧ img.pass = .checked ∧ img.logged = true ∧ (imgHeader img.bytes).partialImg = false ∧
      ((∀ r : Region, s.needsDrain r = false ∨ (s.region r).state ≠ 1))) ∧
    (∃ (s : State) (img : StagedImage), s.cfg.staged = some img ∧ img.pass = .checked ∧ img.logged = true ∧ (imgHeader img.bytes).partialImg = true) ∧
    (∃ (s : State), s.cfg.state = 5 ∧ s.cfg.doneLine = false ∧ s.now < s.cfg.doneAt + 17000000 * s.cfg.doneTimeoutMs.toNat) ∧
    (∃ (s : State), s.cfg.state = 5 ∧ s.cfg.doneLine = false ∧ s.cfg.doneAt + 17000000 * s.cfg.doneTimeoutMs.toNat ≤ s.now) :=
  ⟨⟨{ win with cfg := { win.cfg with bootDue := true, boot := 1 } }, by decide⟩,
   ⟨win, by decide⟩,
   ⟨{ win with pwr := { win.pwr with progLow := true } }, by decide⟩,
   ⟨imgSt ({ img1 with pass := .staging, source := .load false }), { img1 with pass := .staging, source := .load false }, imgB, false, rfl,
     by decide +kernel, by decide +kernel, by decide +kernel, by decide +kernel, by decide +kernel⟩,
   ⟨imgP, { img1 with pass := .staging, source := .primary }, imgB, rfl, by decide +kernel, by decide +kernel, imgRead, by decide +kernel,
     by decide +kernel⟩,
   ⟨imgSt ({ img1 with pass := .staging, source := .primary }), { img1 with pass := .staging, source := .primary }, rfl, by decide +kernel,
     by decide +kernel, by decide +kernel⟩,
   ⟨imgSt ({ img1 with pass := .staged, source := .load false }), { img1 with pass := .staged, source := .load false },
     ((imgSt ({ img1 with pass := .staged, source := .load false })).imgAuthenticate imgB).2,
     ((imgSt ({ img1 with pass := .staged, source := .load false })).imgAuthenticate imgB).1, rfl, by decide +kernel, by decide +kernel, rfl⟩,
   ⟨imgSt ({ img1 with pass := .authentic, source := .load false }), { img1 with pass := .authentic, source := .load false }, true, true, rfl,
     by decide +kernel, by decide +kernel, by decide +kernel, by decide +kernel, by decide +kernel⟩,
   ⟨imgSt ({ img1 with pass := .authentic, source := .load true, logged := true }),
     { img1 with pass := .authentic, source := .load true, logged := true }, rfl, by decide +kernel, by decide +kernel, by decide +kernel,
     by decide +kernel⟩,
   ⟨imgSt ({ img1 with pass := .checked, source := .load false, logged := true, bytes := [] }),
     { img1 with pass := .checked, source := .load false, logged := true, bytes := [] }, rfl, by decide +kernel, by decide +kernel, by decide +kernel,
     by decide +kernel⟩,
   ⟨imgSt ({ img1 with pass := .checked, source := .load false, logged := true }),
     { img1 with pass := .checked, source := .load false, logged := true }, rfl, by decide +kernel, by decide +kernel, by decide +kernel⟩,
   ⟨{ win with cfg := { win.cfg with state := 5 }, now := 16999999999 }, by decide⟩,
   ⟨{ win with cfg := { win.cfg with state := 5 }, now := 17000000000 }, by decide⟩⟩

/-- Hypotheses of VectorElementwise. -/
theorem test_meets_vector_elementwise :
    (∃ (u : State) (s : State) (i : Spindle) (n : VIns) (x : SpindleState), s = reported u i ∧ Issues s i 2 n x) ∧
    (∃ (u : State) (s : State) (i : Spindle) (n : VIns) (x : SpindleState), s = reported u i ∧ Issues s i 3 n x) ∧
    (∃ (u : State) (s : State) (i : Spindle) (n : VIns) (x : SpindleState), s = reported u i ∧ Issues s i 4 n x) ∧
    (∃ (u : State) (s : State) (i : Spindle) (n : VIns) (x : SpindleState), s = reported u i ∧ Issues s i 5 n x) ∧
    (∃ (u : State) (s : State) (i : Spindle) (n : VIns) (x : SpindleState), s = reported u i ∧ Issues s i 6 n x) ∧
    (∃ (u : State) (s : State) (i : Spindle) (n : VIns) (x : SpindleState), s = reported u i ∧ Issues s i 7 n x) ∧
    (∃ (u : State) (s : State) (i : Spindle) (n : VIns) (x : SpindleState), s = reported u i ∧ Issues s i 0xA n x) ∧
    (∃ (u : State) (s : State) (i : Spindle) (n : VIns) (x : SpindleState), s = reported u i ∧ Issues s i 0x12 n x) ∧
    (∃ (u : State) (s : State) (i : Spindle) (n : VIns) (x : SpindleState), s = reported u i ∧ Issues s i 0x13 n x) ∧
    (∃ (u : State) (s : State) (i : Spindle) (n : VIns) (x : SpindleState), s = reported u i ∧ Issues s i 0x14 n x) ∧
    (∃ (u : State) (s : State) (i : Spindle) (n : VIns) (x : SpindleState), s = reported u i ∧ Issues s i 0x15 n x) ∧
    (∃ (u : State) (s : State) (i : Spindle) (n : VIns) (x : SpindleState), s = reported u i ∧ Issues s i 0x19 n x) ∧
    (∃ (u : State) (s : State) (i : Spindle) (n : VIns) (x : SpindleState), s = reported u i ∧ Issues s i 0x1A n x) ∧
    (∃ (u : State) (s : State) (i : Spindle) (n : VIns) (x : SpindleState), s = reported u i ∧ Issues s i 0x10 n x) ∧
    (∃ (u : State) (s : State) (i : Spindle) (n : VIns) (x : SpindleState), s = reported u i ∧ Issues s i 0x11 n x) ∧
    (∃ (ty : Nat) (u : Bool) (v : Int), (ty = 4 ∨ ty = 5 ∨ ty = 6) ∧ (intRange ty u).1 ≤ v ∧ v ≤ (intRange ty u).2) ∧
    (∃ (ty : Nat) (u : Bool) (v : Int), (ty = 4 ∨ ty = 5 ∨ ty = 6) ∧ (intRange ty u).2 < v) ∧
    (∃ (ty : Nat) (u : Bool) (v : Int), (ty = 4 ∨ ty = 5 ∨ ty = 6) ∧ v < (intRange ty u).1) ∧
    (∃ (ty : Nat) (v : Int) (k : Nat), (ty = 4 ∨ ty = 5 ∨ ty = 6) ∧ 0 < k ∧ 2 * (v - shiftInt v (-k) * 2 ^ k).natAbs = 2 ^ k) ∧
    (∃ (d : VDone), d.halts = false ∧ d.stalls = false ∧ d.rep = {}) ∧
    (∃ (d : VDone), d.halts = false ∧ d.stalls = false ∧ d.rep ≠ {}) ∧
    (∃ (d : VDone), d.halts = false ∧ d.stalls = false ∧ d.jumped = true) ∧
    (∃ (d : VDone), d.halts = false ∧ d.stalls = false ∧ d.jumped = false ∧ (∀ l ∈ d.x.vec.active.head?, d.x.vec.pc.toNat ≠ l.stop)) ∧
    (∃ (d : VDone) (l : _) (ls : _), d.halts = false ∧ d.stalls = false ∧ d.jumped = false ∧ d.x.vec.active = l :: ls ∧ d.x.vec.pc.toNat = l.stop ∧
      1 < l.left) ∧
    (∃ (s : State) (i : Spindle), (∀ r ∈ (s.spindles[i]).vec.reports, (s.spindles[i]).vec.cycle < r.due)) ∧
    (∃ (s : State) (i : Spindle) (r : VecReport) (l : List VecReport), (s.spindles[i]).vec.reports = r :: l ∧ r.due ≤ (s.spindles[i]).vec.cycle ∧
      (∀ q ∈ l, (s.spindles[i]).vec.cycle < q.due) ∧ r.rep.fault (s.spindles[i]).num.mask = 0) ∧
    (∃ (s : State) (i : Spindle) (r : VecReport) (l : List VecReport), (s.spindles[i]).vec.reports = r :: l ∧ r.due ≤ (s.spindles[i]).vec.cycle ∧
      (∀ q ∈ l, (s.spindles[i]).vec.cycle < q.due) ∧ r.rep.fault (s.spindles[i]).num.mask ≠ 0 ∧ s.stepOpen = true ∧ s.step.cause = 0) ∧
    (∃ (r : NumRep) (m : BitVec 7) (b : Nat), b < 7 ∧ r.flags.getLsbD b = true ∧ m.getLsbD b = true ∧ (∀ a : Nat, a < b →
      ¬ (r.flags.getLsbD a = true ∧ m.getLsbD a = true))) :=
  ⟨⟨ve (vi 2 4 1 2 3 0 0), ve (vi 2 4 1 2 3 0 0), 5, parseVec (vi 2 4 1 2 3 0 0), (ve (vi 2 4 1 2 3 0 0)).vecAt 5, rfl, ⟨rfl, rfl, rfl, Or.inl rfl,
     fun h => absurd h (by decide), rfl, rfl, rfl, rfl⟩⟩,
   ⟨ve (vi 3 4 1 2 3 0 0), ve (vi 3 4 1 2 3 0 0), 5, parseVec (vi 3 4 1 2 3 0 0), (ve (vi 3 4 1 2 3 0 0)).vecAt 5, rfl, ⟨rfl, rfl, rfl, Or.inl rfl,
     fun h => absurd h (by decide), rfl, rfl, rfl, rfl⟩⟩,
   ⟨ve (vi 4 4 1 2 3 0 0), ve (vi 4 4 1 2 3 0 0), 5, parseVec (vi 4 4 1 2 3 0 0), (ve (vi 4 4 1 2 3 0 0)).vecAt 5, rfl, ⟨rfl, rfl, rfl, Or.inl rfl,
     fun h => absurd h (by decide), rfl, rfl, rfl, rfl⟩⟩,
   ⟨ve (vi 5 4 1 2 3 0 0), ve (vi 5 4 1 2 3 0 0), 5, parseVec (vi 5 4 1 2 3 0 0), (ve (vi 5 4 1 2 3 0 0)).vecAt 5, rfl, ⟨rfl, rfl, rfl, Or.inl rfl,
     fun h => absurd h (by decide), rfl, rfl, rfl, rfl⟩⟩,
   ⟨ve (vi 6 4 1 2 3 0 0), ve (vi 6 4 1 2 3 0 0), 5, parseVec (vi 6 4 1 2 3 0 0), (ve (vi 6 4 1 2 3 0 0)).vecAt 5, rfl, ⟨rfl, rfl, rfl, Or.inl rfl,
     fun h => absurd h (by decide), rfl, rfl, rfl, rfl⟩⟩,
   ⟨ve (vi 7 4 1 2 3 0 0), ve (vi 7 4 1 2 3 0 0), 5, parseVec (vi 7 4 1 2 3 0 0), (ve (vi 7 4 1 2 3 0 0)).vecAt 5, rfl, ⟨rfl, rfl, rfl, Or.inl rfl,
     fun h => absurd h (by decide), rfl, rfl, rfl, rfl⟩⟩,
   ⟨ve (vi 10 4 1 2 3 0 4), ve (vi 10 4 1 2 3 0 4), 5, parseVec (vi 10 4 1 2 3 0 4), (ve (vi 10 4 1 2 3 0 4)).vecAt 5, rfl, ⟨rfl, rfl, rfl,
     Or.inl rfl, fun h => absurd h (by decide), rfl, rfl, rfl, rfl⟩⟩,
   ⟨ve (vi 18 4 1 2 3 0 0), ve (vi 18 4 1 2 3 0 0), 5, parseVec (vi 18 4 1 2 3 0 0), (ve (vi 18 4 1 2 3 0 0)).vecAt 5, rfl, ⟨rfl, rfl, rfl,
     Or.inl rfl, fun h => absurd h (by decide), rfl, rfl, rfl, rfl⟩⟩,
   ⟨ve (vi 19 4 1 2 3 0 0), ve (vi 19 4 1 2 3 0 0), 5, parseVec (vi 19 4 1 2 3 0 0), (ve (vi 19 4 1 2 3 0 0)).vecAt 5, rfl, ⟨rfl, rfl, rfl,
     Or.inl rfl, fun h => absurd h (by decide), rfl, rfl, rfl, rfl⟩⟩,
   ⟨ve (vi 20 4 1 2 3 0 0), ve (vi 20 4 1 2 3 0 0), 5, parseVec (vi 20 4 1 2 3 0 0), (ve (vi 20 4 1 2 3 0 0)).vecAt 5, rfl, ⟨rfl, rfl, rfl,
     Or.inl rfl, fun h => absurd h (by decide), rfl, rfl, rfl, rfl⟩⟩,
   ⟨ve (vi 21 4 1 2 3 0 0), ve (vi 21 4 1 2 3 0 0), 5, parseVec (vi 21 4 1 2 3 0 0), (ve (vi 21 4 1 2 3 0 0)).vecAt 5, rfl, ⟨rfl, rfl, rfl,
     Or.inl rfl, fun h => absurd h (by decide), rfl, rfl, rfl, rfl⟩⟩,
   ⟨ve (vi 25 4 1 2 3 0 0), ve (vi 25 4 1 2 3 0 0), 5, parseVec (vi 25 4 1 2 3 0 0), (ve (vi 25 4 1 2 3 0 0)).vecAt 5, rfl, ⟨rfl, rfl, rfl,
     Or.inl rfl, fun h => absurd h (by decide), rfl, rfl, rfl, rfl⟩⟩,
   ⟨ve (vi 26 4 1 2 3 0 0), ve (vi 26 4 1 2 3 0 0), 5, parseVec (vi 26 4 1 2 3 0 0), (ve (vi 26 4 1 2 3 0 0)).vecAt 5, rfl, ⟨rfl, rfl, rfl,
     Or.inl rfl, fun h => absurd h (by decide), rfl, rfl, rfl, rfl⟩⟩,
   ⟨ve (vi 16 4 1 2 3 0 0), ve (vi 16 4 1 2 3 0 0), 5, parseVec (vi 16 4 1 2 3 0 0), (ve (vi 16 4 1 2 3 0 0)).vecAt 5, rfl, ⟨rfl, rfl, rfl,
     Or.inl rfl, fun h => absurd h (by decide), rfl, rfl, rfl, rfl⟩⟩,
   ⟨ve (vi 17 4 1 2 3 0 0), ve (vi 17 4 1 2 3 0 0), 5, parseVec (vi 17 4 1 2 3 0 0), (ve (vi 17 4 1 2 3 0 0)).vecAt 5, rfl, ⟨rfl, rfl, rfl,
     Or.inl rfl, fun h => absurd h (by decide), rfl, rfl, rfl, rfl⟩⟩,
   ⟨6, false, -128, by decide⟩,
   ⟨6, true, 256, by decide⟩,
   ⟨5, false, -32769, by decide⟩,
   ⟨4, 5, 1, by decide⟩,
   ⟨{ x := (State.reset).spindles[(5 : Spindle)] }, by decide +kernel⟩,
   ⟨{ x := (State.reset).spindles[(5 : Spindle)], rep := { code := 0x0313 } }, by decide⟩,
   ⟨{ x := (State.reset).spindles[(5 : Spindle)], jumped := true }, by decide⟩,
   ⟨{ x := (State.reset).spindles[(5 : Spindle)] }, by decide⟩,
   ⟨{ x := loopX }, ({ start := 0, stop := 0, left := 2 } : VecLoop), [], by decide⟩,
   ⟨(ve (vi 1) (fun x => { x with vec := { x.vec with cycle := 5, reports := [{ due := 6, rep := { flags := 1 } }] } })), 5, by decide⟩,
   ⟨(ve (vi 1) (fun x => { x with num := { x.num with mask := 0 }, vec := { x.vec with cycle := 6, reports := [{ due := 6, rep := { flags := 8, sat := 2 } }] } })),
     5, ({ due := 6, rep := { flags := 8, sat := 2 } } : VecReport), [], by decide⟩,
   ⟨(ve (vi 1) (fun x => { x with num := { x.num with mask := 8 }, vec := { x.vec with cycle := 6, reports := [{ due := 6, rep := { flags := 8 } }] } })),
     5, ({ due := 6, rep := { flags := 8 } } : VecReport), [], by decide⟩,
   ⟨{ flags := 0x48 }, 0x7F, 3, by decide +kernel⟩⟩

/-- Hypotheses of VectorOperands. -/
theorem test_meets_vector_operands :
    (∃ (x : SpindleState) (a : Nat) (n : Nat) (align : Nat) (o : Nat) (disp : Int), x.place a n align disp = .ok o) ∧
    (∃ (x : SpindleState) (a : Nat) (n : Nat) (align : Nat) (disp : Int) (e : VFault), x.place a n align disp = .error e) ∧
    (∃ (x : SpindleState) (s : Nat) (n : Nat) (align : Nat) (o : Nat), x.place (specAdr s) n align 0 = .ok o ∧ x.bad o n = false) ∧
    (∃ (x : SpindleState) (s : Nat) (n : Nat) (align : Nat) (o : Nat), x.place (specAdr s) n align 0 = .ok o ∧ x.bad o n = true) ∧
    (∃ (s : Nat) (h : specAdr s < 15), specMem s = true ∧ bit s 4 = true) ∧
    (∃ (s : Nat) (h : specAdr s < 15), (specMem s = false ∨ bit s 4 = false)) ∧
    (∃ (x : SpindleState) (s : Nat), specMem s = false ∧ (∀ w ∈ x.vec.regWrites, w.reg ≠ specReg s)) ∧
    (∃ (x : SpindleState) (c : VCtx) (k : Nat) (s : Nat) (bs : List Byte) (y : SpindleState), specMem s = true ∧
      x.memOperand (c.free + 2048 + 256 * k) s 256 c.ins.align = .ok (bs, y)) :=
  ⟨⟨((ve (vi 1)).spindles[(5 : Spindle)]), 0, 256, 256, 0x1FFF00, 0x1FEF00, okP (by decide +kernel)⟩,
   ⟨((ve (vi 1)).spindles[(5 : Spindle)]), 14, 256, 256, 0x3A000, .cause 2, errP (by decide +kernel)⟩,
   ⟨((ve (vi 1)).spindles[(5 : Spindle)]), 0x50, 256, 256, 0x1000, okP (by decide +kernel), by decide +kernel⟩,
   ⟨(((ve (vi 1)).spindles[(5 : Spindle)]).putBytes 0x1000 [1]).noteBad 0x1000 1 true, 0x50, 256, 256, 0x1000, okP (by decide +kernel),
     by decide +kernel⟩,
   ⟨0x5E, (by decide), by decide⟩,
   ⟨0x4E, (by decide), by decide⟩,
   ⟨((ve (vi 1)).spindles[(5 : Spindle)]), 31, by decide⟩,
   ⟨((ve (vi 1)).spindles[(5 : Spindle)]), (vecCtx (ve (vi 1)) 5 (parseVec (vi 1))), 0, 0x50,
     (getE (((ve (vi 1)).spindles[(5 : Spindle)]).memOperand ((vecCtx (ve (vi 1)) 5 (parseVec (vi 1))).free + 2048 + 256 * 0) 0x50 256 (vecCtx (ve (vi 1)) 5 (parseVec (vi 1))).ins.align)).1,
     (getE (((ve (vi 1)).spindles[(5 : Spindle)]).memOperand ((vecCtx (ve (vi 1)) 5 (parseVec (vi 1))).free + 2048 + 256 * 0) 0x50 256 (vecCtx (ve (vi 1)) 5 (parseVec (vi 1))).ins.align)).2,
     by decide +kernel, okE rfl⟩⟩

/-- Hypotheses of VectorSelects. -/
theorem test_meets_vector_selects :
    (∃ (u : State) (s : State) (i : Spindle) (n : VIns) (x : SpindleState) (y : SpindleState) (ss : List Src), s = reported u i ∧ Issues s i 9 n x ∧
      pathsOk i [n.s1, n.s2] = true ∧ readSrcs (vecCtx s i n) [n.s1, n.s2] 0 x = .ok (ss, y) ∧ Takes (vecCtx s i n) y (tyCount n.ty)) ∧
    (∃ (u : State) (s : State) (i : Spindle) (n : VIns) (x : SpindleState) (y : SpindleState) (ss : List Src), s = reported u i ∧ Issues s i 0xB n x ∧
      pathsOk i [n.s1, n.s2] = true ∧ readSrcs (vecCtx s i n) [n.s1, n.s2] 0 x = .ok (ss, y) ∧ Takes (vecCtx s i n) y (tyCount n.ty)) ∧
    (∃ (u : State) (s : State) (i : Spindle) (n : VIns) (x : SpindleState) (y : SpindleState) (ss : List Src), s = reported u i ∧
      Issues s i 0x18 n x ∧ readSrcs (vecCtx s i n) [n.s1] 0 x = .ok (ss, y) ∧ Takes (vecCtx s i n) y (tyCount n.ty)) ∧
    (∃ (u : State) (s : State) (i : Spindle) (n : VIns) (x : SpindleState) (y : SpindleState) (ss : List Src) (k : Nat) (so : Nat) (dd : Nat),
      s = reported u i ∧ k = min (tyCount (n.fn % 8)) (tyCount n.ty) ∧ so = (if bit n.fn 3 = true ∧
      tyCount n.ty < tyCount (n.fn % 8) then tyCount (n.fn % 8) / 2 else 0) ∧ dd = (if bit n.fn 3 = true ∧ tyCount (n.fn % 8) < tyCount n.ty ∧
      specMem n.dst = false then tyCount n.ty / 2 else 0) ∧ Issues s i 0x22 n x ∧ readSrcs (vecCtx s i n) [n.s1] 0 x = .ok (ss, y) ∧
      Takes (vecCtx s i n) y (dd + k)) ∧
    (∃ (u : State) (s : State) (i : Spindle) (n : VIns) (x : SpindleState) (y : SpindleState) (ss : List Src), s = reported u i ∧
      Issues s i 0x25 n x ∧ readSrcs (vecCtx s i n) [n.s1] 0 x = .ok (ss, y) ∧ Takes (vecCtx s i n) y (min (tyCount (bits n.fn 4 2)) (tyCount n.ty))) ∧
    (∃ (u : State) (s : State) (i : Spindle) (n : VIns) (x : SpindleState), s = reported u i ∧ Issues s i 0x20 n x ∧ specMem n.s1 = false) ∧
    (∃ (u : State) (s : State) (i : Spindle) (n : VIns) (x : SpindleState) (y : SpindleState) (bs : _), s = reported u i ∧ Issues s i 0x20 n x ∧
      specMem n.s1 = true ∧ x.memOperand (s.fresh + 2048) n.s1 256 256 = .ok (bs, y) ∧ Takes (vecCtx s i n) y (tyCount n.ty)) ∧
    (∃ (u : State) (s : State) (i : Spindle) (n : VIns) (x : SpindleState), s = reported u i ∧ Issues s i 0x21 n x ∧ specMem n.dst = false) ∧
    (∃ (u : State) (s : State) (i : Spindle) (n : VIns) (x : SpindleState) (y : SpindleState) (ss : List Src), s = reported u i ∧
      Issues s i 0x21 n x ∧ specMem n.dst = true ∧ readSrcs (vecCtx s i n) [n.s1] 0 x = .ok (ss, y) ∧ Takes (vecCtx s i n) y (tyCount n.ty)) ∧
    (∃ (u : State) (s : State) (i : Spindle) (n : VIns) (x : SpindleState) (y : SpindleState) (bs : _), s = reported u i ∧ Issues s i 0x24 n x ∧
      specMem n.s1 = true ∧ x.memOperand (s.fresh + 2048) n.s1 64 64 = .ok (bs, y)) :=
  ⟨⟨ve (vi 9 4 1 2), ve (vi 9 4 1 2), 5, parseVec (vi 9 4 1 2), (ve (vi 9 4 1 2)).vecAt 5,
     (getE (readSrcs (vecCtx (ve (vi 9 4 1 2)) 5 (parseVec (vi 9 4 1 2))) [1, 2] 0 ((ve (vi 9 4 1 2)).vecAt 5))).2,
     (getE (readSrcs (vecCtx (ve (vi 9 4 1 2)) 5 (parseVec (vi 9 4 1 2))) [1, 2] 0 ((ve (vi 9 4 1 2)).vecAt 5))).1, rfl, ⟨rfl, rfl, rfl, Or.inl rfl,
     fun h => absurd h (by decide), rfl, rfl, rfl, rfl⟩, by decide +kernel, okE rfl, Or.inl rfl⟩,
   ⟨ve (vi 0xB 4 1 2 0 0 4), ve (vi 0xB 4 1 2 0 0 4), 5, parseVec (vi 0xB 4 1 2 0 0 4), (ve (vi 0xB 4 1 2 0 0 4)).vecAt 5,
     (getE (readSrcs (vecCtx (ve (vi 0xB 4 1 2 0 0 4)) 5 (parseVec (vi 0xB 4 1 2 0 0 4))) [1, 2] 0 ((ve (vi 0xB 4 1 2 0 0 4)).vecAt 5))).2,
     (getE (readSrcs (vecCtx (ve (vi 0xB 4 1 2 0 0 4)) 5 (parseVec (vi 0xB 4 1 2 0 0 4))) [1, 2] 0 ((ve (vi 0xB 4 1 2 0 0 4)).vecAt 5))).1, rfl, ⟨rfl,
     rfl, rfl, Or.inl rfl, fun h => absurd h (by decide), rfl, rfl, rfl, rfl⟩, by decide +kernel, okE rfl, Or.inl rfl⟩,
   ⟨ve (vi 0x18 4 1), ve (vi 0x18 4 1), 5, parseVec (vi 0x18 4 1), (ve (vi 0x18 4 1)).vecAt 5,
     (getE (readSrcs (vecCtx (ve (vi 0x18 4 1)) 5 (parseVec (vi 0x18 4 1))) [1] 0 ((ve (vi 0x18 4 1)).vecAt 5))).2,
     (getE (readSrcs (vecCtx (ve (vi 0x18 4 1)) 5 (parseVec (vi 0x18 4 1))) [1] 0 ((ve (vi 0x18 4 1)).vecAt 5))).1, rfl, ⟨rfl, rfl, rfl, Or.inl rfl,
     fun h => absurd h (by decide), rfl, rfl, rfl, rfl⟩, okE rfl, Or.inl rfl⟩,
   ⟨ve (vi 0x22 4 1 0 0 11), ve (vi 0x22 4 1 0 0 11), 5, parseVec (vi 0x22 4 1 0 0 11), (ve (vi 0x22 4 1 0 0 11)).vecAt 5,
     (getE (readSrcs (vecCtx (ve (vi 0x22 4 1 0 0 11)) 5 (parseVec (vi 0x22 4 1 0 0 11))) [1] 0 ((ve (vi 0x22 4 1 0 0 11)).vecAt 5))).2,
     (getE (readSrcs (vecCtx (ve (vi 0x22 4 1 0 0 11)) 5 (parseVec (vi 0x22 4 1 0 0 11))) [1] 0 ((ve (vi 0x22 4 1 0 0 11)).vecAt 5))).1, 32, 0, 32,
     rfl, by decide +kernel, by decide +kernel, by decide +kernel, ⟨rfl, rfl, rfl, Or.inl rfl, fun h => absurd h (by decide), rfl, rfl, rfl, rfl⟩,
     okE rfl, Or.inl rfl⟩,
   ⟨ve (vi 0x25 4 1 0 0 16), ve (vi 0x25 4 1 0 0 16), 5, parseVec (vi 0x25 4 1 0 0 16), (ve (vi 0x25 4 1 0 0 16)).vecAt 5,
     (getE (readSrcs (vecCtx (ve (vi 0x25 4 1 0 0 16)) 5 (parseVec (vi 0x25 4 1 0 0 16))) [1] 0 ((ve (vi 0x25 4 1 0 0 16)).vecAt 5))).2,
     (getE (readSrcs (vecCtx (ve (vi 0x25 4 1 0 0 16)) 5 (parseVec (vi 0x25 4 1 0 0 16))) [1] 0 ((ve (vi 0x25 4 1 0 0 16)).vecAt 5))).1, rfl, ⟨rfl,
     rfl, rfl, Or.inl rfl, fun h => absurd h (by decide), rfl, rfl, rfl, rfl⟩, okE rfl, Or.inl rfl⟩,
   ⟨ve (vi 0x20 4 1), ve (vi 0x20 4 1), 5, parseVec (vi 0x20 4 1), (ve (vi 0x20 4 1)).vecAt 5, rfl, ⟨rfl, rfl, rfl, Or.inl rfl,
     fun h => absurd h (by decide), rfl, rfl, rfl, rfl⟩, by decide +kernel⟩,
   ⟨ve (vi 0x20 4 0x50), ve (vi 0x20 4 0x50), 5, parseVec (vi 0x20 4 0x50), (ve (vi 0x20 4 0x50)).vecAt 5,
     (getE (((ve (vi 0x20 4 0x50)).vecAt 5).memOperand 2048 0x50 256 256)).2, (getE (((ve (vi 0x20 4 0x50)).vecAt 5).memOperand 2048 0x50 256 256)).1,
     rfl, ⟨rfl, rfl, rfl, Or.inl rfl, fun h => absurd h (by decide), rfl, rfl, rfl, rfl⟩, by decide +kernel, okE rfl, Or.inl rfl⟩,
   ⟨ve (vi 0x21 4 1), ve (vi 0x21 4 1), 5, parseVec (vi 0x21 4 1), (ve (vi 0x21 4 1)).vecAt 5, rfl, ⟨rfl, rfl, rfl, Or.inl rfl,
     fun h => absurd h (by decide), rfl, rfl, rfl, rfl⟩, by decide +kernel⟩,
   ⟨ve (vi 0x21 0x50 1), ve (vi 0x21 0x50 1), 5, parseVec (vi 0x21 0x50 1), (ve (vi 0x21 0x50 1)).vecAt 5,
     (getE (readSrcs (vecCtx (ve (vi 0x21 0x50 1)) 5 (parseVec (vi 0x21 0x50 1))) [1] 0 ((ve (vi 0x21 0x50 1)).vecAt 5))).2,
     (getE (readSrcs (vecCtx (ve (vi 0x21 0x50 1)) 5 (parseVec (vi 0x21 0x50 1))) [1] 0 ((ve (vi 0x21 0x50 1)).vecAt 5))).1, rfl, ⟨rfl, rfl, rfl,
     Or.inl rfl, fun h => absurd h (by decide), rfl, rfl, rfl, rfl⟩, by decide +kernel, okE rfl, Or.inr ⟨0x1000, okP (by decide +kernel),
     by decide +kernel⟩⟩,
   ⟨ve (vi 0x24 0 0x50), ve (vi 0x24 0 0x50), 5, parseVec (vi 0x24 0 0x50), (ve (vi 0x24 0 0x50)).vecAt 5,
     (getE (((ve (vi 0x24 0 0x50)).vecAt 5).memOperand 2048 0x50 64 64)).2, (getE (((ve (vi 0x24 0 0x50)).vecAt 5).memOperand 2048 0x50 64 64)).1,
     rfl, ⟨rfl, rfl, rfl, Or.inl rfl, fun h => absurd h (by decide), rfl, rfl, rfl, rfl⟩, by decide +kernel, okE rfl⟩⟩

/-- Hypotheses of VectorStoresAndTaps. -/
theorem test_meets_vector_stores_and_taps :
    (∃ (u : State) (s : State) (i : Spindle) (n : VIns) (x : SpindleState) (y : SpindleState) (ss : List Src) (q : StoreSlot) (fmt : Nat) (k : Nat) (nb : Nat) (o : Nat) (es : List (Val × Nat × Nat)) (bl : List (Byte × List Nat)),
      s = reported u i ∧ Issues s i 0x23 n x ∧ specMem n.dst = true ∧ x.vec.slots[n.fn % 4] = some q ∧ q.ok = true ∧ q.formatOk = true ∧
      fmt = field q.raw 0 1 ∧ k = min 64 (field q.raw 8 4 - q.col) ∧ nb = ceilDiv (k * storeBits fmt) 8 ∧
      readSrcs (vecCtx s i n) [n.s1] 0 x = .ok (ss, y) ∧ y.place (specAdr n.dst) nb (pow2Above nb) 0 = .ok o ∧ y.protects o nb = false ∧
      es = q.elems s.seed k ((src ss 0).any n.ty) ∧
      bl = (List.range (ceilDiv k 32)).map (fun j => mxBlock fmt (field q.raw 1 1) (((es.drop (32 * j)).take 32).map (·.2.2)) (((es.drop (32 * j)).take 32).map (·.1))) ∧
      (fmt = 8 ∨ fmt = 9)) ∧
    (∃ (u : State) (s : State) (i : Spindle) (n : VIns) (x : SpindleState) (y : SpindleState) (ss : List Src) (q : StoreSlot) (fmt : Nat) (k : Nat) (nb : Nat) (o : Nat) (es : List (Val × Nat × Nat)) (bl : List (Byte × List Nat)) (sa : Nat),
      s = reported u i ∧ Issues s i 0x23 n x ∧ specMem n.dst = true ∧ x.vec.slots[n.fn % 4] = some q ∧ q.ok = true ∧ q.formatOk = true ∧
      fmt = field q.raw 0 1 ∧ k = min 64 (field q.raw 8 4 - q.col) ∧ nb = ceilDiv (k * storeBits fmt) 8 ∧
      readSrcs (vecCtx s i n) [n.s1] 0 x = .ok (ss, y) ∧ y.place (specAdr n.dst) nb (pow2Above nb) 0 = .ok o ∧ y.protects o nb = false ∧
      es = q.elems s.seed k ((src ss 0).any n.ty) ∧
      bl = (List.range (ceilDiv k 32)).map (fun j => mxBlock fmt (field q.raw 1 1) (((es.drop (32 * j)).take 32).map (·.2.2)) (((es.drop (32 * j)).take 32).map (·.1))) ∧
      10 ≤ fmt ∧ q.col % 32 = 0 ∧ sa = field q.raw 0xC 4 + q.row * field q.raw 0x10 4 + q.col / 32 ∧ sa + bl.length ≤ 0x600000 ∧
      y.protects sa bl.length = false) ∧
    (∃ (u : State) (s : State) (i : Spindle) (n : VIns) (x : SpindleState), s = reported u i ∧ Issues s i 0x23 n x ∧ specMem n.dst = true ∧
      x.vec.slots[n.fn % 4] = none) ∧
    (∃ (u : State) (s : State) (i : Spindle) (n : VIns) (x : SpindleState) (q : _), s = reported u i ∧ Issues s i 0x23 n x ∧ specMem n.dst = true ∧
      x.vec.slots[n.fn % 4] = some q ∧ q.ok = false) ∧
    (∃ (u : State) (s : State) (i : Spindle) (n : VIns) (x : SpindleState) (q : _), s = reported u i ∧ Issues s i 0x23 n x ∧ specMem n.dst = true ∧
      x.vec.slots[n.fn % 4] = some q ∧ q.ok = true ∧ q.formatOk = false) ∧
    (∃ (u : State) (s : State) (i : Spindle) (n : VIns) (x : SpindleState) (y : SpindleState) (ss : List Src) (size : Nat) (o : Nat) (next : Option Nat) (x1 : SpindleState) (bs : List Byte),
      s = reported u i ∧ Issues s i 0x26 n x ∧ specMem n.s1 = true ∧ specMem n.s2 = false ∧ specMem n.dst = false ∧
      size = (if isF n.ty then 256 else 128) ∧ x.place (specAdr n.s1) size size 0 = .ok o ∧ x.fetch (s.fresh + 2048) o size = .ok bs ∧ ((next = none ∧
      bit n.fn 17 = true ∧ x1 = x.post n.s1 ∨ (∃ t, next = some t ∧ bit n.fn 17 = false ∧ bit n.fn 16 = false ∧ x1 = x.post n.s1 ∧
      x.place (specAdr n.s1) size size (sbits 9 (bits n.fn 15 7) * 256) = .ok t) ∨ (∃ t, next = some t ∧ bit n.fn 17 = false ∧ bit n.fn 16 = true ∧
      specMem n.s3 = true ∧ (x.post n.s1).place (specAdr n.s3) size size 0 = .ok t ∧ x1 = (x.post n.s1).post n.s3))) ∧ (∀ t, next = some t →
      x1.protects t size = false) ∧ readSrcs (vecCtx s i n) [n.s2] 1 x1 = .ok (ss, y)) ∧
    (∃ (u : State) (s : State) (i : Spindle) (n : VIns) (x : SpindleState) (y : SpindleState) (ss : List Src) (r : Nat), s = reported u i ∧
      Issues s i 0x28 n x ∧ specMem n.dst = false ∧ r = n.fn % 16 ∧ readSrcs (vecCtx s i n) [n.s1] 0 x = .ok (ss, y)) ∧
    (∃ (u : State) (s : State) (i : Spindle) (n : VIns) (x : SpindleState) (y : SpindleState) (ss : List Src) (r : Nat), s = reported u i ∧
      Issues s i 0x29 n x ∧ specMem n.dst = false ∧ r = n.fn % 16 ∧ readSrcs (vecCtx s i n) [n.s2] 1 x = .ok (ss, y) ∧ 2 ^ 24 < (src ss 0).raw 4 0) ∧
    (∃ (u : State) (s : State) (i : Spindle) (n : VIns) (x : SpindleState) (y : SpindleState) (ss : List Src) (r : Nat), s = reported u i ∧
      Issues s i 0x29 n x ∧ specMem n.dst = false ∧ r = n.fn % 16 ∧ readSrcs (vecCtx s i n) [n.s2] 1 x = .ok (ss, y) ∧ (src ss 0).raw 4 0 ≤ 2 ^ 24) :=
  ⟨⟨vsSt 8, vsSt 8, 5, parseVec vsW, (vsSt 8).vecAt 5, (vsR 8).2, (vsR 8).1, vsQ 8, 8, 64, 32, 0x1000, vsE 8, vsB 8, rfl, ⟨rfl, rfl, rfl, Or.inl rfl,
     fun h => absurd h (by decide), rfl, rfl, rfl, rfl⟩, by decide +kernel, rfl, by decide +kernel, by decide +kernel, by decide +kernel,
     by decide +kernel, by decide +kernel, okE rfl, okP (by decide +kernel), by decide +kernel, rfl, rfl, by decide +kernel⟩,
   ⟨vsSt 10, vsSt 10, 5, parseVec vsW, (vsSt 10).vecAt 5, (vsR 10).2, (vsR 10).1, vsQ 10, 10, 64, 64, 0x1000, vsE 10, vsB 10, 0, rfl, ⟨rfl, rfl, rfl,
     Or.inl rfl, fun h => absurd h (by decide), rfl, rfl, rfl, rfl⟩, by decide +kernel, rfl, by decide +kernel, by decide +kernel, by decide +kernel,
     by decide +kernel, by decide +kernel, okE rfl, okP (by decide +kernel), by decide +kernel, rfl, rfl, by decide +kernel, by decide +kernel,
     by decide +kernel, by decide +kernel, by decide +kernel⟩,
   ⟨ve (vi 0x23 0x50 1), ve (vi 0x23 0x50 1), 5, parseVec (vi 0x23 0x50 1), (ve (vi 0x23 0x50 1)).vecAt 5, rfl, ⟨rfl, rfl, rfl, Or.inl rfl,
     fun h => absurd h (by decide), rfl, rfl, rfl, rfl⟩, by decide +kernel, by decide +kernel⟩,
   ⟨ve (vi 0x23 0x50 1) (fun x => { x with vec := { x.vec with slots := x.vec.slots.set 0 (some { raw := zb 64 [(0, 1, 0), (1, 1, 8), (8, 4, 64)], row := 0, col := 0 }) } }),
     ve (vi 0x23 0x50 1) (fun x => { x with vec := { x.vec with slots := x.vec.slots.set 0 (some { raw := zb 64 [(0, 1, 0), (1, 1, 8), (8, 4, 64)], row := 0, col := 0 }) } }),
     5, parseVec (vi 0x23 0x50 1),
     (ve (vi 0x23 0x50 1) (fun x => { x with vec := { x.vec with slots := x.vec.slots.set 0 (some { raw := zb 64 [(0, 1, 0), (1, 1, 8), (8, 4, 64)], row := 0, col := 0 }) } })).vecAt 5,
     { raw := zb 64 [(0, 1, 0), (1, 1, 8), (8, 4, 64)], row := 0, col := 0 }, rfl, ⟨rfl, rfl, rfl, Or.inl rfl, fun h => absurd h (by decide), rfl,
     rfl, rfl, rfl⟩, by decide +kernel, rfl, by decide +kernel⟩,
   ⟨ve (vi 0x23 0x50 1) (fun x => { x with vec := { x.vec with slots := x.vec.slots.set 0 (some { raw := zb 64 [(0, 1, 13), (1, 1, 0), (8, 4, 64)], row := 0, col := 0 }) } }),
     ve (vi 0x23 0x50 1) (fun x => { x with vec := { x.vec with slots := x.vec.slots.set 0 (some { raw := zb 64 [(0, 1, 13), (1, 1, 0), (8, 4, 64)], row := 0, col := 0 }) } }),
     5, parseVec (vi 0x23 0x50 1),
     (ve (vi 0x23 0x50 1) (fun x => { x with vec := { x.vec with slots := x.vec.slots.set 0 (some { raw := zb 64 [(0, 1, 13), (1, 1, 0), (8, 4, 64)], row := 0, col := 0 }) } })).vecAt 5,
     { raw := zb 64 [(0, 1, 13), (1, 1, 0), (8, 4, 64)], row := 0, col := 0 }, rfl, ⟨rfl, rfl, rfl, Or.inl rfl, fun h => absurd h (by decide), rfl,
     rfl, rfl, rfl⟩, by decide +kernel, rfl, by decide +kernel, by decide +kernel⟩,
   ⟨ve (vi 0x26 3 0x50 1 0 (2 ^ 17)), ve (vi 0x26 3 0x50 1 0 (2 ^ 17)), 5, parseVec (vi 0x26 3 0x50 1 0 (2 ^ 17)),
     (ve (vi 0x26 3 0x50 1 0 (2 ^ 17))).vecAt 5,
     (getE (readSrcs (vecCtx (ve (vi 0x26 3 0x50 1 0 (2 ^ 17))) 5 (parseVec (vi 0x26 3 0x50 1 0 (2 ^ 17)))) [1] 1 (((ve (vi 0x26 3 0x50 1 0 (2 ^ 17))).vecAt 5).post 0x50))).2,
     (getE (readSrcs (vecCtx (ve (vi 0x26 3 0x50 1 0 (2 ^ 17))) 5 (parseVec (vi 0x26 3 0x50 1 0 (2 ^ 17)))) [1] 1 (((ve (vi 0x26 3 0x50 1 0 (2 ^ 17))).vecAt 5).post 0x50))).1,
     256, 0x1000, none, (((ve (vi 0x26 3 0x50 1 0 (2 ^ 17))).vecAt 5).post 0x50),
     getB (((ve (vi 0x26 3 0x50 1 0 (2 ^ 17))).vecAt 5).fetch 2048 0x1000 256), rfl, ⟨rfl, rfl, rfl, Or.inl rfl, fun h => absurd h (by decide), rfl,
     rfl, rfl, rfl⟩, by decide +kernel, by decide +kernel, by decide +kernel, by decide +kernel, okP (by decide +kernel), okB rfl, Or.inl ⟨rfl,
     by decide, rfl⟩, (by intro t h; cases h), okE rfl⟩,
   ⟨ve (vi 0x28 4 1 0 0 (63 * 32 + 16 + 15)), ve (vi 0x28 4 1 0 0 (63 * 32 + 16 + 15)), 5, parseVec (vi 0x28 4 1 0 0 (63 * 32 + 16 + 15)),
     (ve (vi 0x28 4 1 0 0 (63 * 32 + 16 + 15))).vecAt 5,
     (getE (readSrcs (vecCtx (ve (vi 0x28 4 1 0 0 (63 * 32 + 16 + 15))) 5 (parseVec (vi 0x28 4 1 0 0 (63 * 32 + 16 + 15)))) [1] 0 ((ve (vi 0x28 4 1 0 0 (63 * 32 + 16 + 15))).vecAt 5))).2,
     (getE (readSrcs (vecCtx (ve (vi 0x28 4 1 0 0 (63 * 32 + 16 + 15))) 5 (parseVec (vi 0x28 4 1 0 0 (63 * 32 + 16 + 15)))) [1] 0 ((ve (vi 0x28 4 1 0 0 (63 * 32 + 16 + 15))).vecAt 5))).1,
     15, rfl, ⟨rfl, rfl, rfl, Or.inl rfl, fun h => absurd h (by decide), rfl, rfl, rfl, rfl⟩, by decide +kernel, by decide +kernel, okE rfl⟩,
   ⟨ve (vi 0x29 4 0 1) (fun x => { x with vec := { x.vec with v := x.vec.v.set 1 0x1000001 } }),
     ve (vi 0x29 4 0 1) (fun x => { x with vec := { x.vec with v := x.vec.v.set 1 0x1000001 } }), 5, parseVec (vi 0x29 4 0 1),
     (ve (vi 0x29 4 0 1) (fun x => { x with vec := { x.vec with v := x.vec.v.set 1 0x1000001 } })).vecAt 5,
     (getE (readSrcs (vecCtx (ve (vi 0x29 4 0 1) (fun x => { x with vec := { x.vec with v := x.vec.v.set 1 0x1000001 } })) 5 (parseVec (vi 0x29 4 0 1))) [1] 1 ((ve (vi 0x29 4 0 1) (fun x => { x with vec := { x.vec with v := x.vec.v.set 1 0x1000001 } })).vecAt 5))).2,
     (getE (readSrcs (vecCtx (ve (vi 0x29 4 0 1) (fun x => { x with vec := { x.vec with v := x.vec.v.set 1 0x1000001 } })) 5 (parseVec (vi 0x29 4 0 1))) [1] 1 ((ve (vi 0x29 4 0 1) (fun x => { x with vec := { x.vec with v := x.vec.v.set 1 0x1000001 } })).vecAt 5))).1,
     0, rfl, ⟨rfl, rfl, rfl, Or.inl rfl, fun h => absurd h (by decide), rfl, rfl, rfl, rfl⟩, by decide +kernel, by decide +kernel, okE rfl,
     by decide +kernel⟩,
   ⟨ve (vi 0x29 4 0 1), ve (vi 0x29 4 0 1), 5, parseVec (vi 0x29 4 0 1), (ve (vi 0x29 4 0 1)).vecAt 5,
     (getE (readSrcs (vecCtx (ve (vi 0x29 4 0 1)) 5 (parseVec (vi 0x29 4 0 1))) [1] 1 ((ve (vi 0x29 4 0 1)).vecAt 5))).2,
     (getE (readSrcs (vecCtx (ve (vi 0x29 4 0 1)) 5 (parseVec (vi 0x29 4 0 1))) [1] 1 ((ve (vi 0x29 4 0 1)).vecAt 5))).1, 0, rfl, ⟨rfl, rfl, rfl,
     Or.inl rfl, fun h => absurd h (by decide), rfl, rfl, rfl, rfl⟩, by decide +kernel, by decide +kernel, okE rfl, by decide +kernel⟩⟩

/-- Hypotheses of VectorPlies. -/
theorem test_meets_vector_plies :
    (∃ (p : Nat) (slot : Nat) (neg : Bool) (m : Nat) (e : Int), 1 ≤ p ∧ slot ≠ 0x7FFE ∧ slot ≠ 0x7FFF ∧ slot ≠ 0x8000 ∧
      -127 ≤ (splitDigits (p - 1) (((Val.fin neg m e).scale (8 * (p : Int) - 1 - sbits 16 slot)).toInteger .rne)).2 ∧
      (splitDigits (p - 1) (((Val.fin neg m e).scale (8 * (p : Int) - 1 - sbits 16 slot)).toInteger .rne)).2 ≤ 127) ∧
    (∃ (u : State) (s : State) (i : Spindle) (n : VIns) (x : SpindleState) (y : SpindleState) (ss : List Src) (bs : List Byte) (p : Nat) (x1 : _),
      s = reported u i ∧ Issues s i 0x2D n x ∧ specMem n.s1 = true ∧ specMem n.dst = true ∧ pathsOk i [n.s1, n.s2] = true ∧ p = bits n.fn 11 8 ∧
      ((n.ty = 3 ∧ 5 ≤ p ∧ p ≤ 8 ∨ n.ty ≠ 3 ∧ p = 4)) ∧ (bit n.fn 7 = false ∨ n.fn % 128 ≤ 112) ∧
      x.memOperand (s.fresh + 2048) n.s1 (16 * tyBytes n.ty) (16 * tyBytes n.ty) = .ok (bs, x1) ∧ readSrcs (vecCtx s i n) [n.s2] 1 x1 = .ok (ss, y)) ∧
    (∃ (u : State) (s : State) (i : Spindle) (n : VIns) (x : SpindleState) (y : SpindleState) (bs : List Byte) (d : PlyDesc) (m : Nat) (first : Nat) (k : Nat) (ea : List Byte) (eb : List Byte) (pb : List Byte),
      s = reported u i ∧ Issues s i 0x2E n x ∧ specMem n.s1 = true ∧ x.memOperand (s.fresh + 2048) n.s1 64 8 = .ok (bs, y) ∧ d = parsePly bs ∧
      d.ok = true ∧ m = n.fn % 4096 ∧ m < d.m ∧ first = (if bit n.fn 12 then 64 else 0) ∧ k = min 64 (d.cols - first) ∧ (∀ t, t ≤ d.dmax →
      x.touches (d.diagRow + t * d.m + m) 1 = false) ∧ y.fetch (s.fresh + 2112) (d.ea + 2 * m) 2 = .ok ea ∧
      y.fetch (s.fresh + 2128) (d.eb + 2 * first) (2 * k) = .ok eb ∧
      ((d.first = true ∨ y.fetch (s.fresh + 2304) (d.part + 24 * (m * d.cols + first)) (24 * k) = .ok pb)) ∧ d.last = true ∧
      y.protects (d.out + m * d.outStride + d.outSize * first) (d.outSize * k) = false) ∧
    (∃ (u : State) (s : State) (i : Spindle) (n : VIns) (x : SpindleState) (y : SpindleState) (bs : List Byte) (d : PlyDesc) (t : Nat),
      s = reported u i ∧ Issues s i 0x2E n x ∧ specMem n.s1 = true ∧ x.memOperand (s.fresh + 2048) n.s1 64 8 = .ok (bs, y) ∧ d = parsePly bs ∧
      d.ok = true ∧ n.fn % 4096 < d.m ∧ t ≤ d.dmax ∧ x.touches (d.diagRow + t * d.m + n.fn % 4096) 1 = true) :=
  ⟨⟨8, 5, true, 5, 2, by decide⟩,
   ⟨ve (vi 0x2D 0x50 0x51 1 0 (4 * 256 + 128 + 112)), ve (vi 0x2D 0x50 0x51 1 0 (4 * 256 + 128 + 112)), 5,
     parseVec (vi 0x2D 0x50 0x51 1 0 (4 * 256 + 128 + 112)), (ve (vi 0x2D 0x50 0x51 1 0 (4 * 256 + 128 + 112))).vecAt 5,
     (getE (readSrcs (vecCtx (ve (vi 0x2D 0x50 0x51 1 0 (4 * 256 + 128 + 112))) 5 (parseVec (vi 0x2D 0x50 0x51 1 0 (4 * 256 + 128 + 112)))) [1] 1 ((getE (((ve (vi 0x2D 0x50 0x51 1 0 (4 * 256 + 128 + 112))).vecAt 5).memOperand 2048 0x51 64 64)).2))).2,
     (getE (readSrcs (vecCtx (ve (vi 0x2D 0x50 0x51 1 0 (4 * 256 + 128 + 112))) 5 (parseVec (vi 0x2D 0x50 0x51 1 0 (4 * 256 + 128 + 112)))) [1] 1 ((getE (((ve (vi 0x2D 0x50 0x51 1 0 (4 * 256 + 128 + 112))).vecAt 5).memOperand 2048 0x51 64 64)).2))).1,
     (getE (((ve (vi 0x2D 0x50 0x51 1 0 (4 * 256 + 128 + 112))).vecAt 5).memOperand 2048 0x51 64 64)).1, 4,
     (getE (((ve (vi 0x2D 0x50 0x51 1 0 (4 * 256 + 128 + 112))).vecAt 5).memOperand 2048 0x51 64 64)).2, rfl, ⟨rfl, rfl, rfl, Or.inl rfl,
     fun h => absurd h (by decide), rfl, rfl, rfl, rfl⟩, by decide +kernel, by decide +kernel, by decide +kernel, by decide +kernel,
     Or.inr ⟨by decide, rfl⟩, Or.inr (by decide), okE rfl, okE rfl⟩,
   ⟨ve (vi 0x2E 0 0x50) (fun x => { x with passes := [], scratch := cells [(0x1000, 1, 1), (0x1001, 1, 4), (0x1002, 1, 3), (0x100C, 4, 0x3000), (0x1010, 4, 0x3100), (0x1014, 4, 0x5000), (0x1018, 4, 0x9000), (0x101C, 4, 1024)] }),
     ve (vi 0x2E 0 0x50) (fun x => { x with passes := [], scratch := cells [(0x1000, 1, 1), (0x1001, 1, 4), (0x1002, 1, 3), (0x100C, 4, 0x3000), (0x1010, 4, 0x3100), (0x1014, 4, 0x5000), (0x1018, 4, 0x9000), (0x101C, 4, 1024)] }),
     5, parseVec (vi 0x2E 0 0x50),
     (ve (vi 0x2E 0 0x50) (fun x => { x with passes := [], scratch := cells [(0x1000, 1, 1), (0x1001, 1, 4), (0x1002, 1, 3), (0x100C, 4, 0x3000), (0x1010, 4, 0x3100), (0x1014, 4, 0x5000), (0x1018, 4, 0x9000), (0x101C, 4, 1024)] })).vecAt 5,
     (getE (((ve (vi 0x2E 0 0x50) (fun x => { x with passes := [], scratch := cells [(0x1000, 1, 1), (0x1001, 1, 4), (0x1002, 1, 3), (0x100C, 4, 0x3000), (0x1010, 4, 0x3100), (0x1014, 4, 0x5000), (0x1018, 4, 0x9000), (0x101C, 4, 1024)] })).vecAt 5).memOperand 2048 0x50 64 8)).2,
     (getE (((ve (vi 0x2E 0 0x50) (fun x => { x with passes := [], scratch := cells [(0x1000, 1, 1), (0x1001, 1, 4), (0x1002, 1, 3), (0x100C, 4, 0x3000), (0x1010, 4, 0x3100), (0x1014, 4, 0x5000), (0x1018, 4, 0x9000), (0x101C, 4, 1024)] })).vecAt 5).memOperand 2048 0x50 64 8)).1,
     parsePly (getE (((ve (vi 0x2E 0 0x50) (fun x => { x with passes := [], scratch := cells [(0x1000, 1, 1), (0x1001, 1, 4), (0x1002, 1, 3), (0x100C, 4, 0x3000), (0x1010, 4, 0x3100), (0x1014, 4, 0x5000), (0x1018, 4, 0x9000), (0x101C, 4, 1024)] })).vecAt 5).memOperand 2048 0x50 64 8)).1,
     0, 0, 1, [0, 0], [0, 0], List.replicate 24 0, rfl, ⟨rfl, rfl, rfl, Or.inl rfl, fun h => absurd h (by decide), rfl, rfl, rfl, rfl⟩,
     by decide +kernel, okE rfl, rfl, by decide +kernel, by decide +kernel, by decide +kernel, by decide +kernel, by decide +kernel,
     by decide +kernel, rfl, rfl, Or.inl (by decide +kernel), by decide +kernel, by decide +kernel⟩,
   ⟨ve (vi 0x2E 0 0x50) (fun x => { x with passes := [{ desc := { accRow := 6, m := 1 }, descAddr := 0, chain := none, issuedAt := 0 }], scratch := cells [(0x1000, 1, 1), (0x1001, 1, 4), (0x1002, 1, 3), (0x100C, 4, 0x3000), (0x1010, 4, 0x3100), (0x1014, 4, 0x5000), (0x1018, 4, 0x9000), (0x101C, 4, 1024)] }),
     ve (vi 0x2E 0 0x50) (fun x => { x with passes := [{ desc := { accRow := 6, m := 1 }, descAddr := 0, chain := none, issuedAt := 0 }], scratch := cells [(0x1000, 1, 1), (0x1001, 1, 4), (0x1002, 1, 3), (0x100C, 4, 0x3000), (0x1010, 4, 0x3100), (0x1014, 4, 0x5000), (0x1018, 4, 0x9000), (0x101C, 4, 1024)] }),
     5, parseVec (vi 0x2E 0 0x50),
     (ve (vi 0x2E 0 0x50) (fun x => { x with passes := [{ desc := { accRow := 6, m := 1 }, descAddr := 0, chain := none, issuedAt := 0 }], scratch := cells [(0x1000, 1, 1), (0x1001, 1, 4), (0x1002, 1, 3), (0x100C, 4, 0x3000), (0x1010, 4, 0x3100), (0x1014, 4, 0x5000), (0x1018, 4, 0x9000), (0x101C, 4, 1024)] })).vecAt 5,
     (getE (((ve (vi 0x2E 0 0x50) (fun x => { x with passes := [{ desc := { accRow := 6, m := 1 }, descAddr := 0, chain := none, issuedAt := 0 }], scratch := cells [(0x1000, 1, 1), (0x1001, 1, 4), (0x1002, 1, 3), (0x100C, 4, 0x3000), (0x1010, 4, 0x3100), (0x1014, 4, 0x5000), (0x1018, 4, 0x9000), (0x101C, 4, 1024)] })).vecAt 5).memOperand 2048 0x50 64 8)).2,
     (getE (((ve (vi 0x2E 0 0x50) (fun x => { x with passes := [{ desc := { accRow := 6, m := 1 }, descAddr := 0, chain := none, issuedAt := 0 }], scratch := cells [(0x1000, 1, 1), (0x1001, 1, 4), (0x1002, 1, 3), (0x100C, 4, 0x3000), (0x1010, 4, 0x3100), (0x1014, 4, 0x5000), (0x1018, 4, 0x9000), (0x101C, 4, 1024)] })).vecAt 5).memOperand 2048 0x50 64 8)).1,
     parsePly (getE (((ve (vi 0x2E 0 0x50) (fun x => { x with passes := [{ desc := { accRow := 6, m := 1 }, descAddr := 0, chain := none, issuedAt := 0 }], scratch := cells [(0x1000, 1, 1), (0x1001, 1, 4), (0x1002, 1, 3), (0x100C, 4, 0x3000), (0x1010, 4, 0x3100), (0x1014, 4, 0x5000), (0x1018, 4, 0x9000), (0x101C, 4, 1024)] })).vecAt 5).memOperand 2048 0x50 64 8)).1,
     6, rfl, ⟨rfl, rfl, rfl, Or.inl rfl, fun h => absurd h (by decide), rfl, rfl, rfl, rfl⟩, by decide +kernel, okE rfl, rfl, by decide +kernel,
     by decide +kernel, by decide +kernel, by decide +kernel⟩⟩

/-- Hypotheses of VectorControl. -/
theorem test_meets_vector_control :
    (∃ (u : State) (s : State) (i : Spindle) (n : VIns) (x : SpindleState), s = reported u i ∧ Issues s i 0x30 n x ∧
      x.vec.loopOk (bits n.fn 24 9) (bits n.fn 8 0) = false) ∧
    (∃ (u : State) (s : State) (i : Spindle) (n : VIns) (x : SpindleState), s = reported u i ∧ Issues s i 0x30 n x ∧
      x.vec.loopOk (bits n.fn 24 9) (bits n.fn 8 0) = true) ∧
    (∃ (u : State) (s : State) (i : Spindle) (n : VIns) (x : SpindleState), s = reported u i ∧ Issues s i 0x31 n x) ∧
    (∃ (u : State) (s : State) (i : Spindle) (n : VIns) (x : SpindleState), s = reported u i ∧ Issues s i 0x32 n x ∧ n.dst % 16 = 15) ∧
    (∃ (u : State) (s : State) (i : Spindle) (n : VIns) (x : SpindleState) (h : n.dst % 16 < 15), s = reported u i ∧ Issues s i 0x32 n x) ∧
    (∃ (u : State) (s : State) (i : Spindle) (n : VIns) (x : SpindleState) (y : SpindleState) (ss : List Src), s = reported u i ∧
      Issues s i 0x33 n x ∧ (bit n.fn 24 = true → y = x) ∧ (bit n.fn 24 = false → readSrcs (vecCtx s i n) [n.s1] 0 x = .ok (ss, y))) ∧
    (∃ (u : State) (s : State) (i : Spindle) (n : VIns) (x : SpindleState), s = reported u i ∧ Issues s i 0x34 n x) ∧
    (∃ (u : State) (s : State) (i : Spindle) (n : VIns) (x : SpindleState), s = reported u i ∧ Issues s i 0x35 n x) ∧
    (∃ (u : State) (s : State) (i : Spindle) (n : VIns) (x : SpindleState), s = reported u i ∧ Issues s i 0x36 n x) ∧
    (∃ (u : State) (s : State) (i : Spindle) (n : VIns) (x : SpindleState), s = reported u i ∧ Issues s i 0x37 n x) ∧
    (∃ (u : State) (s : State) (i : Spindle) (n : VIns) (x : SpindleState), s = reported u i ∧ Issues s i 0x38 n x ∧ specMem n.dst = false) ∧
    (∃ (u : State) (s : State) (i : Spindle) (n : VIns) (x : SpindleState) (o : _), s = reported u i ∧ Issues s i 0x38 n x ∧ specMem n.dst = true ∧
      x.place (specAdr n.dst) 32 32 0 = .ok o ∧ x.protects o 32 = false) ∧
    (∃ (u : State) (s : State) (i : Spindle) (n : VIns) (x : SpindleState) (bs : _) (y : _), s = reported u i ∧ Issues s i 0x39 n x ∧
      specMem n.s1 = true ∧ x.memOperand (s.fresh + 2048) n.s1 32 32 = .ok (bs, y) ∧ recordLoops bs = none) ∧
    (∃ (u : State) (s : State) (i : Spindle) (n : VIns) (x : SpindleState) (bs : _) (y : _) (ls : _), s = reported u i ∧ Issues s i 0x39 n x ∧
      specMem n.s1 = true ∧ x.memOperand (s.fresh + 2048) n.s1 32 32 = .ok (bs, y) ∧ recordLoops bs = some ls) ∧
    (∃ (u : State) (s : State) (i : Spindle) (x : SpindleState) (ls : List VecLoop) (due : Nat) (c : Nat), s = reported u i ∧
      x.vec.loopLoad = some (due, ls) ∧ due ≤ c) ∧
    (∃ (u : State) (s : State) (i : Spindle) (x : SpindleState) (ls : List VecLoop) (due : Nat) (c : Nat), s = reported u i ∧
      x.vec.loopLoad = some (due, ls) ∧ c < due) ∧
    (∃ (u : State) (s : State) (i : Spindle) (n : VIns) (x : SpindleState), s = reported u i ∧ Issues s i 0x3A n x) ∧
    (∃ (u : State) (s : State) (i : Spindle) (n : VIns) (x : SpindleState), s = reported u i ∧ Issues s i 0x3B n x) ∧
    (∃ (s : State) (i : Spindle) (c : BitVec 2), Clocked s ∧ nextInterrupt (s.spindles[i]).vec.pending = some c ∧ s.vecReady i = true ∧
      (s.spindles[i]).vec.openBoundary = true ∧ (s.spindles[i]).vec.reports = []) ∧
    (∃ (s : State) (i : Spindle), Clocked s ∧ s.holdOver i = true) ∧
    (∃ (s : State) (i : Spindle), Clocked s ∧ s.holdOver i = false) ∧
    (∃ (s : State) (i : Spindle), Clocked s ∧ s.handlerOver i = true) ∧
    (∃ (s : State) (i : Spindle), (s.spindles[i]).vec.stopped = true) ∧
    (∃ (s : State) (i : Spindle) (d : State), d = s.drainEngine i ∧ d.stepOpen = true ∧ d.step.cause = 0 ∧ (d.spindles[i]).vec.faultSeen = false) ∧
    (∃ (s : State) (i : Spindle) (d : State), d = s.drainEngine i ∧ d.stepOpen = true ∧ d.step.cause = 0 ∧ (d.spindles[i]).vec.fltEn = true ∧
      (d.spindles[i]).vec.inHandler = false ∧ (d.spindles[i]).vec.running = true) ∧
    (∃ (s : State) (i : Spindle) (d : State), d = s.drainEngine i ∧ d.stepOpen = true ∧ d.step.cause = 0 ∧
      ((d.spindles[i]).vec.fltEn = false ∨ (d.spindles[i]).vec.inHandler = true ∨ (d.spindles[i]).vec.running = false)) ∧
    (∃ (s : State) (i : Spindle), (s.spindles[i]).faultSeen = false) :=
  ⟨⟨ve (vi 0x30 0 0 0 0 1), ve (vi 0x30 0 0 0 0 1), 5, parseVec (vi 0x30 0 0 0 0 1), (ve (vi 0x30 0 0 0 0 1)).vecAt 5, rfl, ⟨rfl, rfl, rfl,
     Or.inl rfl, fun h => absurd h (by decide), rfl, rfl, rfl, rfl⟩, by decide +kernel⟩,
   ⟨ve (vi 0x30 0 0 0 0 (2 ^ 9 + 1)), ve (vi 0x30 0 0 0 0 (2 ^ 9 + 1)), 5, parseVec (vi 0x30 0 0 0 0 (2 ^ 9 + 1)),
     (ve (vi 0x30 0 0 0 0 (2 ^ 9 + 1))).vecAt 5, rfl, ⟨rfl, rfl, rfl, Or.inl rfl, fun h => absurd h (by decide), rfl, rfl, rfl, rfl⟩,
     by decide +kernel⟩,
   ⟨ve (vi 0x31), ve (vi 0x31), 5, parseVec (vi 0x31), (ve (vi 0x31)).vecAt 5, rfl, ⟨rfl, rfl, rfl, Or.inl rfl, fun h => absurd h (by decide), rfl,
     rfl, rfl, rfl⟩⟩,
   ⟨ve (vi 0x32 15), ve (vi 0x32 15), 5, parseVec (vi 0x32 15), (ve (vi 0x32 15)).vecAt 5, rfl, ⟨rfl, rfl, rfl, Or.inl rfl,
     fun h => absurd h (by decide), rfl, rfl, rfl, rfl⟩, by decide +kernel⟩,
   ⟨ve (vi 0x32 14 0 0 0 (3 * 2 ^ 22 + 5)), ve (vi 0x32 14 0 0 0 (3 * 2 ^ 22 + 5)), 5, parseVec (vi 0x32 14 0 0 0 (3 * 2 ^ 22 + 5)),
     (ve (vi 0x32 14 0 0 0 (3 * 2 ^ 22 + 5))).vecAt 5, by decide, rfl, ⟨rfl, rfl, rfl, Or.inl rfl, fun h => absurd h (by decide), rfl, rfl, rfl, rfl⟩⟩,
   ⟨ve (vi 0x33 2 1), ve (vi 0x33 2 1), 5, parseVec (vi 0x33 2 1), (ve (vi 0x33 2 1)).vecAt 5,
     (getE (readSrcs (vecCtx (ve (vi 0x33 2 1)) 5 (parseVec (vi 0x33 2 1))) [1] 0 ((ve (vi 0x33 2 1)).vecAt 5))).2,
     (getE (readSrcs (vecCtx (ve (vi 0x33 2 1)) 5 (parseVec (vi 0x33 2 1))) [1] 0 ((ve (vi 0x33 2 1)).vecAt 5))).1, rfl, ⟨rfl, rfl, rfl, Or.inl rfl,
     fun h => absurd h (by decide), rfl, rfl, rfl, rfl⟩, fun h => absurd h (by decide), fun _ => okE rfl⟩,
   ⟨ve (vi 0x34 0 0 0 0 (2 * 2 ^ 22 + 5)), ve (vi 0x34 0 0 0 0 (2 * 2 ^ 22 + 5)), 5, parseVec (vi 0x34 0 0 0 0 (2 * 2 ^ 22 + 5)),
     (ve (vi 0x34 0 0 0 0 (2 * 2 ^ 22 + 5))).vecAt 5, rfl, ⟨rfl, rfl, rfl, Or.inl rfl, fun h => absurd h (by decide), rfl, rfl, rfl, rfl⟩⟩,
   ⟨ve (vi 0x35), ve (vi 0x35), 5, parseVec (vi 0x35), (ve (vi 0x35)).vecAt 5, rfl, ⟨rfl, rfl, rfl, Or.inl rfl, fun h => absurd h (by decide), rfl,
     rfl, rfl, rfl⟩⟩,
   ⟨ve (vi 0x36), ve (vi 0x36), 5, parseVec (vi 0x36), (ve (vi 0x36)).vecAt 5, rfl, ⟨rfl, rfl, rfl, Or.inl rfl, fun h => absurd h (by decide), rfl,
     rfl, rfl, rfl⟩⟩,
   ⟨ve (vi 0x37 0 0 0 0 1), ve (vi 0x37 0 0 0 0 1), 5, parseVec (vi 0x37 0 0 0 0 1), (ve (vi 0x37 0 0 0 0 1)).vecAt 5, rfl, ⟨rfl, rfl, rfl,
     Or.inl rfl, fun h => absurd h (by decide), rfl, rfl, rfl, rfl⟩⟩,
   ⟨ve (vi 0x38 3), ve (vi 0x38 3), 5, parseVec (vi 0x38 3), (ve (vi 0x38 3)).vecAt 5, rfl, ⟨rfl, rfl, rfl, Or.inl rfl, fun h => absurd h (by decide),
     rfl, rfl, rfl, rfl⟩, by decide +kernel⟩,
   ⟨ve (vi 0x38 0x50), ve (vi 0x38 0x50), 5, parseVec (vi 0x38 0x50), (ve (vi 0x38 0x50)).vecAt 5, 0x1000, rfl, ⟨rfl, rfl, rfl, Or.inl rfl,
     fun h => absurd h (by decide), rfl, rfl, rfl, rfl⟩, by decide +kernel, okP (by decide +kernel), by decide +kernel⟩,
   ⟨ve (vi 0x39 0 0x50) (fun x => { x with scratch := cells [(0x1000, 1, 4)] }),
     ve (vi 0x39 0 0x50) (fun x => { x with scratch := cells [(0x1000, 1, 4)] }), 5, parseVec (vi 0x39 0 0x50),
     (ve (vi 0x39 0 0x50) (fun x => { x with scratch := cells [(0x1000, 1, 4)] })).vecAt 5,
     (getE (((ve (vi 0x39 0 0x50) (fun x => { x with scratch := cells [(0x1000, 1, 4)] })).vecAt 5).memOperand 2048 0x50 32 32)).1,
     (getE (((ve (vi 0x39 0 0x50) (fun x => { x with scratch := cells [(0x1000, 1, 4)] })).vecAt 5).memOperand 2048 0x50 32 32)).2, rfl, ⟨rfl, rfl,
     rfl, Or.inl rfl, fun h => absurd h (by decide), rfl, rfl, rfl, rfl⟩, by decide +kernel, okE rfl, by decide +kernel⟩,
   ⟨ve (vi 0x39 0 0x50) (fun x => { x with scratch := cells [(0x1000, 1, 1), (0x1008, 8, 2 ^ 26)] }),
     ve (vi 0x39 0 0x50) (fun x => { x with scratch := cells [(0x1000, 1, 1), (0x1008, 8, 2 ^ 26)] }), 5, parseVec (vi 0x39 0 0x50),
     (ve (vi 0x39 0 0x50) (fun x => { x with scratch := cells [(0x1000, 1, 1), (0x1008, 8, 2 ^ 26)] })).vecAt 5,
     (getE (((ve (vi 0x39 0 0x50) (fun x => { x with scratch := cells [(0x1000, 1, 1), (0x1008, 8, 2 ^ 26)] })).vecAt 5).memOperand 2048 0x50 32 32)).1,
     (getE (((ve (vi 0x39 0 0x50) (fun x => { x with scratch := cells [(0x1000, 1, 1), (0x1008, 8, 2 ^ 26)] })).vecAt 5).memOperand 2048 0x50 32 32)).2,
     [{ start := 0, stop := 0, left := 1 }], rfl, ⟨rfl, rfl, rfl, Or.inl rfl, fun h => absurd h (by decide), rfl, rfl, rfl, rfl⟩, by decide +kernel,
     okE rfl, by decide +kernel⟩,
   ⟨win, win, 5, { vec := { loopLoad := some (5, [{ start := 0, stop := 3, left := 2 }]) } }, [{ start := 0, stop := 3, left := 2 }], 5, 5, rfl,
     by decide +kernel, by decide +kernel⟩,
   ⟨win, win, 5, { vec := { loopLoad := some (5, [{ start := 0, stop := 3, left := 2 }]) } }, [{ start := 0, stop := 3, left := 2 }], 5, 4, rfl,
     by decide +kernel, by decide +kernel⟩,
   ⟨ve (vi 0x3A), ve (vi 0x3A), 5, parseVec (vi 0x3A), (ve (vi 0x3A)).vecAt 5, rfl, ⟨rfl, rfl, rfl, Or.inl rfl, fun h => absurd h (by decide), rfl,
     rfl, rfl, rfl⟩⟩,
   ⟨ve (vi 0x3B), ve (vi 0x3B), 5, parseVec (vi 0x3B), (ve (vi 0x3B)).vecAt 5, rfl, ⟨rfl, rfl, rfl, Or.inl rfl, fun h => absurd h (by decide), rfl,
     rfl, rfl, rfl⟩⟩,
   ⟨{ win.modSp 5 (fun x => { x with vec := { x.vec with running := true, pending := 5 } }) with now := 0 }, 5, 2, by decide⟩,
   ⟨{ win.modSp 5 (fun x => { x with vec := { x.vec with running := true, holdAt := some 0 } }) with now := 1280 }, 5, by decide⟩,
   ⟨{ win.modSp 5 (fun x => { x with vec := { x.vec with running := true, holdAt := some 0 } }) with now := 1279 }, 5, by decide⟩,
   ⟨{ win.modSp 5 (fun x => { x with vec := { x.vec with running := true, inHandler := true, icause := 2, handlerAt := 0 } }) with now := 40960 }, 5,
     by decide⟩,
   ⟨{ win.modSp 5 (fun x => { x with vec := { x.vec with running := true, stopped := true } }) with now := 0 }, 5, by decide⟩,
   ⟨win, 5, State.drainEngine (win) 5, rfl, by decide +kernel, by decide +kernel, by decide +kernel⟩,
   ⟨{ win.modSp 5 (fun x => { x with vec := { x.vec with running := true, fltEn := true } }) with now := 0 }, 5,
     State.drainEngine ({ win.modSp 5 (fun x => { x with vec := { x.vec with running := true, fltEn := true } }) with now := 0 }) 5, rfl,
     by decide +kernel, by decide +kernel, by decide +kernel, by decide +kernel, by decide +kernel⟩,
   ⟨win, 5, State.drainEngine (win) 5, rfl, by decide +kernel, by decide +kernel, by decide +kernel⟩,
   ⟨win, 5, by decide⟩⟩

/-- Hypotheses of MessagesAreChecked. -/
theorem test_meets_messages_are_checked :
    (∃ (p : _) (s : State), p ∈ messageOps ∧ s.dist.alive = false) ∧
    (∃ (p : _) (s : State) (q : Request), p ∈ messageOps ∧ s.i3cBusy q.transport = true) ∧
    (∃ (p : _) (s : State) (q : Request) (c : Code), p ∈ messageOps ∧ s.dist.alive = true ∧ s.i3cBusy q.transport = false ∧ opcodeOf q = p.2 ∧
      (s.i3cRead q.transport).checkMessage q = c ∧ c ≠ 0) ∧
    (∃ (p : _) (s : State) (q : Request), p ∈ messageOps ∧ s.dist.alive = true ∧ s.i3cBusy q.transport = false ∧ opRow (opcodeOf q) = none) ∧
    (∃ (p : _) (s : State) (q : Request) (r : OpRow), p ∈ messageOps ∧ s.dist.alive = true ∧ s.i3cBusy q.transport = false ∧ opcodeOf q = p.2 ∧
      opRow p.2 = some r ∧ (s.i3cRead q.transport).checkMessage q = 0 ∧ s.flt.coreHalted.getLsbD r.core = true) ∧
    (∃ (p : _) (s : State) (q : Request) (r : OpRow), p ∈ messageOps ∧ s.dist.alive = true ∧ s.i3cBusy q.transport = false ∧ opcodeOf q = p.2 ∧
      opRow p.2 = some r ∧ (s.i3cRead q.transport).checkMessage q = 0 ∧ s.flt.coreHalted.getLsbD r.core = false ∧ p.2 ≠ 1 ∧
      (s.i3cRead q.transport).coreWait r.core ≠ 0) ∧
    (∃ (q : Request) (r : OpRow), opRow (opcodeOf q) = some r ∧
      (field q.bytes 4 4 ≠ q.bytes.length ∨ q.bytes.length < r.len ∨ 4096 < q.bytes.length ∨ q.bytes.length % 8 ≠ 0)) ∧
    (∃ (s : State) (q : Request) (r : OpRow), opRow (opcodeOf q) = some r ∧ s.checkMessage q = 0 ∧ q.transport.val = 8) ∧
    (∃ (s : State) (q : Request) (r : OpRow), opRow (opcodeOf q) = some r ∧ s.checkMessage q = 0 ∧ r.need = .installer ∧ r.op ≠ 0x0133) ∧
    (∃ (s : State) (q : Request) (r : OpRow), opRow (opcodeOf q) = some r ∧ s.checkMessage q = 0 ∧ r.need = .maker) ∧
    (∃ (s : State) (q : Request) (r : OpRow) (x : _), opRow (opcodeOf q) = some r ∧ s.checkMessage q = 0 ∧ x ∈ reservedRanges r.op q.bytes) ∧
    (∃ (payload : List Byte) (retry : Nat), retry < 2 ^ 32 ∧ payload.length < 2 ^ 31) :=
  ⟨⟨(Instr.queryStatus, 1), State.reset, by simp [messageOps], by decide +kernel⟩,
   ⟨(Instr.jobStatus, 0x22),
     dst (fun d => { d with queue := [{ core := 2, transport := 8, crossing := 0, opcode := 0x22, bound := 100, arrived := 0 }] }), rq 0x22 40 [] 8,
     by simp [messageOps], by decide +kernel⟩,
   ⟨(Instr.jobStatus, 0x22), win, rq 0x22 32, 0x0103, by simp [messageOps], by decide +kernel, by decide +kernel, by decide +kernel,
     by decide +kernel, by decide +kernel⟩,
   ⟨(Instr.jobStatus, 0x22), win, rq 0x23 32, by simp [messageOps], by decide +kernel, by decide +kernel, by decide +kernel⟩,
   ⟨(Instr.jobStatus, 0x22), { win with flt := { win.flt with coreHalted := 4 } }, rq 0x22 40, row 0x22, by simp [messageOps], by decide +kernel,
     by decide +kernel, by decide +kernel, by decide +kernel, by decide +kernel, by decide +kernel⟩,
   ⟨(Instr.jobStatus, 0x22),
     dst (fun d => { d with queue := [{ core := 2, transport := 1, crossing := 0, opcode := 0x22, bound := 100, arrived := 0 }] }), rq 0x22 40,
     row 0x22, by simp [messageOps], by decide +kernel, by decide +kernel, by decide +kernel, by decide +kernel, by decide +kernel, by decide +kernel,
     by decide +kernel, by decide +kernel⟩,
   ⟨rq 0x22 32, row 0x22, by decide⟩,
   ⟨win, rq 2 40 [] 8, row 2, by decide⟩,
   ⟨inst, rq 0x0102 32, row 0x0102, by decide +kernel, by decide +kernel, by decide +kernel, by decide +kernel⟩,
   ⟨maker, rq 0x013B 32, row 0x013B, by decide⟩,
   ⟨win, rq 0x22 40, row 0x22, (40, 0), by decide⟩,
   ⟨[1, 2], 2 ^ 32 - 1, by decide⟩⟩

/-- Hypotheses of ReadingAndJobMessages. -/
theorem test_meets_reading_and_job_messages :
    (∃ (s : State) (q : Request) (r : OpRow), Serves s q 0x0001 r) ∧
    (∃ (s : State) (q : Request) (r : OpRow) (u : State) (bs : List Byte), Serves s q 0x0002 r ∧ field q.bytes 0x20 4 ≤ 1000 ∧
      0x28 + 4 * field q.bytes 0x20 4 ≤ q.bytes.length ∧
      (admitted s q r).readRegs ((List.range (field q.bytes 0x20 4)).map (fun i => field q.bytes (0x28 + 4 * i) 4)) [] = .ok (u, bs)) ∧
    (∃ (s : State) (q : Request) (r : OpRow) (oldest : Nat) (n : Nat), Serves s q 0x0003 r ∧ oldest = s.sec.auditSeq - s.sec.audit.length ∧
      n = min (field q.bytes 0x28 4) (if q.transport.val = 8 then 7 else 31)) ∧
    (∃ (s : State) (q : Request) (r : OpRow) (report : _), Serves s q 0x0004 r ∧ field q.bytes 0x20 1 = 0 ∧ field q.bytes 0x21 1 = 0 ∧
      s.sec.readyLeaf.nextLeaf < 2 ^ 25 ∧
      report = ({ admitted s q r with sec := (admitted s q r).sec.readyLeaf }).attestReport (sliceBytes q.bytes 0x28 32) s.sec.readyLeaf.nextLeaf) ∧
    (∃ (s : State) (q : Request) (r : OpRow), Serves s q 0x0004 r ∧ field q.bytes 0x20 1 = 0 ∧ field q.bytes 0x21 1 = 0 ∧
      2 ^ 25 ≤ s.sec.readyLeaf.nextLeaf) ∧
    (∃ (s : State) (q : Request) (r : OpRow), Serves s q 0x0004 r ∧ field q.bytes 0x20 1 = 1 ∧ q.transport.val ≠ 8 ∧ field q.bytes 0x21 1 = 0) ∧
    (∃ (s : State) (q : Request) (r : OpRow) (im : Image) (sw : Option Nat) (id : Nat) (n : Nat) (rr : Nat) (want : Nat) (a : Nat),
      Serves s q 0x0020 r ∧ s.sec.testMode = false ∧ id = field q.bytes 0x20 8 ∧ id ≠ 0 ∧ n = field q.bytes 0x30 8 ∧ n ≠ 0 ∧ n ≤ 2 ^ 40 ∧
      want = field q.bytes 0x38 8 ∧ rr = field q.bytes 0x40 2 ∧ rr ≤ 1024 ∧ (∀ j ∈ s.dist.jobs, j.id.toNat ≠ id) ∧ (∀ j ∈ s.dist.ended,
      j.id.toNat ≠ id) ∧ s.dist.jobs.length < 16 ∧ s.jobPattern (field q.bytes 0x28 8) = some (im, sw) ∧ s.fabricBusy im = false ∧
      a = max (max want (s.tick.count.toNat + 2)) (max ((s.dist.jobs.map (·.promise)).foldl max 0) (sw.getD 0)) ∧ (sw = none →
      ∀ t ∈ s.dist.staged.bind (·.armedAt), a + n + rr < t) ∧ (s.devices ≤ 1 ∨ want = 0 ∨ a = want)) ∧
    (∃ (s : State) (q : Request) (r : OpRow), Serves s q 0x0020 r ∧ s.sec.testMode = true) ∧
    (∃ (s : State) (q : Request) (r : OpRow) (j : Job) (at_ : Nat), Serves s q 0x0021 r ∧
      s.dist.jobs.find? (fun j => j.id.toNat == field q.bytes 0x20 8) = some j ∧
      at_ = (if field q.bytes 0x28 8 = 0 then s.tick.count.toNat + 2 else field q.bytes 0x28 8) ∧ at_ < s.tick.count.toNat + 2) ∧
    (∃ (s : State) (q : Request) (r : OpRow) (j : Job) (at_ : Nat), Serves s q 0x0021 r ∧
      s.dist.jobs.find? (fun j => j.id.toNat == field q.bytes 0x20 8) = some j ∧
      at_ = (if field q.bytes 0x28 8 = 0 then s.tick.count.toNat + 2 else field q.bytes 0x28 8) ∧ s.tick.count.toNat + 2 ≤ at_ ∧ j.state = .queued ∧
      at_ ≤ j.accept) ∧
    (∃ (s : State) (q : Request) (r : OpRow) (j : Job) (at_ : Nat), Serves s q 0x0021 r ∧
      s.dist.jobs.find? (fun j => j.id.toNat == field q.bytes 0x20 8) = some j ∧
      at_ = (if field q.bytes 0x28 8 = 0 then s.tick.count.toNat + 2 else field q.bytes 0x28 8) ∧ s.tick.count.toNat + 2 ≤ at_ ∧
      (j.state ≠ .queued ∨ j.accept < at_)) ∧
    (∃ (s : State) (q : Request) (r : OpRow) (j : Job), Serves s q 0x0022 r ∧
      (s.dist.jobs ++ s.dist.ended).find? (fun j => j.id.toNat == field q.bytes 0x20 8) = some j) ∧
    (∃ (s : State) (q : Request) (r : OpRow), Serves s q 0x0022 r ∧ (∀ j ∈ s.dist.jobs ++ s.dist.ended, j.id.toNat ≠ field q.bytes 0x20 8)) :=
  ⟨⟨win, rq 0x1 32, row 0x1, by decide⟩,
   ⟨win, rq 0x2 40, row 0x2, admitted win (rq 2 40) (row 2), [], by decide +kernel, by decide +kernel, by decide +kernel, rfl⟩,
   ⟨win, rq 0x3 48 [(0x28, 4, 5)], row 0x3, 0, 5, by decide⟩,
   ⟨win, rq 0x4 72, row 0x4,
     (({ admitted win (rq 4 72) (row 4) with sec := (admitted win (rq 4 72) (row 4)).sec.readyLeaf } : State)).attestReport (sliceBytes (rq 4 72).bytes 0x28 32) win.sec.readyLeaf.nextLeaf,
     by decide +kernel, by decide +kernel, by decide +kernel, by decide +kernel, rfl⟩,
   ⟨{ win with sec := { win.sec with block := 0x7FFFF, blockValid := true, nextLeaf := 2 ^ 25 } }, rq 0x4 72, row 0x4, by decide⟩,
   ⟨win, rq 0x4 72 [(0x20, 1, 1)], row 0x4, by decide⟩,
   ⟨win, rq 0x20 72 [(0x20, 8, 9), (0x30, 8, 3), (0x40, 2, 2)], row 0x20, [], none, 9, 3, 2, 0, 2, by decide⟩,
   ⟨{ win with sec := { win.sec with testMode := true } }, rq 0x20 72, row 0x20, by decide⟩,
   ⟨dst (fun d => { d with jobs := [{ jobQ with state := .queued, accept := 5 }] }), rq 0x21 48 [(0x20, 8, 1), (0x28, 8, 1)], row 0x21,
     { jobQ with state := .queued, accept := 5 }, 1, by decide⟩,
   ⟨dst (fun d => { d with jobs := [{ jobQ with state := .queued, accept := 5 }] }), rq 0x21 48 [(0x20, 8, 1), (0x28, 8, 5)], row 0x21,
     { jobQ with state := .queued, accept := 5 }, 5, by decide⟩,
   ⟨dst (fun d => { d with jobs := [{ jobQ with state := .queued, accept := 5 }] }), rq 0x21 48 [(0x20, 8, 1), (0x28, 8, 6)], row 0x21,
     { jobQ with state := .queued, accept := 5 }, 6, by decide⟩,
   ⟨dst (fun d => { d with jobs := [jobQ] }), rq 0x22 40 [(0x20, 8, 1)], row 0x22, jobQ, by decide⟩,
   ⟨dst (fun d => { d with jobs := [jobQ] }), rq 0x22 40 [(0x20, 8, 2)], row 0x22, by decide⟩⟩

/-- Hypotheses of PatternMessages. -/
theorem test_meets_pattern_messages :
    (∃ (s : State) (q : Request) (r : OpRow) (g : Grant) (im : Image), Serves s q 0x0010 r ∧ s.dist.staged.bind (·.armedAt) = none ∧
      s.grantOf q.bytes = some g ∧ field q.bytes 0x28 8 + field q.bytes 0x30 8 ≤ g.bytes ∧ 288 ≤ field q.bytes 0x30 8 ∧
      field q.bytes 0x30 8 ≤ 2 ^ 30 ∧ im = ((admitted s q r).readRange 0 (g.base + field q.bytes 0x28 8) (field q.bytes 0x30 8)).2.1 ∧
      field im 0x18 8 = field q.bytes 0x30 8 ∧ (∀ a ∈ s.dist.active, Image.id a ≠ Image.id im)) ∧
    (∃ (s : State) (q : Request) (r : OpRow), Serves s q 0x0010 r ∧ s.dist.staged.bind (·.armedAt) = none ∧ s.grantOf q.bytes = none) ∧
    (∃ (s : State) (q : Request) (r : OpRow) (x : Staged), Serves s q 0x0011 r ∧ s.stagedNamed q.bytes = some x ∧ x.armedAt = none ∧
      (admitted s q r).verifyPattern x.image = none) ∧
    (∃ (s : State) (q : Request) (r : OpRow) (x : Staged) (f : _), Serves s q 0x0011 r ∧ s.stagedNamed q.bytes = some x ∧ x.armedAt = none ∧
      (admitted s q r).verifyPattern x.image = some f) ∧
    (∃ (s : State) (q : Request) (r : OpRow) (x : Staged), Serves s q 0x0012 r ∧ s.stagedNamed q.bytes = some x ∧ x.verified = false) ∧
    (∃ (s : State) (q : Request) (r : OpRow) (x : Staged), Serves s q 0x0012 r ∧ s.stagedNamed q.bytes = some x ∧ x.verified = true ∧
      field q.bytes 0x28 8 < s.tick.count.toNat + 2) ∧
    (∃ (s : State) (q : Request) (r : OpRow) (x : Staged), Serves s q 0x0012 r ∧ s.stagedNamed q.bytes = some x ∧ x.verified = true ∧
      s.tick.count.toNat + 2 ≤ field q.bytes 0x28 8 ∧ (∀ j ∈ s.dist.jobs,
      if j.pattern = Image.id x.image then field q.bytes 0x28 8 ≤ j.accept else j.promise < field q.bytes 0x28 8) ∧
      (admitted s q r).checkTick x.image = none ∧ (admitted s q r).checkEnergy x.image = none) ∧
    (∃ (s : State) (q : Request) (r : OpRow) (x : Staged), Serves s q 0x0013 r ∧ s.stagedNamed q.bytes = some x ∧
      (x.armedAt = none ∨ (∀ j ∈ s.dist.jobs, j.pattern ≠ Image.id x.image))) :=
  ⟨⟨dst (fun d => { d with grants := [gr1] }) { mem0 with mem := cells [(0x18, 8, 320), (8, 8, 5)] }, rq 0x10 56 [(0x20, 2, 2), (0x30, 8, 320)],
     row 0x10, gr1, ((admitted (dst (fun d => { d with grants := [gr1] }) { mem0 with mem := cells [(0x18, 8, 320), (8, 8, 5)] }) (rq 0x10 56 [(0x20,
     2, 2), (0x30, 8, 320)]) (row 0x10)).readRange 0 0 320).2.1, by decide +kernel, by decide +kernel, by decide +kernel, by decide +kernel,
     by decide +kernel, by decide +kernel, rfl, by decide +kernel, by decide +kernel⟩,
   ⟨win, rq 0x10 56, row 0x10, by decide⟩,
   ⟨dst (fun d => { d with staged := some { image := pat0, verified := false, armedAt := none } }) { win with tick := { win.tick with periodNs := 1000000 }, pwr := { win.pwr with capW := 600 } },
     rq 0x11 40 [(0x20, 8, 0)], row 0x11, { image := pat0, verified := false, armedAt := none }, by decide +kernel⟩,
   ⟨dst (fun d => { d with staged := some { image := zb 320, verified := false, armedAt := none }, jobs := [] }), rq 0x11 40, row 0x11,
     { image := zb 320, verified := false, armedAt := none }, ({ code := 0x0201, off := 0 } : PatFault), by decide⟩,
   ⟨dst (fun d => { d with staged := some { image := zb 320, verified := false, armedAt := none }, jobs := [] }), rq 0x12 48, row 0x12,
     { image := zb 320, verified := false, armedAt := none }, by decide⟩,
   ⟨dst (fun d => { d with staged := some { image := zb 320, verified := true, armedAt := none }, jobs := [] }), rq 0x12 48 [(0x28, 8, 1)], row 0x12,
     { image := zb 320, verified := true, armedAt := none }, by decide⟩,
   ⟨dst (fun d => { d with staged := some { image := pat0, verified := true, armedAt := none } }) { win with tick := { win.tick with periodNs := 1000000 }, pwr := { win.pwr with capW := 600 } },
     rq 0x12 48 [(0x28, 8, 5)], row 0x12, { image := pat0, verified := true, armedAt := none }, by decide⟩,
   ⟨dst (fun d => { d with staged := some { image := zb 320, verified := true, armedAt := some 4 }, jobs := [] }), rq 0x13 40, row 0x13,
     { image := zb 320, verified := true, armedAt := some 4 }, by decide⟩⟩

/-- Hypotheses of GrantAndControlMessages. -/
theorem test_meets_grant_and_control_messages :
    (∃ (s : State) (q : Request) (r : OpRow) (id : Nat), Serves s q 0x0030 r ∧ field q.bytes 0x30 1 ≠ 0 ∧
      s.grantable (field q.bytes 0x20 8) (field q.bytes 0x28 8) (field q.bytes 0x30 1) = true ∧
      (List.range 64).find? (fun i => !s.dist.grants.any (fun g => g.id == i)) = some id) ∧
    (∃ (s : State) (q : Request) (r : OpRow), Serves s q 0x0030 r ∧ field q.bytes 0x30 1 ≠ 0 ∧
      s.grantable (field q.bytes 0x20 8) (field q.bytes 0x28 8) (field q.bytes 0x30 1) = false) ∧
    (∃ (s : State) (q : Request) (r : OpRow) (g : Grant), Serves s q 0x0031 r ∧ s.grantOf q.bytes = some g ∧ (∀ x ∈ s.dist.grants, x.id = g.id →
      x = g)) ∧
    (∃ (s : State) (q : Request) (r : OpRow) (g : Grant) (n : Fin 8) (toDevice : Bool), Serves s q (if toDevice then 0x0032 else 0x0033) r ∧
      q.transport.val = n.val ∧ s.grantOf q.bytes = some g ∧ field q.bytes 0x28 8 + field q.bytes 0x30 8 ≤ g.bytes ∧
      (if toDevice then g.dirIn else g.dirOut) = true ∧ field q.bytes 0x30 8 ≠ 0 ∧ field q.bytes 0x30 8 ≤ 2 ^ 36 ∧ field q.bytes 0x40 4 ≠ 0 ∧
      field q.bytes 0x40 4 ≤ 65536 ∧ field q.bytes 0x38 8 % 16 = 0 ∧ s.slv.bulk[n] = none) ∧
    (∃ (s : State) (q : Request) (r : OpRow), Serves s q 0x0040 r ∧ field q.bytes 0x20 2 ≤ s.pwr.limitW.toNat ∧
      s.capCovers (field q.bytes 0x20 2) = true) ∧
    (∃ (s : State) (q : Request) (r : OpRow), Serves s q 0x0040 r ∧ s.pwr.limitW.toNat < field q.bytes 0x20 2) ∧
    (∃ (s : State) (q : Request) (r : OpRow), Serves s q 0x0040 r ∧ field q.bytes 0x20 2 ≤ s.pwr.limitW.toNat ∧
      s.capCovers (field q.bytes 0x20 2) = false) ∧
    (∃ (s : State) (q : Request) (r : OpRow), Serves s q 0x0050 r ∧ field q.bytes 0x20 1 = 7) ∧
    (∃ (s : State) (q : Request) (r : OpRow) (u : State), Serves s q 0x0050 r ∧ field q.bytes 0x20 1 = 6 ∧
      u = (admitted s q r).startAny .device 6 0x0813 false) :=
  ⟨⟨dst (fun d => { d with grants := [{ gr1 with id := 0 }] }) mem0, rq 0x30 56 [(0x20, 8, 0x3FFFF000), (0x28, 8, 4096), (0x30, 1, 2)], row 0x30, 1,
     by decide⟩,
   ⟨mem0, rq 0x30 56 [(0x20, 8, 0x3FFFF000), (0x28, 8, 8192), (0x30, 1, 2)], row 0x30, by decide⟩,
   ⟨dst (fun d => { d with grants := [gr1] }), rq 0x31 40 [(0x20, 2, 2)], row 0x31, gr1, by decide⟩,
   ⟨dst (fun d => { d with grants := [gr1] }), rq 0x33 72 [(0x20, 2, 2), (0x28, 8, 96), (0x30, 8, 4000), (0x38, 8, 16), (0x40, 4, 65536)], row 0x33,
     gr1, 3, false, by decide⟩,
   ⟨win, rq 0x40 40 [(0x20, 2, 700)], row 0x40, by decide⟩,
   ⟨win, rq 0x40 40 [(0x20, 2, 65535)], row 0x40, by decide⟩,
   ⟨dst (fun d => { d with active := some pat0 }), rq 0x40 40 [(0x20, 2, 1)], row 0x40, by decide⟩,
   ⟨inst, rq 0x50 40 [(0x20, 1, 7)], row 0x50, by decide⟩,
   ⟨inst, rq 0x50 40 [(0x20, 1, 6)], row 0x50, (admitted inst (rq 0x50 40 [(0x20, 1, 6)]) (row 0x50)).startAny .device 6 0x0813 false,
     by decide +kernel, by decide +kernel, rfl⟩⟩

/-- Hypotheses of InstallerMessages. -/
theorem test_meets_installer_messages :
    (∃ (s : State) (q : Request) (r : OpRow) (g : Grant) (store : Bool) (bytes : List Byte), Serves s q 0x0110 r ∧
      store = bit (field q.bytes 0x22 1) 0 ∧ s.grantOf q.bytes = some g ∧ field q.bytes 0x28 8 + field q.bytes 0x30 8 ≤ g.bytes ∧
      bytes = ((admitted s q r).readRange 0 (g.base + field q.bytes 0x28 8) (field q.bytes 0x30 8)).2.1 ∧ s.cfg.staged = none ∧ (∀ d : Die,
      (s.fabric[d]).capArmed = false ∧ (s.fabric[d]).capRead = false) ∧ (store = true → (imgHeader bytes).total ≤ 0x10000000 - s.cfg.primary.toNat) ∧
      (store = false → s.regionInUse true (if (imgHeader bytes).partialImg then (imgHeader bytes).regions else BitVec.allOnes 64) = false)) ∧
    (∃ (s : State) (q : Request) (r : OpRow) (g : Grant), Serves s q 0x0110 r ∧ s.grantOf q.bytes = some g ∧
      field q.bytes 0x28 8 + field q.bytes 0x30 8 ≤ g.bytes ∧ s.cfg.staged ≠ none) ∧
    (∃ (s : State) (q : Request) (r : OpRow) (d : Die) (c : BitVec 4), Serves s q 0x0111 r ∧ field q.bytes 0x20 1 = d.val ∧
      field q.bytes 0x21 1 = c.toNat ∧ field q.bytes 0x22 1 < 2 ∧ field q.bytes 0x28 4 ≠ 0 ∧ (∀ im ∈ s.jobPatterns false, ∀ x ∈ s.patternRegions im,
      x ∉ s.domainRegions d c) ∧ (s.fabric[d]).capArmed = false ∧ (s.fabric[d]).capRead = false ∧ (s.fabric[d]).capStopped = false ∧
      (∀ x ∈ s.domainRegions d c, (s.region x).state ≠ 3 ∧ (s.region x).load = .none)) ∧
    (∃ (s : State) (q : Request) (r : OpRow) (l : Link), Serves s q 0x0112 r ∧ field q.bytes 0x20 1 = l.val ∧ field q.bytes 0x21 1 < 4 ∧
      field q.bytes 0x23 1 < 2 ∧ loopPattern (field q.bytes 0x21 1) (field q.bytes 0x22 1) = false) ∧
    (∃ (s : State) (q : Request) (r : OpRow) (l : Link), Serves s q 0x0112 r ∧ field q.bytes 0x20 1 = l.val ∧ field q.bytes 0x21 1 < 4 ∧
      field q.bytes 0x23 1 < 2 ∧ loopPattern (field q.bytes 0x21 1) (field q.bytes 0x22 1) = true ∧
      (field q.bytes 0x21 1 = 0 ∨ s.linkInUse l = false)) ∧
    (∃ (s : State) (q : Request) (r : OpRow) (l : Link), Serves s q 0x0112 r ∧ field q.bytes 0x20 1 = l.val ∧ field q.bytes 0x21 1 < 4 ∧
      field q.bytes 0x23 1 < 2 ∧ loopPattern (field q.bytes 0x21 1) (field q.bytes 0x22 1) = true ∧ field q.bytes 0x21 1 ≠ 0 ∧ s.linkInUse l = true) ∧
    (∃ (s : State) (q : Request) (r : OpRow) (n : Nat) (used : Nat) (u : State) (c : Code), Serves s q 0x0120 r ∧ n = field q.bytes 0x28 4 ∧
      used = 0x30 + n * itemSize (field q.bytes 0x20 2) ∧ itemSize (field q.bytes 0x20 2) ≠ 0 ∧ q.bytes.length = ceilDiv used 8 * 8 ∧
      zeroAt q.bytes used (q.bytes.length - used) = true ∧
      (admitted s q r).configItem (field q.bytes 0x20 2) ((List.range n).map (fun i => sliceBytes q.bytes (0x30 + itemSize (field q.bytes 0x20 2) * i) (itemSize (field q.bytes 0x20 2)))) = (u,
      c)) ∧
    (∃ (s : State) (u : State) (item : Nat) (es : List (List Byte)) (c : Code), s.configItem item es = (u, c) ∧ c ≠ 0) ∧
    (∃ (s : State) (e : List Byte), zeroAt e 2 2 = true ∧ s.capCovers (field e 0 2) = true) ∧
    (∃ (e : List Byte), zeroAt e 1 3 = true ∧ field e 0 1 ≤ 3) ∧
    (∃ (e : List Byte), zeroAt e 2 2 = true ∧ field e 0 2 ≠ 0) ∧
    (∃ (e : List Byte), field e 0 4 % 65536 = 0 ∧ 0x04000000 ≤ field e 0 4 ∧ field e 0 4 ≤ 0x0FFF0000) :=
  ⟨⟨dst (fun d => { d with grants := [gr1] }) inst, rq 0x110 56 [(0x20, 2, 2), (0x30, 8, 320)], row 0x110, gr1, false, zb 320, by decide +kernel⟩,
   ⟨({ (dst (fun d => { d with grants := [gr1] }) inst) with cfg := { staged := some img1 } } : State), rq 0x110 56 [(0x20, 2, 2), (0x30, 8, 320)],
     row 0x110, gr1, by decide⟩,
   ⟨dst (fun d => { d with grants := [gr1] }) inst, rq 0x111 64 [(0x28, 4, 9), (0x30, 8, 4096), (0x38, 8, 256)], row 0x111, 0, 0, by decide⟩,
   ⟨inst, rq 0x112 40 [(0x20, 1, 3), (0x21, 1, 2), (0x22, 1, 1), (0x23, 1, 1)], row 0x112, 3, by decide⟩,
   ⟨inst, rq 0x112 40 [(0x20, 1, 3), (0x21, 1, 2), (0x22, 1, 3), (0x23, 1, 1)], row 0x112, 3, by decide +kernel⟩,
   ⟨up3 id { inst with tick := { inst.tick with upLink := 3 } }, rq 0x112 40 [(0x20, 1, 3), (0x21, 1, 2), (0x22, 1, 3), (0x23, 1, 1)], row 0x112, 3,
     by decide +kernel⟩,
   ⟨inst, rq 0x120 56 [(0x20, 2, 8), (0x28, 4, 1), (0x30, 4, 77)], row 0x120, 1, 52,
     ({ (admitted inst (rq 0x120 56 [(0x20, 2, 8), (0x28, 4, 1), (0x30, 4, 77)]) (row 0x120)) with sec := { (admitted inst (rq 0x120 56 [(0x20, 2, 8), (0x28, 4, 1), (0x30, 4, 77)]) (row 0x120)).sec with idleS := 77 } } : State),
     0, by decide +kernel, by decide +kernel, by decide +kernel, by decide +kernel, by decide +kernel, by decide +kernel, rfl⟩,
   ⟨win, win, 0, [], 0x0105, rfl, by decide +kernel⟩,
   ⟨win, [44, 1, 0, 0], by decide⟩,
   ⟨[2, 0, 0, 0], by decide⟩,
   ⟨[2, 1, 0, 0], by decide⟩,
   ⟨[0, 0, 0, 8], by decide⟩⟩

/-- Hypotheses of RoleCommands. -/
theorem test_meets_role_commands :
    (∃ (s : State) (q : Request) (r : OpRow) (nonce : _), Serves s q 0x0100 r ∧ nonce = sliceBytes (Config.random s.fresh) 0 32) ∧
    (∃ (s : State) (q : Request) (r : OpRow) (hd : List Byte) (sig : List Byte) (nonce : List Byte) (key : List Byte) (at_ : Time),
      Serves s q 0x0101 r ∧ (∀ u, (s.sec.roles[q.transport]).lockedUntil = some u → u ≤ s.now) ∧
      (field q.bytes 0x20 1 = 2 ∨ field q.bytes 0x20 1 = 3) ∧ field q.bytes 0x22 1 = 0 ∧ field q.bytes 0x23 1 = 1 ∧
      field q.bytes 0x24 2 = field q.bytes 0x28 4 ∧ field q.bytes 0x28 4 ≤ 28672 ∧ q.bytes.length = 0x70 + ceilDiv (field q.bytes 0x24 2) 8 * 8 ∧
      hd = sliceBytes q.bytes 0x20 80 ∧ sig = sliceBytes q.bytes 0x70 (field q.bytes 0x24 2) ∧ (s.sec.roles[q.transport]).nonce = some (nonce, at_) ∧
      s.now < at_ + 1020000000000 ∧ s.entryKey (field hd 0 1) (field hd 1 1) (sliceBytes hd 0x10 60) = some key ∧
      hssCheck key (s.entryMessage nonce (field hd 0 1) (field hd 1 1) q.transport) sig = 0) ∧
    (∃ (s : State) (q : Request) (r : OpRow) (hd : List Byte) (sig : List Byte) (nonce : List Byte) (key : List Byte) (at_ : Time) (c : Code),
      Serves s q 0x0101 r ∧ (∀ u, (s.sec.roles[q.transport]).lockedUntil = some u → u ≤ s.now) ∧
      (field q.bytes 0x20 1 = 2 ∨ field q.bytes 0x20 1 = 3) ∧ field q.bytes 0x22 1 = 0 ∧ field q.bytes 0x23 1 = 1 ∧
      field q.bytes 0x24 2 = field q.bytes 0x28 4 ∧ field q.bytes 0x28 4 ≤ 28672 ∧ q.bytes.length = 0x70 + ceilDiv (field q.bytes 0x24 2) 8 * 8 ∧
      hd = sliceBytes q.bytes 0x20 80 ∧ sig = sliceBytes q.bytes 0x70 (field q.bytes 0x24 2) ∧ (s.sec.roles[q.transport]).nonce = some (nonce, at_) ∧
      s.now < at_ + 1020000000000 ∧ s.entryKey (field hd 0 1) (field hd 1 1) (sliceBytes hd 0x10 60) = some key ∧
      hssCheck key (s.entryMessage nonce (field hd 0 1) (field hd 1 1) q.transport) sig = c ∧ c ≠ 0) ∧
    (∃ (s : State) (q : Request) (r : OpRow) (u : Time), Serves s q 0x0101 r ∧ (s.sec.roles[q.transport]).lockedUntil = some u ∧ s.now < u) ∧
    (∃ (s : State) (q : Request) (r : OpRow), Serves s q 0x0102 r) ∧
    (∃ (s : State) (t : Transport), (s.sec.roles[t]).role ≠ .operator ∧ (s.sec.roles[t]).lastUse + 17000000000 * s.sec.idleS.toNat ≤ s.now) ∧
    (∃ (s : State) (t : Transport), s.now < (s.sec.roles[t]).lastUse + 17000000000 * s.sec.idleS.toNat) ∧
    (∃ (s : State) (t : Transport) (n : _) (at_ : _), (s.sec.roles[t]).nonce = some (n, at_) ∧ at_ + 1020000000000 ≤ s.now) ∧
    (∃ (s : State) (t : Transport) (u : _), (s.sec.roles[t]).lockedUntil = some u ∧ u ≤ s.now) ∧
    (∃ (s : State) (t : Transport) (u : _), (s.sec.roles[t]).lockedUntil = some u ∧ s.now < u) :=
  ⟨⟨win, rq 0x100 32, row 0x100, sliceBytes (Config.random win.fresh) 0 32, by decide +kernel, rfl⟩,
   ⟨entrySt, entryQ, row 0x101, sliceBytes entryQ.bytes 0x20 80, sliceBytes entryQ.bytes 0x70 1296, [7], keyZ entryMsg, 0, by decide +kernel,
     (by intro u h; cases h), by decide +kernel, by decide +kernel, by decide +kernel, by decide +kernel, by decide +kernel, by decide +kernel, rfl,
     rfl, rfl, by decide +kernel, rfl, signsZ _ _ (by decide +kernel)⟩,
   ⟨entrySt, rq 0x101 128 [(0x20, 1, 2), (0x23, 1, 1), (0x24, 2, 16), (0x28, 4, 16)], row 0x101, sliceBytes (rq 0x101 128 [(0x20, 1, 2), (0x23, 1, 1),
     (0x24, 2, 16), (0x28, 4, 16)]).bytes 0x20 80, sliceBytes (rq 0x101 128 [(0x20, 1, 2), (0x23, 1, 1), (0x24, 2, 16), (0x28, 4, 16)]).bytes 0x70 16,
     [7], keyZ entryMsg, 0, 0x0701, by decide +kernel, (by intro u h; cases h), by decide +kernel, by decide +kernel, by decide +kernel,
     by decide +kernel, by decide +kernel, by decide +kernel, rfl, rfl, rfl, by decide +kernel, rfl, by decide +kernel, by decide +kernel⟩,
   ⟨win.modRole 3 (fun r => { r with lockedUntil := some 5 }), rq 0x101 120, row 0x101, 5, by decide, rfl, by decide⟩,
   ⟨inst, rq 0x102 32, row 0x102, by decide⟩,
   ⟨{ inst with now := 20000000000000 }, 3, by decide⟩,
   ⟨inst, 3, by decide⟩,
   ⟨{ win.modRole 3 (fun r => { r with nonce := some ([1], 0) }) with now := 1020000000000 }, 3, [1], 0, by decide⟩,
   ⟨{ win.modRole 3 (fun r => { r with lockedUntil := some 5 }) with now := 9 }, 3, 5, rfl, by decide⟩,
   ⟨win.modRole 3 (fun r => { r with lockedUntil := some 5 }), 3, 5, rfl, by decide⟩⟩

/-- Hypotheses of FirmwareKeyAndMakerMessages. -/
theorem test_meets_firmware_key_and_maker_messages :
    (∃ (s : State) (q : Request) (r : OpRow) (g : Grant) (im : List Byte) (n : Fin 2), Serves s q 0x0130 r ∧ s.sec.inTrial = false ∧
      s.grantOf q.bytes = some g ∧ field q.bytes 0x28 8 + field q.bytes 0x30 8 ≤ g.bytes ∧
      im = ((admitted s q r).readRange 0 (g.base + field q.bytes 0x28 8) (min (field q.bytes 0x30 8) 0x1000001)).2.1 ∧
      n = (if s.sec.fwSlot then 0 else 1) ∧ s.firmwareOk im = true ∧ s.sec.rollback.toNat ≤ field im 0x0C 4) ∧
    (∃ (s : State) (q : Request) (r : OpRow) (g : Grant) (im : List Byte) (n : Fin 2), Serves s q 0x0130 r ∧ s.sec.inTrial = false ∧
      s.grantOf q.bytes = some g ∧ field q.bytes 0x28 8 + field q.bytes 0x30 8 ≤ g.bytes ∧
      im = ((admitted s q r).readRange 0 (g.base + field q.bytes 0x28 8) (min (field q.bytes 0x30 8) 0x1000001)).2.1 ∧
      n = (if s.sec.fwSlot then 0 else 1) ∧ s.firmwareOk im = false) ∧
    (∃ (s : State) (q : Request) (r : OpRow) (g : Grant) (im : List Byte) (n : Fin 2), Serves s q 0x0130 r ∧ s.sec.inTrial = false ∧
      s.grantOf q.bytes = some g ∧ field q.bytes 0x28 8 + field q.bytes 0x30 8 ≤ g.bytes ∧
      im = ((admitted s q r).readRange 0 (g.base + field q.bytes 0x28 8) (min (field q.bytes 0x30 8) 0x1000001)).2.1 ∧
      n = (if s.sec.fwSlot then 0 else 1) ∧ s.firmwareOk im = true ∧ field im 0x0C 4 < s.sec.rollback.toNat) ∧
    (∃ (s : State) (q : Request) (r : OpRow), Serves s q 0x0131 r ∧ s.sec.inTrial = false ∧ s.sec.fwStaged = true) ∧
    (∃ (s : State) (q : Request) (r : OpRow), Serves s q 0x0132 r ∧ s.sec.inTrial = true) ∧
    (∃ (s : State) (q : Request) (r : OpRow) (op : _), op ∈ [(0x0131, Instr.fwActivate q), (0x0130, Instr.fwStage q)] ∧ Serves s q op.1 r ∧
      s.sec.inTrial = true) ∧
    (∃ (s : State) (q : Request) (r : OpRow) (n : Fin 4), Serves s q 0x0133 r ∧ field q.bytes 0x20 1 = n.val ∧ (∀ k ∈ s.sec.installer[n],
      k.revoked = true) ∧ hssKeyOk (sliceBytes q.bytes 0x28 60) = true) ∧
    (∃ (s : State) (q : Request) (r : OpRow) (n : Fin 4) (k : _), Serves s q 0x0133 r ∧ field q.bytes 0x20 1 = n.val ∧ s.sec.installer[n] = some k ∧
      k.revoked = false) ∧
    (∃ (s : State) (q : Request) (r : OpRow) (n : Fin 4) (k : InstallerKey), Serves s q 0x0134 r ∧ field q.bytes 0x20 1 = 0 ∧
      field q.bytes 0x21 1 = n.val ∧ s.cfg.staged = none ∧ s.sec.installer[n] = some k ∧ k.revoked = false ∧
      (s.sec.enrolled ≠ 1#4 <<< n.val ∨ (s.sec.roles[q.transport]).role = .maker)) ∧
    (∃ (s : State) (q : Request) (r : OpRow) (n : Fin 4) (k : InstallerKey), Serves s q 0x0134 r ∧ field q.bytes 0x20 1 = 0 ∧
      field q.bytes 0x21 1 = n.val ∧ s.cfg.staged = none ∧ s.sec.installer[n] = some k ∧ k.revoked = false ∧ s.sec.enrolled = 1#4 <<< n.val ∧
      (s.sec.roles[q.transport]).role ≠ .maker) ∧
    (∃ (s : State) (q : Request) (r : OpRow) (slot : Nat), Serves s q 0x0134 r ∧ field q.bytes 0x20 1 = 1 ∧ field q.bytes 0x21 1 = slot ∧
      s.cfg.staged = none ∧ slot ≤ 5 ∧ (4 ≤ slot ∨ (s.sec.roles[q.transport]).role = .maker) ∧ (4 ≤ slot ∨ q.fuseFails = false)) ∧
    (∃ (s : State) (q : Request) (r : OpRow) (slot : Nat), Serves s q 0x0134 r ∧ field q.bytes 0x20 1 = 1 ∧ field q.bytes 0x21 1 = slot ∧
      s.cfg.staged = none ∧ slot ≤ 5 ∧ (4 ≤ slot ∨ (s.sec.roles[q.transport]).role = .maker) ∧ slot < 4 ∧ q.fuseFails = true) ∧
    (∃ (s : State) (q : Request) (r : OpRow) (n : Fin 2), Serves s q 0x0135 r ∧ field q.bytes 0x20 1 = 4 + n.val ∧ s.cfg.staged = none ∧
      field q.bytes 0x22 1 = 1) ∧
    (∃ (s : State) (q : Request) (r : OpRow) (n : Fin 2) (wrap : List Byte) (key : List Byte), Serves s q 0x0135 r ∧
      field q.bytes 0x20 1 = 4 + n.val ∧ s.cfg.staged = none ∧ field q.bytes 0x22 1 = 0 ∧ field q.bytes 0x21 1 < 4 ∧
      s.sec.key (field q.bytes 0x21 1) = some wrap ∧ keyUnwrap wrap (sliceBytes q.bytes 0x28 40) = some key) ∧
    (∃ (s : State) (q : Request) (r : OpRow) (n : Fin 2) (wrap : List Byte), Serves s q 0x0135 r ∧ field q.bytes 0x20 1 = 4 + n.val ∧
      s.cfg.staged = none ∧ field q.bytes 0x22 1 = 0 ∧ field q.bytes 0x21 1 < 4 ∧ s.sec.key (field q.bytes 0x21 1) = some wrap ∧
      keyUnwrap wrap (sliceBytes q.bytes 0x28 40) = none) ∧
    (∃ (s : State) (q : Request) (r : OpRow) (g : Grant) (im : List Byte), Serves s q 0x0138 r ∧ s.grantOf q.bytes = some g ∧
      field q.bytes 0x28 8 + field q.bytes 0x30 8 ≤ g.bytes ∧
      im = ((admitted s q r).readRange 0 (g.base + field q.bytes 0x28 8) (field q.bytes 0x30 8)).2.1 ∧ s.cfg.staged = none ∧
      (imgHeader im).total ≤ 0x10000000 ∧ (admitted s q r).goldenFault im = (0, 0)) ∧
    (∃ (s : State) (q : Request) (r : OpRow) (g : Grant) (im : List Byte) (c : Code) (o : Nat), Serves s q 0x0138 r ∧ s.grantOf q.bytes = some g ∧
      field q.bytes 0x28 8 + field q.bytes 0x30 8 ≤ g.bytes ∧
      im = ((admitted s q r).readRange 0 (g.base + field q.bytes 0x28 8) (field q.bytes 0x30 8)).2.1 ∧ s.cfg.staged = none ∧
      (imgHeader im).total ≤ 0x10000000 ∧ (admitted s q r).goldenFault im = (c, o) ∧ c ≠ 0) ∧
    (∃ (s : State) (q : Request) (r : OpRow) (n : Fin 4) (key : _), Serves s q 0x0139 r ∧ field q.bytes 0x20 1 = n.val ∧ s.sec.fuseKeys[n] = none ∧
      keyUnwrap s.sec.provKey (sliceBytes q.bytes 0x28 40) = some key ∧ q.fuseFails = true) ∧
    (∃ (s : State) (q : Request) (r : OpRow) (n : Fin 4) (key : _), Serves s q 0x0139 r ∧ field q.bytes 0x20 1 = n.val ∧ s.sec.fuseKeys[n] = none ∧
      keyUnwrap s.sec.provKey (sliceBytes q.bytes 0x28 40) = some key ∧ q.fuseFails = false) ∧
    (∃ (s : State) (q : Request) (r : OpRow) (n : Fin 4), Serves s q 0x0139 r ∧ field q.bytes 0x20 1 = n.val ∧ s.sec.fuseKeys[n] ≠ none) ∧
    (∃ (s : State) (q : Request) (r : OpRow), Serves s q 0x013A r ∧ field q.bytes 0x20 1 = 1 ∧ s.jobsActive = false) ∧
    (∃ (s : State) (q : Request) (r : OpRow), Serves s q 0x013A r ∧ field q.bytes 0x20 1 = 1 ∧ s.jobsActive = true) ∧
    (∃ (s : State) (q : Request) (r : OpRow), Serves s q 0x013B r ∧ s.jobsActive = false) ∧
    (∃ (s : State) (q : Request) (r : OpRow), Serves s q 0x013B r ∧ s.jobsActive = true) :=
  ⟨⟨fwSt (fun x => x), fwQ, row 0x130, grX, fwImg, 1, by decide +kernel, by decide +kernel, by decide +kernel, by decide +kernel, fwRead _,
     by decide +kernel, fw_ok _ rfl, by decide +kernel⟩,
   ⟨dst (fun d => { d with grants := [gr1] }) inst, rq 0x130 56 [(0x20, 2, 2), (0x30, 8, 16)], row 0x130, gr1, List.replicate 16 0, 1,
     by decide +kernel⟩,
   ⟨fwSt (fun x => { x with rollback := 3 }), fwQ, row 0x130, grX, fwImg, 1, by decide +kernel, by decide +kernel, by decide +kernel,
     by decide +kernel, fwRead _, by decide +kernel, fw_ok _ rfl, by decide +kernel⟩,
   ⟨(sec (fun x => { x with fwStaged := true })), rq 0x131 32, row 0x131, by decide⟩,
   ⟨(sec (fun x => { x with switchRec := { slot := false, trial := 2 } })), rq 0x132 32, row 0x132, by decide⟩,
   ⟨(sec (fun x => { x with switchRec := { slot := false, trial := 2 } })), rq 0x131 32, row 0x131, (0x0131, Instr.fwActivate (rq 0x131 32)), .head _,
     by decide +kernel, by decide +kernel⟩,
   ⟨maker, rq 0x133 104 [(0x20, 1, 1), (0x2B, 1, 1), (0x2F, 1, 5), (0x33, 1, 1)], row 0x133, 1, by decide⟩,
   ⟨(sec (fun x => { x with installer := #v[some { key := [1], revoked := false }, none, none, none] }) inst), rq 0x133 104 [(0x20, 1, 0), (0x2B, 1,
     1), (0x2F, 1, 5), (0x33, 1, 1)], row 0x133, 0, ({ key := [1] } : InstallerKey), by decide⟩,
   ⟨(sec (fun x => { x with installer := #v[some { key := [1], revoked := false }, some { key := [2] }, none, none] }) inst), rq 0x134 40 [(0x20, 2,
     0)], row 0x134, 0, ({ key := [1] } : InstallerKey), by decide⟩,
   ⟨(sec (fun x => { x with installer := #v[some { key := [1], revoked := false }, none, none, none] }) inst), rq 0x134 40 [(0x20, 2, 0)], row 0x134,
     0, ({ key := [1] } : InstallerKey), by decide⟩,
   ⟨inst, rq 0x134 40 [(0x20, 1, 1), (0x21, 1, 4)], row 0x134, 4, by decide⟩,
   ⟨maker, { rq 0x134 40 [(0x20, 1, 1), (0x21, 1, 0)] with fuseFails := true }, row 0x134, 0, by decide +kernel⟩,
   ⟨inst, rq 0x135 80 [(0x20, 1, 4), (0x22, 1, 1)], row 0x135, 0, by decide⟩,
   ⟨(sec (fun x => { x with fuseKeys := #v[some zeroKey, none, none, none] }) inst), rq 0x135 80 ((0x20, 1, 4) :: wrapF), row 0x135, 0, zeroKey,
     zeroKey, by decide +kernel, by decide +kernel, by decide +kernel, by decide +kernel, by decide +kernel, by decide +kernel, unwrap0⟩,
   ⟨(sec (fun x => { x with fuseKeys := #v[some zeroKey, none, none, none] }) inst), rq 0x135 80 [(0x20, 1, 4)], row 0x135, 0, zeroKey, by decide⟩,
   ⟨goldSt, goldQ, row 0x138, grX, gold, by decide +kernel, by decide +kernel, by decide +kernel, goldRead, by decide +kernel, by decide +kernel,
     gold_ok⟩,
   ⟨dst (fun d => { d with grants := [gr1] }) maker, rq 0x138 56 [(0x20, 2, 2), (0x30, 8, 16)], row 0x138, gr1, List.replicate 16 0, 0x0641, 0,
     by decide +kernel⟩,
   ⟨(sec (fun x => { x with provKey := zeroKey }) maker), { rq 0x139 80 ((0x20, 1, 2) :: wrapF) with fuseFails := true }, row 0x139, 2, zeroKey,
     by decide +kernel, by decide +kernel, by decide +kernel, unwrap0, by decide +kernel⟩,
   ⟨(sec (fun x => { x with provKey := zeroKey }) maker), rq 0x139 80 ((0x20, 1, 2) :: wrapF), row 0x139, 2, zeroKey, by decide +kernel,
     by decide +kernel, by decide +kernel, unwrap0, by decide +kernel⟩,
   ⟨(sec (fun x => { x with fuseKeys := #v[some zeroKey, none, none, none] }) maker), rq 0x139 80, row 0x139, 0, by decide⟩,
   ⟨maker, rq 0x13a 40 [(0x20, 1, 1)], row 0x13a, by decide⟩,
   ⟨dst (fun d => { d with jobs := [jobQ] }) maker, rq 0x13a 40 [(0x20, 1, 1)], row 0x13a, by decide⟩,
   ⟨maker, rq 0x13b 32, row 0x13b, by decide⟩,
   ⟨dst (fun d => { d with jobs := [jobQ] }) maker, rq 0x13b 32, row 0x13b, by decide⟩⟩

/-- Hypotheses of Rungs. -/
theorem test_meets_rungs :
    (∃ (s : State) (i : Spindle), RungFree s (.spindle i) 1 ∧ (s.spindles[i]).power ≠ .failed ∧ (s.rungEntries i).length < s.flt.repeatLimit.toNat) ∧
    (∃ (s : State) (i : Spindle), RungFree s (.spindle i) 2 ∧ (s.spindles[i]).power ≠ .failed ∧ (s.rungEntries i).length < s.flt.repeatLimit.toNat) ∧
    (∃ (s : State) (i : Spindle), RungFree s (.spindle i) 1 ∧ (s.spindles[i]).power ≠ .failed ∧ s.flt.repeatLimit.toNat ≤ (s.rungEntries i).length) ∧
    (∃ (s : State) (i : Spindle), RungFree s (.spindle i) 3 ∧ (s.spindles[i]).power ≠ .failed) ∧
    (∃ (s : State), s.flt.dead = true) ∧
    (∃ (s : State) (cause : Code) (k : Instr) (u : ResetUnit) (rung : Nat), ((∃ x : Skein, k = .skeinComputeReset x cause ∧ u = .skein x ∧
      rung = 4) ∨ (∃ d : Die, k = .dieComputeReset d cause ∧ u = .die d ∧ rung = 5) ∨ (k = .deviceComputeReset cause ∧ u = .device ∧ rung = 6)) ∧
      RungFree s u rung) ∧
    (∃ (s : State) (cause : Code) (k : Instr) (u : ResetUnit) (rung : Nat), ((∃ x : Skein, k = .skeinComputeReset x cause ∧ u = .skein x ∧
      rung = 4) ∨ (∃ d : Die, k = .dieComputeReset d cause ∧ u = .die d ∧ rung = 5) ∨ (k = .deviceComputeReset cause ∧ u = .device ∧ rung = 6)) ∧
      s.flt.dead = true) ∧
    (∃ (s : State), s.flt.dead = false ∧ s.inFullReset = false) :=
  ⟨⟨with5 (fun x => { x with scratch := [(1, 2)] }), 5, by decide⟩,
   ⟨with5 (fun x => { x with scratch := [(1, 2)] }), 5, by decide⟩,
   ⟨with5 (fun x => { x with rungTicks := [0, 0, 0] }), 5, by decide⟩,
   ⟨win, 5, by decide⟩,
   ⟨flt (fun f => { f with dead := true }), by decide⟩,
   ⟨win, 0x0812, (.skeinComputeReset 2 0x0812 : Instr), (.skein 2 : ResetUnit), 4, .inl ⟨2, rfl, rfl, rfl⟩, by decide +kernel⟩,
   ⟨flt (fun f => { f with dead := true }), 0x0812, (.skeinComputeReset 2 0x0812 : Instr), (.skein 2 : ResetUnit), 4, .inl ⟨2, rfl, rfl, rfl⟩,
     by decide +kernel⟩,
   ⟨win, by decide⟩⟩

/-- Hypotheses of RungsEndAndWatch. -/
theorem test_meets_rungs_end_and_watch :
    (∃ (s : State) (u : ResetUnit) (r : Rung) (i : Spindle), Clocked s ∧ s.rungOn u = some r ∧ s.now ≤ r.boundFrom + rungBound r.rung ∧
      u = .spindle i ∧ r.rung = 1) ∧
    (∃ (s : State) (u : ResetUnit) (r : Rung), Clocked s ∧ s.rungOn u = some r ∧ s.now ≤ r.boundFrom + rungBound r.rung ∧ u = .device ∧ r.rung = 6 ∧
      (∀ x ∈ s.flt.rungs, x.unit ≠ .device → x.rung < 4)) ∧
    (∃ (s : State) (u : ResetUnit) (r : Rung), Clocked s ∧ s.rungOn u = some r ∧ s.now ≤ r.boundFrom + rungBound r.rung ∧ r.rung = 7 ∧
      s.flt.trained = true ∧ s.pwr.sysRstLow = false ∧ s.flt.dead = false) ∧
    (∃ (s : State) (u : ResetUnit) (r : Rung) (i : Spindle), s.rungOn u = some r ∧ r.boundFrom + rungBound r.rung < s.now ∧ u = .spindle i ∧
      r.rung = 1 ∧ RungFree s u 2 ∧ (s.spindles[i]).power ≠ .failed ∧ (s.rungEntries i).length < s.flt.repeatLimit.toNat) ∧
    (∃ (s : State) (u : ResetUnit) (r : Rung) (k : Skein), s.rungOn u = some r ∧ r.boundFrom + rungBound r.rung < s.now ∧ u = .skein k ∧ r.rung = 4 ∧
      RungFree s (.die (dieOfSkein k)) 5) ∧
    (∃ (s : State) (u : ResetUnit) (r : Rung) (d : Die), s.rungOn u = some r ∧ r.boundFrom + rungBound r.rung < s.now ∧ u = .die d ∧ r.rung = 5 ∧
      RungFree s .device 6) ∧
    (∃ (s : State) (u : ResetUnit) (r : Rung), s.rungOn u = some r ∧ r.boundFrom + rungBound r.rung < s.now ∧ r.rung = 7 ∧ s.pwr.sysRstLow = false ∧
      s.pwr.thermtripLow = false ∧ s.pwr.refCoreBad = false) ∧
    (∃ (s : State), Clocked s ∧ s.flt.restoringSince ≠ none ∧ s.dist.alive = true ∧ (∀ r ∈ s.flt.rungs, r.rung < 4)) ∧
    (∃ (s : State) (at_ : Time), s.flt.restoredAt = some at_ ∧ at_ + 170000 ≤ s.tick.lastEdge) ∧
    (∃ (s : State) (at_ : Time), s.flt.restoredAt = some at_ ∧ s.tick.lastEdge < at_ + 170000) ∧
    (∃ (s : State) (w : WatchUnit) (cls : Nat) (index : Nat) (rung : Nat) (u : ResetUnit), s.flt.wdogEn = true ∧ s.hung w = true ∧ hangRung w = (cls,
      index, u, rung)) ∧
    (∃ (s : State) (w : WatchUnit), (s.flt.wdogEn = false ∨ s.hung w = false)) ∧
    (∃ (s : State) (w : WatchUnit), (s.watched w = false ∨ (s.sampleOf w).seen ≠ s.progress w ∨ s.now < (s.sampleOf w).since + s.hangWindow)) ∧
    (∃ (s : State), s.flt.windowUs = 0) ∧
    (∃ (s : State), s.flt.windowUs ≠ 0) ∧
    (∃ (s : State) (core : Fin 4), s.dist.alive = true ∧ s.flt.coreHalted.getLsbD core.val = false) :=
  ⟨⟨rung1 (.spindle 5) 1 0, ((.spindle 5) : ResetUnit), rg (.spindle 5) 1, 5, by decide⟩,
   ⟨rung1 .device 6 0, (.device : ResetUnit), rg .device 6, by decide⟩,
   ⟨ups (flt (fun f => { f with trained := true }) (rung1 .device 7)), (.device : ResetUnit), rg .device 7, by decide⟩,
   ⟨rung1 (.spindle 5) 1 100000, ((.spindle 5) : ResetUnit), rg (.spindle 5) 1, 5, by decide⟩,
   ⟨rung1 (.skein 3) 4 1000000, ((.skein 3) : ResetUnit), rg (.skein 3) 4, 3, by decide⟩,
   ⟨rung1 (.die 1) 5 10000000, ((.die 1) : ResetUnit), rg (.die 1) 5, 1, by decide⟩,
   ⟨ups (rung1 .device 7 1000000000000), (.device : ResetUnit), rg .device 7, by decide⟩,
   ⟨flt (fun f => { f with restoringSince := some 0 }), by decide⟩,
   ⟨{ flt (fun f => { f with restoredAt := some 0 }) with tick := { win.tick with lastEdge := 170000 } }, 0, by decide⟩,
   ⟨flt (fun f => { f with restoredAt := some 0 }), 0, by decide⟩,
   ⟨{ flt (fun f => { f with windowUs := 10, watchChannel := f.watchChannel.set 0 { since := 0, seen := [0, 0] } }) (dmaSt) with now := 170000 },
     .channel 0, 1, 0, 4, .skein 0, by decide +kernel⟩,
   ⟨win, .channel 0, by decide⟩,
   ⟨win, .channel 0, by decide⟩,
   ⟨flt (fun f => { f with windowUs := 0 }), by decide⟩,
   ⟨flt (fun f => { f with windowUs := 9 }), by decide⟩,
   ⟨win, 2, by decide⟩⟩

/-- Hypotheses of EdgesAndFunctions. -/
theorem test_meets_edges_and_functions :
    (∃ (s : State) (e : Fin 4), (s.edges[e]).up = true) ∧
    (∃ (s : State) (e : Fin 4), (s.edges[e]).up = false ∧ s.inFullReset = false ∧ s.now ≤ (s.edges[e]).downAt + 5100000) ∧
    (∃ (s : State) (e : Fin 4), (s.edges[e]).up = false ∧ s.inFullReset = false ∧ (s.edges[e]).downAt + 5100000 < s.now) ∧
    (∃ (s : State) (e : Fin 4), (s.edges[e]).up = false ∧ s.inFullReset = false ∧ s.flt.dead = false) ∧
    (∃ (s : State) (f : Func), (s.fnOf f).st = .on) ∧
    (∃ (s : State) (f : Func), (s.fnOf f).st ≠ .on) ∧
    (∃ (s : State) (f : Func), (s.fnOf f).st = .draining ∧ s.drained f = true) ∧
    (∃ (s : State) (f : Func), (s.fnOf f).st = .draining ∧ s.drained f = false) ∧
    (∃ (s : State) (f : Func), (s.fnOf f).st = .off) :=
  ⟨⟨{ win with edges := Vector.replicate 4 { up := true } }, 0, by decide⟩,
   ⟨{ win with edges := Vector.replicate 4 { up := false, downAt := 0 }, now := 5100000 }, 1, by decide⟩,
   ⟨{ win with edges := Vector.replicate 4 { up := false, downAt := 0 }, now := 5100001 }, 1, by decide +kernel⟩,
   ⟨{ win with edges := Vector.replicate 4 { up := false, downAt := 0 }, now := 5100001 }, 1, by decide⟩,
   ⟨win, (.spindle 5 : Func), by decide⟩,
   ⟨flt (fun f => { f with spindleFn := Vector.replicate 128 { st := .off } }), (.spindle 5 : Func), by decide⟩,
   ⟨flt (fun f => { f with spindleFn := Vector.replicate 128 { st := .draining } }), (.spindle 5 : Func), by decide +kernel⟩,
   ⟨with5 (fun x => { x with passes := [pass1] }) (flt (fun f => { f with spindleFn := Vector.replicate 128 { st := .draining } })),
     (.spindle 5 : Func), by decide⟩,
   ⟨flt (fun f => { f with spindleFn := Vector.replicate 128 { st := .off } }), (.spindle 5 : Func), by decide⟩⟩

/-- Hypotheses of ThermalCommands. -/
theorem test_meets_thermal_commands :
    (∃ (s : State) (d : Die) (at_ : Time), (s.pwr.therm[d]).coolSince = some at_ ∧ (s.pwr.therm[d]).target.toNat < (s.pwr.therm[d]).level.toNat ∧
      at_ + 17000000 * max 1 s.pwr.fallMs.toNat ≤ s.now) ∧
    (∃ (s : State) (d : Die) (at_ : Time), (s.pwr.therm[d]).coolSince = some at_ ∧ (s.pwr.therm[d]).target.toNat < (s.pwr.therm[d]).level.toNat ∧
      s.now < at_ + 17000000 * max 1 s.pwr.fallMs.toNat) ∧
    (∃ (s : State) (d : Die) (sensor : Fin 64) (tempC : BitVec 8), s.pwr.thermtripLow = false ∧ tripReading d sensor tempC = true) ∧
    (∃ (s : State) (d : Die) (sensor : Fin 64) (tempC : BitVec 8), s.pwr.thermtripLow = false ∧ tripReading d sensor tempC = false) ∧
    (∃ (s : State), s.pwr.thermtripLow = true ∧ s.pwr.sysRstLow = true ∧ ((∀ e : Die, ∃ at_, (s.pwr.therm[e]).below95 = some at_ ∧
      at_ + 17000000000 ≤ s.now))) ∧
    (∃ (s : State), s.pwr.sysRstLow = false) ∧
    (∃ (s : State) (t10 : Nat), t10 < 10 * s.pwr.startC.toNat) ∧
    (∃ (s : State) (t10 : Nat), 10 * s.pwr.startC.toNat ≤ t10 ∧ 1045 ≤ t10) ∧
    (∃ (a : Nat) (b : Nat), a ≤ b) ∧
    (∃ (s : State), s.pwr.thermtripLow = false ∧ s.flt.alert = false ∧ s.flt.stale = false ∧ s.flt.emergActive = true ∧ s.flt.clearSince = none) ∧
    (∃ (s : State) (d : Die), s.pwr.thermtripLow = false ∧ (s.pwr.therm[d]).readAt + 170000000 < s.now) ∧
    (∃ (s : State) (d : Die), s.pwr.thermtripLow = false ∧ s.now ≤ (s.pwr.therm[d]).readAt + 170000000) ∧
    (∃ (s : State) (at_ : Time), s.pwr.thermtripLow = false ∧ s.flt.emergActive = true ∧ s.flt.stale = false ∧ s.flt.fwForce = false ∧
      s.flt.clearSince = some at_ ∧ at_ + 1700000 ≤ s.now) ∧
    (∃ (s : State) (at_ : Time), s.pwr.thermtripLow = false ∧ s.flt.emergActive = true ∧ s.flt.stale = false ∧ s.flt.fwForce = false ∧
      s.flt.clearSince = some at_ ∧ s.now < at_ + 1700000) :=
  ⟨⟨{ pwr (fun p => { p with therm := Vector.replicate 4 { coolSince := some 0, level := 5 } }) with now := 17000000000 }, 1, 0, by decide⟩,
   ⟨{ pwr (fun p => { p with therm := Vector.replicate 4 { coolSince := some 0, level := 5 } }) with now := 0 }, 1, 0, by decide⟩,
   ⟨win, 1, 3, 130, by decide⟩,
   ⟨win, 1, 3, 20, by decide⟩,
   ⟨{ pwr (fun p => { p with thermtripLow := true, sysRstLow := true, therm := Vector.replicate 4 { below95 := some 0 } }) with now := 17000000000 },
     by decide +kernel, by decide +kernel, fun e => ⟨0, by decide +revert, by decide⟩⟩,
   ⟨ups, by decide⟩,
   ⟨win, 0, by decide⟩,
   ⟨win, 1100, by decide⟩,
   ⟨800, 900, by decide⟩,
   ⟨{ flt (fun f => { f with emergActive := true, fwForce := true }) with now := 0 }, by decide⟩,
   ⟨{ win with now := 170000001 }, 0, by decide⟩,
   ⟨win, 0, by decide⟩,
   ⟨{ flt (fun f => { f with emergActive := true, clearSince := some 0 }) with now := 1700000 }, 0, by decide⟩,
   ⟨{ flt (fun f => { f with emergActive := true, clearSince := some 0 }) with now := 0 }, 0, by decide⟩⟩

/-- Hypotheses of SuppliesAndPins. -/
theorem test_meets_supplies_and_pins :
    (∃ (s : State) (rail : Fin 18), s.pwr.sysRstLow = false ∧ rail.val < 13) ∧
    (∃ (s : State) (rail : Fin 18), (s.pwr.sysRstLow = true ∨ 13 ≤ rail.val)) ∧
    (∃ (s : State), s.pwr.sysRstLow = false) ∧
    (∃ (s : State), s.pwr.sysRstLow = false) ∧
    (∃ (s : State), s.pwr.sysRstLow = false) ∧
    (∃ (s : State), s.dist.alive = true ∧ s.pwr.sysRstLow = false) ∧
    (∃ (s : State), s.pwr.sysRstLow = false ∧ s.flt.dead = false ∧ s.inFullReset = false) ∧
    (∃ (s : State), s.pwr.sysRstLow = true) ∧
    (∃ (s : State), s.pwr.sysRstLow = true) ∧
    (∃ (s : State), s.tick.src = 2 ∧ s.tick.enable = true ∧ s.tick.tickInAt = none ∧ s.tick.nextEdge ≤ s.now + 17000 ∧
      s.now ≤ s.tick.nextEdge + 17000) ∧
    (∃ (s : State), s.tick.src = 2 ∧ s.tick.enable = true ∧
      (s.tick.tickInAt ≠ none ∨ s.now + 17000 < s.tick.nextEdge ∨ s.tick.nextEdge + 17000 < s.now)) ∧
    (∃ (s : State), s.tick.src = 2 ∧ s.tick.enable = true ∧ s.tick.tickInAt = none ∧ s.tick.nextEdge + 17000 < s.now) :=
  ⟨⟨ups, 4, by decide⟩,
   ⟨ups, 14, by decide⟩,
   ⟨ups, by decide⟩,
   ⟨ups, by decide⟩,
   ⟨ups, by decide⟩,
   ⟨ups, by decide⟩,
   ⟨ups, by decide⟩,
   ⟨pwr (fun p => { p with sysRstLow := true }), by decide⟩,
   ⟨pwr (fun p => { p with sysRstLow := true }), by decide⟩,
   ⟨{ win with tick := { win.tick with src := 2, enable := true, nextEdge := 17000 }, now := 0 }, by decide⟩,
   ⟨{ win with tick := { win.tick with src := 2, enable := true, nextEdge := 20000 }, now := 0 }, by decide⟩,
   ⟨{ win with tick := { win.tick with src := 2, enable := true, nextEdge := 20000 }, now := 40000 }, by decide⟩⟩

/-- Hypotheses of RegisterWriteChecks. -/
theorem test_meets_register_write_checks :
    (∃ (off : Word), (off.toNat % 4 ≠ 0 ∨ blockAt off.toNat = none)) ∧
    (∃ (s : State) (off : Word) (b : Block) (o : Nat), off.toNat % 4 = 0 ∧ blockAt off.toNat = some (b, o) ∧ s.regNow b o = none) ∧
    (∃ (s : State) (off : Word) (b : Block) (o : Nat) (r : _), off.toNat % 4 = 0 ∧ blockAt off.toNat = some (b, o) ∧ s.regNow b o = some r ∧
      (s.blockSilent b o = true ∨ s.unitInRung b = true)) ∧
    (∃ (s : State) (off : Word) (v : Word) (b : Block) (o : Nat) (r : _), off.toNat % 4 = 0 ∧ blockAt off.toNat = some (b, o) ∧
      s.regNow b o = some r ∧ s.blockSilent b o = false ∧ s.unitInRung b = false ∧ v &&& ~~~r.named ≠ 0) ∧
    (∃ (s : State) (off : Word) (v : Word) (b : Block) (o : Nat), off.toNat % 4 = 0 ∧ blockAt off.toNat = some (b, o) ∧ Writes s off.toNat v b o) ∧
    (∃ (s : State) (off : Word) (v : Word), Writes s off.toNat v .slv (off.toNat % 0x1000)) ∧
    (∃ (s : State) (off : Word) (v : Word) (alias_ : Word) (b : Block) (o : Nat), alias_.toNat = 0x12000000 + off.toNat ∧ off.toNat < 0x500000 ∧
      Writes s off.toNat v b o) :=
  ⟨⟨3, by decide⟩,
   ⟨ups, 0xFFC, .tck, 0xFFC, by decide⟩,
   ⟨rung1 (.spindle 5) 1 0 ups, 0x185008, (.spn 5 : Block), 8, regOr ((rung1 (.spindle 5) 1 0 ups).regNow (.spn 5) 8), by decide +kernel,
     by decide +kernel, rfl, by decide +kernel⟩,
   ⟨ups, 0x0, 4294967295, .tck, 0, regOr (ups.regNow .tck 0), by decide +kernel, by decide +kernel, rfl, by decide +kernel, by decide +kernel,
     by decide +kernel⟩,
   ⟨ups, 0x8, 1000, .tck, 8, by decide⟩,
   ⟨ups, 0x5010, 0, by decide⟩,
   ⟨ups, 8, 0, 0x12000008, .tck, 8, by decide⟩⟩

/-- Hypotheses of RegisterEffects. -/
theorem test_meets_register_effects :
    (∃ (s : State) (off : Word) (v : Word), Writes s off.toNat v .tck 0x008) ∧
    (∃ (s : State) (off : Word) (v : Word), Writes s off.toNat v .tck 0x028) ∧
    (∃ (s : State) (off : Word) (v : Word), Writes s off.toNat v .tck 0x040) ∧
    (∃ (s : State) (off : Word) (v : Word), Writes s off.toNat v .tck 0x000 ∧ v.getLsbD 9 = true ∧ v.getLsbD 10 = false ∧ s.tick.enable = false) ∧
    (∃ (s : State) (off : Word) (v : Word) (d : Die), Writes s off.toNat v (.wft d) 0x00C) ∧
    (∃ (s : State) (off : Word) (v : Word) (d : Die), Writes s off.toNat v (.wft d) 0x010) ∧
    (∃ (s : State) (off : Word) (v : Word) (d : Die), Writes s off.toNat v (.crl d) 0x000 ∧ v.getLsbD 1 = false) ∧
    (∃ (s : State) (off : Word) (v : Word) (c : Ctl), Writes s off.toNat v (.ctl c) 0x100) ∧
    (∃ (s : State) (off : Word) (v : Word) (c : Ctl), Writes s off.toNat v (.ctl c) 0x048) ∧
    (∃ (s : State) (off : Word) (v : Word) (k : Skein), Writes s off.toNat v (.skn k) 0x04) ∧
    (∃ (s : State) (off : Word) (v : Word) (k : Skein), Writes s off.toNat v (.dma k) 0x100) ∧
    (∃ (s : State) (off : Word) (v : Word) (l : Link), Writes s off.toNat v (.wrp l) 0x08) ∧
    (∃ (s : State) (off : Word) (v : Word) (l : Link), Writes s off.toNat v (.wrp l) 0x00 ∧ v.getLsbD 0 = true ∧ v.getLsbD 1 = false) ∧
    (∃ (s : State) (off : Word) (v : Word) (d : Die), Writes s off.toNat v (.fab d) 0x014) ∧
    (∃ (s : State) (off : Word) (v : Word), Writes s off.toNat v .cfg 0x018) ∧
    (∃ (s : State) (off : Word) (v : Word), Writes s off.toNat v .sec 0x028) ∧
    (∃ (s : State) (off : Word) (v : Word), Writes s off.toNat v .pwr 0x040) ∧
    (∃ (s : State) (off : Word) (v : Word), Writes s off.toNat v .dst 0x810) ∧
    (∃ (s : State) (off : Word) (v : Word), Writes s off.toNat v .dst 0x890) ∧
    (∃ (s : State) (off : Word) (v : Word) (i : Spindle), Writes s off.toNat v (.spn i) 0x08) ∧
    (∃ (s : State) (off : Word) (v : Word) (i : Spindle), Writes s off.toNat v (.seq i) 0x00) ∧
    (∃ (s : State) (off : Word) (v : Word) (i : Spindle), Writes s off.toNat v (.num i) 0x04) ∧
    (∃ (s : State) (off : Word) (v : Word) (i : Spindle), Writes s off.toNat v (.vec i) 0x08) ∧
    (∃ (s : State) (off : Word) (v : Word) (i : Spindle), Writes s off.toNat v (.vec i) 0x18) :=
  ⟨⟨ups, 0x8, 1000000, by decide⟩,
   ⟨ups, 0x28, 2, by decide⟩,
   ⟨ups, 0x40, 7, by decide⟩,
   ⟨ups State.reset, 0x0, 512, by decide⟩,
   ⟨ups, 0x20000c, 9, 1, by decide⟩,
   ⟨ups, 0x200010, 4, 1, by decide⟩,
   ⟨ups, 0x201000, 1, 1, by decide⟩,
   ⟨ups, 0x104100, 1, (⟨.hbm, 0⟩ : Ctl), by decide⟩,
   ⟨ups, 0x108048, 1, (⟨.ddr, 0⟩ : Ctl), by decide⟩,
   ⟨ups, 0x113004, 8192, 3, by decide⟩,
   ⟨ups, 0x123100, 65540, 3, by decide⟩,
   ⟨ups, 0x143008, 65538, 3, by decide⟩,
   ⟨ups, 0x143000, 1, 3, by decide⟩,
   ⟨ups, 0x202014, 3, 1, by decide⟩,
   ⟨ups, 0x1018, 67108864, by decide⟩,
   ⟨ups, 0x2028, 60, by decide⟩,
   ⟨ups, 0x3040, 346, by decide⟩,
   ⟨ups, 0x4810, 131328, by decide⟩,
   ⟨ups, 0x4890, 1, by decide⟩,
   ⟨ups, 0x185008, 16, 5, by decide⟩,
   ⟨ups, 0x185100, 4, 5, by decide⟩,
   ⟨ups, 0x185204, 1, 5, by decide⟩,
   ⟨ups, 0x185308, 9, 5, by decide⟩,
   ⟨ups, 0x185318, 16, 5, by decide⟩⟩

/-- Hypotheses of PrivateWindowAndHostAccesses. -/
theorem test_meets_private_window_and_host_accesses :
    (∃ (s : State) (i : Spindle) (w : Nat) (off : Word) (bank1 : Bool) (hi : Bool), w < 8192 ∧
      off.toNat = 0x10000000 + i.val * 0x20000 + (if bank1 then 0x10000 else 0) + 8 * w + (if hi then 4 else 0) ∧ s.inFullReset = true) ∧
    (∃ (s : State) (i : Spindle) (w : Nat) (off : Word) (v : Word) (bank1 : Bool) (hi : Bool) (put : Word), w < 8192 ∧
      off.toNat = 0x10000000 + i.val * 0x20000 + (if bank1 then 0x10000 else 0) + 8 * w + (if hi then 4 else 0) ∧
      put = (if s.dist.active.isSome && bank1 == (s.spindles[i]).seq.activeBank && !s.restoring then Config.freeWord s.fresh else v) ∧
      s.inFullReset = false) ∧
    (∃ (s : State) (i : Spindle) (w : Nat) (off : Word) (v : Word) (bank1 : Bool) (hi : Bool) (k : Skein) (store : Word) (put : Word), w < 8192 ∧
      off.toNat = 0x10000000 + i.val * 0x20000 + (if bank1 then 0x10000 else 0) + 8 * w + (if hi then 4 else 0) ∧
      store.toNat = 0x11000000 + k.val * 0x100000 + 4 * w ∧ s.inFullReset = false ∧
      put = (if s.stepRuns && !s.restoring then Config.freeWord s.fresh else v)) ∧
    (∃ (i : Spindle) (w : Nat) (off : Word) (bank1 : Bool) (hi : Bool) (out : Word), w < 8192 ∧
      off.toNat = 0x10000000 + i.val * 0x20000 + (if bank1 then 0x10000 else 0) + 8 * w + (if hi then 4 else 0) ∧ 0x12500000 ≤ out.toNat) ∧
    (∃ (s : State) (n : Nat) (bs : List Byte), bs.length = n ∧ s.hostReaches = false) ∧
    (∃ (s : State) (off : Nat) (n : Nat) (bs : List Byte), bs.length = n ∧ s.hostReaches = true ∧ barPlace off n = .bad) ∧
    (∃ (s : State) (off : Nat) (n : Nat) (bs : List Byte), bs.length = n ∧ s.hostReaches = true ∧ (off % 4 ≠ 0 ∨ n < 4)) ∧
    (∃ (s : State) (off : Nat) (n : Nat) (bs : List Byte), bs.length = n ∧ s.hostReaches = true ∧ off < 0x1000 ∧ n ≠ 4) ∧
    (∃ (s : State) (off : Nat) (n : Nat) (bs : List Byte), bs.length = n ∧ s.hostReaches = true ∧ off < 0x1000 ∧ off % 4 = 0 ∧ n = 4 ∧
      s.slv.reg off = none) ∧
    (∃ (s : State) (off : Nat) (n : Nat) (bs : List Byte) (r : _), bs.length = n ∧ s.hostReaches = true ∧ off < 0x1000 ∧ off % 4 = 0 ∧ n = 4 ∧
      s.slv.reg off = some r ∧ BitVec.ofNat 32 (leNat bs) &&& ~~~r.named ≠ 0) ∧
    (∃ (s : State) (off : Nat) (n : Nat) (bs : List Byte) (r : _), bs.length = n ∧ s.hostReaches = true ∧ off < 0x1000 ∧ off % 4 = 0 ∧ n = 4 ∧
      s.slv.reg off = some r ∧ BitVec.ofNat 32 (leNat bs) &&& ~~~r.named = 0 ∧ off = 0x010) ∧
    (∃ (s : State) (off : Nat) (n : Nat) (bs : List Byte) (r : _), bs.length = n ∧ s.hostReaches = true ∧ off < 0x1000 ∧ off % 4 = 0 ∧ n = 4 ∧
      s.slv.reg off = some r ∧ BitVec.ofNat 32 (leNat bs) &&& ~~~r.named = 0 ∧ off = 0x03C) ∧
    (∃ (s : State) (off : Nat) (n : Nat) (bs : List Byte) (r : _), bs.length = n ∧ s.hostReaches = true ∧ off < 0x1000 ∧ off % 4 = 0 ∧ n = 4 ∧
      s.slv.reg off = some r ∧ BitVec.ofNat 32 (leNat bs) &&& ~~~r.named = 0 ∧ off = 0x028) ∧
    (∃ (s : State) (off : Nat) (n : Nat) (bs : List Byte), bs.length = n ∧ s.hostReaches = true ∧ 0x1000 ≤ off ∧ off % 4 = 0 ∧ 4 ≤ n ∧
      off + n ≤ 0x2000) ∧
    (∃ (s : State) (off : Nat) (n : Nat) (bs : List Byte), bs.length = n ∧ s.hostReaches = true ∧ 0x2000 ≤ off ∧ off % 4 = 0 ∧ 4 ≤ n ∧
      off + n ≤ 0x2400) ∧
    (∃ (s : State) (off : Nat) (n : Nat) (bs : List Byte) (m : Fin 8) (o : Nat), bs.length = n ∧ s.hostReaches = true ∧
      off = 0x11000 + 0x2000 * m.val + o ∧ o % 4 = 0 ∧ 4 ≤ n ∧ o + n ≤ 0x1000) ∧
    (∃ (s : State) (off : Nat) (n : Nat) (bs : List Byte) (m : Fin 8) (o : Nat), bs.length = n ∧ s.hostReaches = true ∧
      off = 0x10000 + 0x2000 * m.val + o ∧ o % 4 = 0 ∧ 4 ≤ n ∧ o + n ≤ 0x1000) :=
  ⟨⟨ups (rung1 .device 7), 5, 7, 0x100a0038, false, false, by decide +kernel⟩,
   ⟨ups, 5, 7, 0x100b003c, 9, true, true, 9, by decide +kernel, by decide +kernel, rfl, by decide +kernel⟩,
   ⟨({ ups with dist := { ups.dist with active := none }, step := { ups.step with phase := .idle } } : State), 5, 7, 0x100b003c, 9, true, true, 3,
     0x1130001c, 9, by decide +kernel, by decide +kernel, by decide +kernel, by decide +kernel, rfl⟩,
   ⟨5, 7, 0x100b003c, true, true, 0x12500000, by decide⟩,
   ⟨State.reset, 4, [0, 0, 0, 0], by decide⟩,
   ⟨({ bar with slv := { bar.slv with linkUp := true } } : State), 2, 4, [0, 0, 0, 0], by decide⟩,
   ⟨({ bar with slv := { bar.slv with linkUp := true } } : State), 2, 4, [0, 0, 0, 0], by decide⟩,
   ⟨({ bar with slv := { bar.slv with linkUp := true } } : State), 4, 8, List.replicate 8 0, by decide⟩,
   ⟨({ bar with slv := { bar.slv with linkUp := true } } : State), 0xFFC, 4, [0, 0, 0, 0], by decide⟩,
   ⟨({ bar with slv := { bar.slv with linkUp := true } } : State), 0x10, 4, [0, 0, 0, 1],
     regOr (({ bar with slv := { bar.slv with linkUp := true } } : State).slv.reg 0x10), by decide +kernel, by decide +kernel, by decide +kernel,
     by decide +kernel, by decide +kernel, rfl, by decide +kernel⟩,
   ⟨({ bar with slv := { bar.slv with linkUp := true } } : State), 0x10, 4, [9, 0, 0, 0],
     regOr (({ bar with slv := { bar.slv with linkUp := true } } : State).slv.reg 0x10), by decide +kernel, by decide +kernel, by decide +kernel,
     by decide +kernel, by decide +kernel, rfl, by decide +kernel, by decide +kernel⟩,
   ⟨({ bar with slv := { bar.slv with linkUp := true } } : State), 0x3C, 4, [1, 0, 0, 0],
     regOr (({ bar with slv := { bar.slv with linkUp := true } } : State).slv.reg 0x3C), by decide +kernel, by decide +kernel, by decide +kernel,
     by decide +kernel, by decide +kernel, rfl, by decide +kernel, by decide +kernel⟩,
   ⟨({ bar with slv := { bar.slv with linkUp := true } } : State), 0x28, 4, [1, 0, 0, 0],
     regOr (({ bar with slv := { bar.slv with linkUp := true } } : State).slv.reg 0x28), by decide +kernel, by decide +kernel, by decide +kernel,
     by decide +kernel, by decide +kernel, rfl, by decide +kernel, by decide +kernel⟩,
   ⟨({ bar with slv := { bar.slv with linkUp := true } } : State), 0x1000, 8, List.replicate 8 0, by decide⟩,
   ⟨({ bar with slv := { bar.slv with linkUp := true } } : State), 0x2000, 8, List.replicate 8 0, by decide⟩,
   ⟨({ bar with slv := { bar.slv with linkUp := true } } : State), 0x13004, 8, List.replicate 8 1, 1, 4, by decide⟩,
   ⟨({ bar with slv := { bar.slv with linkUp := true } } : State), 0x12004, 8, List.replicate 8 1, 1, 4, by decide⟩⟩

/-- Hypotheses of StepKeepsCanonical. -/
theorem test_meets_step_keeps_canonical :
    ∃ (s : State) (t : State), Canonical s ∧ step s = .next t :=
  ⟨State.reset, _, reset_canonical, rfl⟩

/-- Hypotheses of CommandsKeepQueueAndClock. -/
theorem test_meets_commands_keep_queue_and_clock :
    ∃ (c : Instr) (s : State) (t : State), exec c s = .next t :=
  ⟨(.restoreComplete : Instr), win, win, rfl⟩

/-- Hypotheses of StoringCommands. -/
theorem test_meets_storing_commands :
    (∃ (c : Instr) (s : State) (t : State), exec c s = .next t ∧ ¬ Stores c) ∧
    (∃ (c : Instr) (s : State) (t : State), exec c s = .next t ∧ ¬ Poisons c) ∧
    (∃ (c : Instr) (s : State) (t : State), exec c s = .next t ∧ ¬ StoresFlash c) ∧
    (∃ (c : Instr) (s : State) (t : State) (a : _), exec c s = .next t ∧ c = .commit ∧ Canonical s ∧ ((∀ r ∈ s.stats, ∀ n : Nat,
      a < r.addr.toNat ∨ r.addr.toNat + (r.bytes n).length ≤ a))) :=
  ⟨⟨(.restoreComplete : Instr), win, win, rfl, fun h => h⟩,
   ⟨(.restoreComplete : Instr), win, win, rfl, fun h => h.elim id id⟩,
   ⟨(.restoreComplete : Instr), win, win, rfl, fun h => h⟩,
   ⟨(.commit : Instr), win, _, 0, rfl, rfl, ⟨rfl, rfl, rfl⟩, fun r h => nomatch h⟩⟩

/-- Hypotheses of ShadowedFields. -/
theorem test_meets_shadowed_fields :
    (∃ (s : State) (a : ArbId) (o : Nat) (off : Word) (v : Word), o ∈ arbShadowed ∧ Writes s off.toNat v (arbBlock a) o) ∧
    (∃ (s : State) (a : ArbId) (o : Nat) (off : Word), o ∈ arbShadowed ∧ Writes s off.toNat 1 (arbBlock a) 0x114) ∧
    (∃ (s : State) (o : Nat) (off : Word) (v : Word), o ∈ paceShadowed ∧ Writes s off.toNat v .tck o) ∧
    (∃ (s : State) (o : Nat) (off : Word), o ∈ paceShadowed ∧ Writes s off.toNat 1 .tck 0x0A0) :=
  ⟨⟨ups, (.board 3 : ArbId), 0x100, 0x113100, 1, by decide⟩,
   ⟨ups, (.board 3 : ArbId), 0x100, 0x113114, by decide⟩,
   ⟨ups, 0x40, 0x40, 7, by decide⟩,
   ⟨ups, 0x40, 0xA0, by decide⟩⟩

/-- Hypotheses of BoardsReload. -/
theorem test_meets_boards_reload :
    ∃ (s : State) (im : Image), Clocked s ∧ s.step.phase = .idle ∧ s.step.closed = true ∧ s.tick.enable = true ∧ s.tick.stopped = false ∧
      s.endCancelled.jobDue.isSome = true ∧ s.endCancelled.dist.active = some im :=
  ⟨boardS, imB, by decide⟩

/-- Hypotheses of LateAbort. -/
theorem test_meets_late_abort :
    ∃ (s : State) (u : State) (l : Link) (f : Flit) (j : Job), s.hears l f 5 = true ∧ s.receiveSeq l f = some u ∧ s.step.phase = .idle ∧
      BitVec.ofNat 48 (field f.payload 0 6) ≠ s.tick.count ∧ j ∈ s.dist.jobs ∧ j.commit.committedTick.toNat = field f.payload 0 6 ∧
      j.commit.committedStep ≠ 0 :=
  ⟨lateS, (lateS.receiveSeq 3 abortF).getD lateS, 3, abortF, jobL, by decide +kernel, someGetD (by decide +kernel), by decide +kernel,
    by decide +kernel, by decide +kernel, by decide +kernel, by decide +kernel⟩

/-- Hypotheses of BlockPages. -/
theorem test_meets_block_pages :
    (∃ (x : Nat), x < 0x1000) ∧
    (∃ (o : Nat) (p : Nat) (off : Nat) (off' : Nat) (b : Block), blockAt o = some (b, off) ∧ blockAt p = some (b, off')) ∧
    (∃ (o : Nat) (x : Nat) (off : Nat) (b : Block), blockAt o = some (b, off) ∧ (∀ i : Spindle, b ≠ .spn i ∧ b ≠ .seq i ∧ b ≠ .num i ∧ b ≠ .vec i) ∧
      x < 0x1000) :=
  ⟨⟨0x208, by decide⟩,
   ⟨8, 12, 8, 12, .tck, by decide⟩,
   ⟨8, 4, 8, .tck, by decide⟩⟩

end Sys2Proof.Tests
end

/-!
O57, the fields with a shadow (R13, R14): a register write puts its value in the shadow, which no register shows, and the commit write moves
every shadow of the block into effect. The arbiters' part speaks of one `Arbiter`, the pacer's of `Tick`; what is around them is the same.
-/
namespace Sys2Proof.Machine
open Sys2Proof Sys2Proof.Safety

section vectors
variable {α β : Type} {n : Nat}

/-- Two changes at one place are one change. -/
theorem vmod_vmod (v : Vector α n) (i : Fin n) (f g : α → α) : vmod (vmod v i f) i g = vmod v i (fun x => g (f x)) := by
  simp [vmod]

/-- A change that leaves its element alone leaves the vector alone. -/
theorem vmod_eq_self {v : Vector α n} {i : Fin n} {f : α → α} (h : f v[i] = v[i]) : vmod v i f = v := by
  have h' : f v[i.val] = v[i.val] := h
  simp [vmod, h']

/-- A projection that the change keeps is the same at every place. -/
theorem vmod_proj {f : α → α} {p : α → β} (h : ∀ x, p (f x) = p x) (v : Vector α n) (i j : Fin n) : p (vmod v i f)[j] = p v[j] := by
  rw [vmod_get]
  split
  · exact h _
  · rfl

end vectors

/-! ## Register writes -/

/-- A write that meets R15, R535 and R537 has its register's effect. -/
theorem exec_registerWrite_of_writes {s : State} {off v : Word} {b : Block} {o : Nat} (h : Writes s off.toNat v b o) :
    exec (.registerWrite .control off v) s = .next (s.regWrite b o v) := by
  obtain ⟨aligned, place, answers, free, named⟩ := h
  obtain ⟨r, defined, unreserved⟩ := (Option.any_eq_true ..).mp named
  have exec_eq : exec (.registerWrite .control off v) s = s.controlWrite off.toNat v := rfl
  simp [exec_eq, State.controlWrite, State.checkedWrite, aligned, place, answers, free, defined, beq_iff_eq.mp unreserved]

/-- A write that leaves a list of registers reading the same, its own among them, and that a second write of its register replaces, meets R14. -/
theorem completes_shadowWrite {s t : State} {off v w : Word} {b : Block} {o : Nat} {regs : List Nat}
    (written : Writes s off.toNat v b o) (mem : o ∈ regs) (effect : s.regWrite b o v = t)
    (silent : t.blockSilent b o = s.blockSilent b o) (rung : t.unitInRung b = s.unitInRung b)
    (reads : ∀ q ∈ regs, t.regNow b q = s.regNow b q) (last : t.regWrite b o w = s.regWrite b o w) :
    Completes (exec (.registerWrite .control off v) s) (fun u => (∀ q ∈ regs, u.regNow b q = s.regNow b q) ∧
      (Writes s off.toNat w b o → exec (.registerWrite .control off w) u = exec (.registerWrite .control off w) s)) := by
  refine ⟨t, by rw [exec_registerWrite_of_writes written, effect], reads, fun again => ?_⟩
  have again' : Writes t off.toNat w b o := by rwa [Writes, silent, rung, reads o mem]
  rw [exec_registerWrite_of_writes again, exec_registerWrite_of_writes again', last]

/-- A commit of a field without a written shadow changes nothing. -/
theorem Rws.commit_eq_self {w : Nat} {r : Rws w} (h : r.shadow = none) : r.commit = r := by
  cases r; cases h; rfl

/-- Fields without a written shadow stand through a commit. -/
theorem map_commit_eq_self {w n : Nat} {v : Vector (Rws w) n} (h : ∀ i : Fin n, (v[i]).shadow = none) : v.map Rws.commit = v :=
  Vector.ext (fun i hi => by rw [Vector.getElem_map]; exact Rws.commit_eq_self (h ⟨i, hi⟩))

/-! ## One arbiter of the state -/

/-- The arbiter after a change of it. -/
theorem State.arbiter_modArbiter (s : State) (a : ArbId) (f : Arbiter → Arbiter) : (s.modArbiter a f).arbiter a = f (s.arbiter a) := by
  cases a with
  | board k => simp [State.modArbiter, State.arbiter]
  | creel d => simp [State.modArbiter, State.arbiter]
  | sliver d => simp [State.modArbiter, State.arbiter]
  | mem c => rcases c with ⟨_ | _, n⟩ <;> simp [State.modArbiter, State.arbiter, State.modCtl, State.ctl]

/-- Two changes of an arbiter are one change. -/
theorem State.modArbiter_modArbiter (s : State) (a : ArbId) (f g : Arbiter → Arbiter) :
    (s.modArbiter a f).modArbiter a g = s.modArbiter a (fun x => g (f x)) := by
  cases a with
  | board k => simp [State.modArbiter, State.modSk, vmod_vmod]
  | creel d => simp [State.modArbiter, State.modDie, vmod_vmod]
  | sliver d => simp [State.modArbiter, State.modDie, vmod_vmod]
  | mem c => rcases c with ⟨_ | _, n⟩ <;> simp [State.modArbiter, State.modCtl, vmod_vmod]

/-- A change that leaves the arbiter alone leaves the state alone. -/
theorem State.modArbiter_eq_self {s : State} {a : ArbId} {f : Arbiter → Arbiter} (h : f (s.arbiter a) = s.arbiter a) :
    s.modArbiter a f = s := by
  simp only [State.arbiter, State.ctl] at h
  cases a with
  | board k => rw [State.modArbiter, State.modSk, vmod_eq_self (by rw [h])]
  | creel d => rw [State.modArbiter, State.modDie, vmod_eq_self (by rw [h])]
  | sliver d => rw [State.modArbiter, State.modDie, vmod_eq_self (by rw [h])]
  | mem c => rcases c with ⟨_ | _, n⟩ <;> simp only [State.modArbiter, State.modCtl] <;> rw [vmod_eq_self (by rw [h])]

@[simp] theorem State.modArbiter_now (s : State) (a : ArbId) (f : Arbiter → Arbiter) : (s.modArbiter a f).now = s.now := by
  cases a <;> simp [State.modArbiter]
@[simp] theorem State.modArbiter_pwr (s : State) (a : ArbId) (f : Arbiter → Arbiter) : (s.modArbiter a f).pwr = s.pwr := by
  cases a <;> simp [State.modArbiter]
@[simp] theorem State.modArbiter_flt (s : State) (a : ArbId) (f : Arbiter → Arbiter) : (s.modArbiter a f).flt = s.flt := by
  cases a <;> simp [State.modArbiter]

/-- No agent of a die restarts or ends its restart through a change of an arbiter. -/
theorem State.modArbiter_agentUntil (s : State) (a : ArbId) (f : Arbiter → Arbiter) (d : Die) :
    ((s.modArbiter a f).dies[d]).agentUntil = (s.dies[d]).agentUntil := by
  cases a with
  | board k => rfl
  | creel e => exact vmod_proj (p := DieState.agentUntil) (fun _ => by rfl) s.dies e d
  | sliver e => exact vmod_proj (p := DieState.agentUntil) (fun _ => by rfl) s.dies e d
  | mem c => simp [State.modArbiter]

/-- Whether a block answers does not depend on an arbiter. -/
theorem State.blockSilent_modArbiter (s : State) (a : ArbId) (f : Arbiter → Arbiter) (b : Block) (o : Nat) :
    (s.modArbiter a f).blockSilent b o = s.blockSilent b o := by
  simp only [State.blockSilent, State.inFullReset, State.modArbiter_now, State.modArbiter_pwr, State.modArbiter_flt,
    State.modArbiter_agentUntil]

/-- Whether a rung holds the arbiter's unit does not depend on the arbiter. -/
theorem State.unitInRung_modArbiter (s : State) (a : ArbId) (f : Arbiter → Arbiter) :
    (s.modArbiter a f).unitInRung (arbBlock a) = s.unitInRung (arbBlock a) := by
  cases a with
  | board k => simp [State.unitInRung, State.modArbiter, arbBlock]
  | creel d => rfl
  | sliver d => rfl
  | mem c => rfl

/-! ## The arbiters' registers -/

/-- What a write of a shadowed register changes of its arbiter, by its offset in the block (R232). -/
def Arbiter.writeShadow (x : Arbiter) (o : Nat) (v : Word) : Arbiter :=
  if o = 0x110 then
    { x with fairN := { x.fairN with shadow := some (wf v 6 0) }, backoffEn := { x.backoffEn with shadow := some (wf v 8 8) } }
  else match element o 0x100 4 4 with
    | some n => { x with prio := vmod x.prio n (fun r => { r with shadow := some v }) }
    | none => x

/-- The shadowed registers are the four priority words and the configuration word. -/
theorem mem_arbShadowed {o : Nat} (h : o ∈ arbShadowed) : o = 0x100 ∨ o = 0x104 ∨ o = 0x108 ∨ o = 0x10C ∨ o = 0x110 := by
  simpa [arbShadowed] using h

/-- A shadowed register of an arbiter's block is the arbiter's register. -/
theorem State.regNow_arbBlock (s : State) (a : ArbId) {o : Nat} (h : o ∈ arbShadowed) :
    s.regNow (arbBlock a) o = (s.arbiter a).reg (o - 0x100) := by
  rcases mem_arbShadowed h with rfl | rfl | rfl | rfl | rfl <;> cases a <;> rfl

/-- A write of a shadowed register changes the arbiter alone. -/
theorem State.regWrite_arbBlock (s : State) (a : ArbId) {o : Nat} (v : Word) (h : o ∈ arbShadowed) :
    s.regWrite (arbBlock a) o v = s.modArbiter a (·.writeShadow o v) := by
  rcases mem_arbShadowed h with rfl | rfl | rfl | rfl | rfl <;> cases a <;> rfl

/-- The commit write of an arbiter's block is ARB_COMMIT. -/
theorem State.regWrite_arbBlock_commit (s : State) (a : ArbId) : s.regWrite (arbBlock a) 0x114 1 = s.modArbiter a Arbiter.commit := by
  cases a <;> rfl

/-- A write of a shadow changes no value in effect. -/
theorem Arbiter.writeShadow_eff (x : Arbiter) (o : Nat) (v : Word) :
    (∀ n : Fin 4, ((x.writeShadow o v).prio[n]).eff = (x.prio[n]).eff) ∧ (x.writeShadow o v).fairN.eff = x.fairN.eff ∧
      (x.writeShadow o v).backoffEn.eff = x.backoffEn.eff := by
  unfold Arbiter.writeShadow
  split
  · exact ⟨fun _ => rfl, rfl, rfl⟩
  · split
    · next k _ => exact ⟨vmod_proj (p := Rws.eff) (fun _ => by rfl) x.prio k, rfl, rfl⟩
    · exact ⟨fun _ => rfl, rfl, rfl⟩

/-- Shadowed registers read the values in effect. -/
theorem Arbiter.reg_congr {x y : Arbiter} {o : Nat} (h : o ∈ arbShadowed) (prio : ∀ n : Fin 4, (y.prio[n]).eff = (x.prio[n]).eff)
    (fairN : y.fairN.eff = x.fairN.eff) (backoffEn : y.backoffEn.eff = x.backoffEn.eff) : y.reg (o - 0x100) = x.reg (o - 0x100) := by
  have word : ∀ n : Fin 4, Machine.reg [rw (bv (y.prio[n]).eff)] = Machine.reg [rw (bv (x.prio[n]).eff)] := fun n => by rw [prio n]
  rcases mem_arbShadowed h with rfl | rfl | rfl | rfl | rfl
  · exact word 0
  · exact word 1
  · exact word 2
  · exact word 3
  · simp only [Arbiter.reg, fairN, backoffEn]

/-- The last of two writes of one shadow counts. -/
theorem Arbiter.writeShadow_writeShadow (x : Arbiter) (o : Nat) (v w : Word) : (x.writeShadow o v).writeShadow o w = x.writeShadow o w := by
  unfold Arbiter.writeShadow
  split
  · rfl
  · cases element o 0x100 4 4 with
    | none => rfl
    | some n => simp [vmod_vmod]

/-! ## The arbiters' commit -/

/-- No shadow of the arbiter is written. -/
def Arbiter.Clear (x : Arbiter) : Prop :=
  (∀ n : Fin 4, (x.prio[n]).shadow = none) ∧ x.fairN.shadow = none ∧ x.backoffEn.shadow = none

/-- The test of ARB_COMMIT says whether a shadow is written. -/
theorem Arbiter.anyShadow_eq_false_iff (x : Arbiter) :
    (x.prio.toList.any (·.shadow.isSome) || x.fairN.shadow.isSome || x.backoffEn.shadow.isSome) = false ↔ x.Clear := by
  have prio : x.prio.toList.any (·.shadow.isSome) = false ↔ ∀ n : Fin 4, (x.prio[n]).shadow = none := by
    simp [Vector.any_eq_false, Fin.forall_iff]
  rw [Bool.or_eq_false_iff, Bool.or_eq_false_iff, prio, Option.isSome_eq_false_iff, Option.isSome_eq_false_iff, Option.isNone_iff_eq_none,
    Option.isNone_iff_eq_none, and_assoc, Arbiter.Clear]

/-- With no shadow written a commit changes nothing. -/
theorem Arbiter.commit_of_clear {x : Arbiter} (h : x.Clear) : x.commit = x := by
  simp only [Arbiter.commit, x.anyShadow_eq_false_iff.mpr h]
  rfl

/-- With a shadow written every field commits, the fair-grant period held to 2 to 64, and g restarts (R231, R232). -/
theorem Arbiter.commit_of_not_clear {x : Arbiter} (h : ¬ x.Clear) :
    x.commit = { x with
      prio := x.prio.map Rws.commit, backoffEn := x.backoffEn.commit, g := 0
      fairN := { x.fairN.commit with eff := BitVec.ofNat 7 (min 64 (max 2 x.fairN.commit.eff.toNat)) } } := by
  rw [← x.anyShadow_eq_false_iff, Bool.not_eq_false] at h
  simp only [Arbiter.commit, h]
  rfl

/-- The priorities in effect after a commit. -/
theorem Arbiter.commit_prio_eff (x : Arbiter) (n : Fin 4) : (x.commit.prio[n]).eff = (x.prio[n]).shadow.getD (x.prio[n]).eff := by
  by_cases h : x.Clear
  · obtain ⟨prio, -, -⟩ := id h
    rw [Arbiter.commit_of_clear h, prio n]
    rfl
  · rw [Arbiter.commit_of_not_clear h]
    simp [Rws.commit]

/-- The backoff enable in effect after a commit. -/
theorem Arbiter.commit_backoffEn_eff (x : Arbiter) : x.commit.backoffEn.eff = x.backoffEn.shadow.getD x.backoffEn.eff := by
  by_cases h : x.Clear
  · obtain ⟨-, -, backoffEn⟩ := id h
    rw [Arbiter.commit_of_clear h, backoffEn]
    rfl
  · rw [Arbiter.commit_of_not_clear h]
    rfl

/-- The bounds of the fair-grant period, as a choice. -/
theorem ofNat_clamp (x : BitVec 7) :
    BitVec.ofNat 7 (min 64 (max 2 x.toNat)) = if x.toNat < 2 then 2 else if 64 < x.toNat then 64 else x := by
  split
  · next low => rw [Nat.max_eq_left (Nat.le_of_lt low)]; rfl
  · next low =>
    rw [Nat.max_eq_right (Nat.le_of_not_lt low)]
    split
    · next high => rw [Nat.min_eq_left (Nat.le_of_lt high)]; rfl
    · next high => rw [Nat.min_eq_right (Nat.le_of_not_lt high), BitVec.ofNat_toNat, BitVec.setWidth_eq]

/-- The fair-grant period in effect after a commit of a written one. -/
theorem Arbiter.commit_fairN_eff {x : Arbiter} {n : BitVec 7} (h : x.fairN.shadow = some n) :
    x.commit.fairN.eff = if n.toNat < 2 then 2 else if 64 < n.toNat then 64 else n := by
  have written : ¬ x.Clear := fun ⟨_, clear, _⟩ => nomatch h.symm.trans clear
  rw [Arbiter.commit_of_not_clear written, ← ofNat_clamp]
  simp only [Rws.commit, h, Option.getD_some]

/-! ## The pacer -/

/-- The place of an element of an array of registers names the element. -/
theorem element_index {base stride n : Nat} (i : Fin n) (h : 0 < stride) : element (base + stride * i.val) base stride n = some i := by
  simp only [element, Nat.le_add_right, Nat.add_sub_cancel_left, Nat.mul_mod_right, Nat.mul_div_cancel_left _ h, and_self, if_true, i.isLt,
    dif_pos, Fin.eta]

/-- What a write of a shadowed register changes of the tick block, by its offset (R55). -/
def Tick.writeShadow (t : Tick) (o : Nat) (v : Word) : Tick :=
  if o = 0x040 then { t with floorUj := { t.floorUj with shadow := some v } }
  else match element o 0x044 4 16 with
    | some n => { t with coef := vmod t.coef n (fun r => { r with shadow := some v }) }
    | none => t

/-- The shadowed registers are the floor and the sixteen coefficients. -/
theorem mem_paceShadowed {o : Nat} (h : o ∈ paceShadowed) : o = 0x040 ∨ ∃ n : Fin 16, o = 0x044 + 4 * n.val := by
  rcases List.mem_cons.mp h with rfl | h
  · exact .inl rfl
  · obtain ⟨n, hn, rfl⟩ := List.mem_map.mp h
    exact .inr ⟨⟨n, List.mem_range.mp hn⟩, rfl⟩

/-- A coefficient's register reads the coefficient in effect. -/
theorem Tick.reg_coef (t : Tick) (n : Fin 16) : t.reg (0x044 + 4 * n.val) = Machine.reg [rw (bv (t.coef[n]).eff)] := by
  unfold Tick.reg
  split
  case h_14 => rw [element_index n (by decide)]
  all_goals omega

/-- A write of a shadowed register changes the tick block alone. -/
theorem State.regWrite_tck (s : State) {o : Nat} (v : Word) (h : o ∈ paceShadowed) :
    s.regWrite .tck o v = { s with tick := s.tick.writeShadow o v } := by
  rcases mem_paceShadowed h with rfl | ⟨n, rfl⟩
  · rfl
  · have offset : 0x044 + 4 * n.val ≠ 0x040 := by omega
    simp only [State.regWrite, Tick.writeShadow, offset, if_false, element_index n (by decide : 0 < 4)]
    unfold State.writeTck
    split
    case h_11 => rw [element_index n (by decide)]
    all_goals omega

/-- A write of a shadow changes no value in effect. -/
theorem Tick.writeShadow_eff (t : Tick) (o : Nat) (v : Word) :
    (t.writeShadow o v).floorUj.eff = t.floorUj.eff ∧ ∀ n : Fin 16, ((t.writeShadow o v).coef[n]).eff = (t.coef[n]).eff := by
  unfold Tick.writeShadow
  split
  · exact ⟨rfl, fun _ => rfl⟩
  · split
    · next k _ => exact ⟨rfl, vmod_proj (p := Rws.eff) (fun _ => by rfl) t.coef k⟩
    · exact ⟨rfl, fun _ => rfl⟩

/-- Shadowed registers read the values in effect, which a write of a shadow leaves. -/
theorem Tick.reg_writeShadow (t : Tick) (o : Nat) (v : Word) {q : Nat} (h : q ∈ paceShadowed) : (t.writeShadow o v).reg q = t.reg q := by
  obtain ⟨floor, coef⟩ := t.writeShadow_eff o v
  rcases mem_paceShadowed h with rfl | ⟨n, rfl⟩
  · simp only [Tick.reg, floor]
  · rw [Tick.reg_coef, Tick.reg_coef, coef n]

/-- The last of two writes of one shadow counts. -/
theorem Tick.writeShadow_writeShadow (t : Tick) (o : Nat) (v w : Word) : (t.writeShadow o v).writeShadow o w = t.writeShadow o w := by
  unfold Tick.writeShadow
  split
  · rfl
  · cases element o 0x044 4 16 with
    | none => rfl
    | some n => simp [vmod_vmod]

/-! ## The statement -/

/-- A write of an arbiter's shadow is hidden until the commit, and a later one replaces it. -/
theorem completes_arbShadowWrite {s : State} {a : ArbId} {o : Nat} {off v : Word} (w : Word) (mem : o ∈ arbShadowed)
    (written : Writes s off.toNat v (arbBlock a) o) :
    Completes (exec (.registerWrite .control off v) s) (fun t => (∀ q ∈ arbShadowed, t.regNow (arbBlock a) q = s.regNow (arbBlock a) q) ∧
      (Writes s off.toNat w (arbBlock a) o → exec (.registerWrite .control off w) t = exec (.registerWrite .control off w) s)) := by
  refine completes_shadowWrite written mem (s.regWrite_arbBlock a v mem) (s.blockSilent_modArbiter ..) (s.unitInRung_modArbiter ..) ?_ ?_
  · intro q hq
    obtain ⟨prio, fairN, backoffEn⟩ := (s.arbiter a).writeShadow_eff o v
    rw [State.regNow_arbBlock _ a hq, State.regNow_arbBlock _ a hq, State.arbiter_modArbiter]
    exact Arbiter.reg_congr hq prio fairN backoffEn
  · simp only [State.regWrite_arbBlock _ a w mem, State.modArbiter_modArbiter, Arbiter.writeShadow_writeShadow]

/-- A write of a pacer's shadow is hidden until the commit, and a later one replaces it. -/
theorem completes_paceShadowWrite {s : State} {o : Nat} {off v : Word} (w : Word) (mem : o ∈ paceShadowed)
    (written : Writes s off.toNat v .tck o) :
    Completes (exec (.registerWrite .control off v) s) (fun t => (∀ q ∈ paceShadowed, t.regNow .tck q = s.regNow .tck q) ∧
      (Writes s off.toNat w .tck o → exec (.registerWrite .control off w) t = exec (.registerWrite .control off w) s)) := by
  refine completes_shadowWrite written mem (s.regWrite_tck v mem) rfl rfl ?_ ?_
  · intro q hq
    exact s.tick.reg_writeShadow o v hq
  · rw [State.regWrite_tck _ w mem, State.regWrite_tck _ w mem, Tick.writeShadow_writeShadow]

/-- PACE_COMMIT puts the floor and every coefficient into effect, and with no shadow written changes nothing. -/
theorem completes_paceCommit (s : State) :
    Completes (exec .paceCommit s) (fun t => t = { s with tick := t.tick } ∧
      t.tick.floorUj.eff = s.tick.floorUj.shadow.getD s.tick.floorUj.eff ∧
      (∀ n : Fin 16, (t.tick.coef[n]).eff = (s.tick.coef[n]).shadow.getD (s.tick.coef[n]).eff) ∧
      (s.tick.floorUj.shadow = none → (∀ n : Fin 16, (s.tick.coef[n]).shadow = none) → t = s)) := by
  refine ⟨_, rfl, rfl, rfl, fun n => by simp [Rws.commit], fun floor coef => ?_⟩
  rw [Rws.commit_eq_self floor, map_commit_eq_self coef]

/-- Settles O57: a write of a shadowed register overwrites a shadow and no value in effect, so a second one hides the first, and the commit
write is the commit command. -/
theorem shadowedFields : Obligations.ShadowedFields := by
  unfold Obligations.ShadowedFields
  refine ⟨fun s a o off v w mem => ⟨completes_arbShadowWrite w mem, fun written => ?_, ?_⟩,
    fun s o off v w mem => ⟨completes_paceShadowWrite w mem, fun written => ?_, completes_paceCommit s⟩⟩
  · rw [exec_registerWrite_of_writes written, State.regWrite_arbBlock_commit]
    rfl
  · refine ⟨s.modArbiter a Arbiter.commit, rfl, ?_⟩
    simp only [State.arbiter_modArbiter]
    exact ⟨(s.arbiter a).commit_prio_eff, (s.arbiter a).commit_backoffEn_eff, fun _ => Arbiter.commit_fairN_eff,
      fun prio fairN backoffEn => State.modArbiter_eq_self (Arbiter.commit_of_clear ⟨prio, fairN, backoffEn⟩)⟩
  · rw [exec_registerWrite_of_writes written]
    rfl

end Sys2Proof.Machine

/-!
O58, the boards at a step start (R195): every skein's board is reloaded, and what follows in the same command (an ABORT for a cause that
stands at the start, and the stop of the step's work) reaches no more of a skein than its first code and its channels, since no position of
a ring is held yet.
-/
namespace Sys2Proof.Machine
open Sys2Proof Sys2Proof.Safety

/-! ## What a stop leaves of a skein whose rings are unheld -/

/-- No position of a ring of the skein is held, and none has been taken by a consumer other than staples. -/
def SkeinState.Unheld (x : SkeinState) : Prop := ∀ r : Fin 32, (x.rings[r]).held = [] ∧ (x.rings[r]).nextTake = 0

/-- Two skeins differ at most in their first codes and their channels. -/
def SkeinState.SameBoard (x y : SkeinState) : Prop := y = { x with code := y.code, channels := y.channels }

/-- A third skein that differs from the second in these alone differs from the first in these alone. -/
theorem SkeinState.SameBoard.trans {x y z : SkeinState} (hxy : x.SameBoard y) (hyz : y.SameBoard z) : x.SameBoard z := by
  unfold SameBoard at hyz
  rw [hxy] at hyz
  exact hyz

/-- Whether rings are held does not depend on the code and the channels. -/
theorem SkeinState.Unheld.of_sameBoard {x y : SkeinState} (h : x.Unheld) (same : x.SameBoard y) : y.Unheld := by
  rw [same]
  exact h

/-- The return of a position to a ring that is not held changes nothing. -/
theorem Ring.unhold_eq_self {r : Ring} (h : r.held = [] ∧ r.nextTake = 0) (p : Nat) : r.unhold p = r := by
  obtain ⟨held, nextTake⟩ := h
  cases r with
  | mk =>
    cases held
    cases nextTake
    simp only [Ring.unhold, List.erase_nil, Nat.zero_min]

/-- The return of a position to a skein without held rings changes nothing. -/
theorem SkeinState.modRing_unhold_eq_self {x : SkeinState} (h : x.Unheld) (r p : Nat) : x.modRing r (·.unhold p) = x := by
  unfold SkeinState.modRing
  split
  · next lt => rw [vmod_eq_self (Ring.unhold_eq_self (h ⟨r, lt⟩) p)]
  · rfl

/-- The stop of every channel changes the channels alone. -/
theorem SkeinState.sameBoard_stopChannels {x : SkeinState} (h : x.Unheld) : x.SameBoard x.stopChannels := by
  have returned (back : List HeldPos) : back.foldl (fun x p => x.modRing p.ring (·.unhold p.pos)) x = x :=
    List.foldlRecOn (motive := fun y => y = x) back _ rfl (fun _ same p _ => by rw [same, SkeinState.modRing_unhold_eq_self h])
  simp only [SkeinState.stopChannels, SkeinState.stopLists, returned]
  rfl

/-! ## The boards through an ABORT -/

/-- Every skein has the board that `b` names, of which no ring is held. -/
def State.HasBoards (s : State) (b : Skein → SkeinState) : Prop := ∀ k, (b k).Unheld ∧ (b k).SameBoard s.skeins[k]

section
variable {s : State} {b : Skein → SkeinState}

/-- No skein has a held ring. -/
theorem State.HasBoards.unheld (h : s.HasBoards b) (k : Skein) : (s.skeins[k]).Unheld :=
  (h k).1.of_sameBoard (h k).2

/-- A change of one skein that keeps its board. -/
theorem State.HasBoards.modSk (h : s.HasBoards b) (k : Skein) {f : SkeinState → SkeinState} (keeps : ∀ x : SkeinState, x.SameBoard (f x)) :
    (s.modSk k f).HasBoards b := by
  intro j
  refine ⟨(h j).1, (h j).2.trans ?_⟩
  rw [State.modSk_skeins, vmod_get]
  split
  · exact keeps _
  · rfl

/-- The boards stand when the skeins do. -/
theorem State.HasBoards.of_skeins (h : s.HasBoards b) {t : State} (skeins : t.skeins = s.skeins) : t.HasBoards b := by
  intro k
  rw [skeins]
  exact h k

/-- The return of a position changes nothing where no ring is held. -/
theorem State.HasBoards.unholdPos_eq (h : s.HasBoards b) (k : Skein) (p : HeldPos) : s.unholdPos k p = s := by
  rw [State.unholdPos, State.modSk, vmod_eq_self (SkeinState.modRing_unhold_eq_self (h.unheld k) p.ring p.pos)]

/-- Passes that drop return no position to a ring. -/
theorem State.HasBoards.dropPasses (h : s.HasBoards b) (i : Spindle) (p : Pass → Bool) : (s.dropPasses i p).HasBoards b :=
  List.foldlRecOn (motive := fun t => State.HasBoards t b) _ _ h (fun _ ht held _ => by rwa [ht.unholdPos_eq])

/-- The abandon pre-emption of a spindle. -/
theorem State.HasBoards.abandon (h : s.HasBoards b) (i : Spindle) : (s.abandon i).HasBoards b := by
  unfold State.abandon
  split
  · exact h
  · exact h.dropPasses i _

/-- The stop of the step's work. -/
theorem State.HasBoards.stopStep (h : s.HasBoards b) : s.stopStep.HasBoards b := by
  have abandoned : (s.runningSpindles.foldl State.abandon s).HasBoards b :=
    List.foldlRecOn (motive := fun t => State.HasBoards t b) _ _ h (fun _ ht i _ => ht.abandon i)
  intro k
  refine ⟨(h k).1, (abandoned k).2.trans ?_⟩
  simpa only [State.stopStep, Fin.getElem_fin, Vector.getElem_map] using SkeinState.sameBoard_stopChannels (abandoned.unheld k)

/-- An ABORT, whether or not it stops the step. -/
theorem State.HasBoards.abort (h : s.HasBoards b) (c : Cause) : (s.abort c).HasBoards b := by
  simp only [State.abort]
  split
  · split
    · exact h
    · exact State.HasBoards.stopStep h
  · split
    · exact h
    · exact h

/-- A choice whether to run an operation under which the boards stand. -/
theorem State.HasBoards.ite {f : State → State} (h : s.HasBoards b) (keeps : ∀ {u : State}, u.HasBoards b → (f u).HasBoards b) {p : Prop}
    [Decidable p] : (if p then f s else s).HasBoards b := by
  split
  · exact keeps h
  · exact h

/-- The causes of skeins that lost a pinned entry. -/
theorem State.HasBoards.pinnedLost (h : s.HasBoards b) (ks : List Skein) :
    (ks.foldl (fun s k => (s.modSk k (·.note 0x0914)).abort
      { code := 0x0914, unit := BitVec.ofNat 16 k.val, aux0 := s.laneStatus k }) s).HasBoards b :=
  List.foldlRecOn (motive := fun t => State.HasBoards t b) _ _ h
    (fun _ ht k _ => (ht.modSk k (f := (·.note 0x0914)) (fun _ => rfl)).abort _)

end

/-! ## The reload -/

section
variable {x : SkeinState}

/-- The check for a complete phase changes whether it was complete and whether the board is done, and nothing else. -/
theorem SkeinState.checkPhase_eq (x : SkeinState) (now : Time) :
    x.checkPhase now = { x with completeAt := (x.checkPhase now).completeAt, done := (x.checkPhase now).done } := by
  unfold SkeinState.checkPhase
  split
  · split <;> rfl
  · rfl

/-- A board that has just been reloaded: in its first phase, with nothing taken, returned or completed, and no mark or count set. -/
structure SkeinState.Fresh (x : SkeinState) : Prop where
  phase : x.phase = 0
  done : x.done = false
  completeAt : x.completeAt = none
  returned : x.returned = []
  inProgress : x.inProgress = []
  faultedOnce : x.faultedOnce = []
  slow : x.slow = 0
  latePhases : x.latePhases = 0
  takes : x.takes = 0
  steals : x.steals = 0
  sends : x.sends = 0
  returnedCount : x.returnedCount = 0
  stallFault : x.stallFault = false
  overrun : x.overrun = false
  budgetRepeat : x.budgetRepeat = false
  stallLanes : x.stallLanes = 0
  stallRings : x.stallRings = 0

/-- The first phase of a reloaded board is complete when it has no entries (R202). -/
theorem SkeinState.Fresh.checkPhase (h : x.Fresh) (now : Time) :
    x.checkPhase now = if x.boardActive = true ∧ ∀ l : Fin 8, x.list l = [] then
      if 1 < x.phases.length then { x with completeAt := some now } else { x with done := true } else x := by
  simp only [SkeinState.checkPhase, SkeinState.phaseComplete, h.phase, h.done, h.completeAt, h.returned, h.inProgress, Bool.not_false,
    Bool.and_true, Option.isNone_none, List.isEmpty_nil, Bool.and_self_left, Bool.and_eq_true, List.all_eq_true, List.mem_finRange,
    List.isEmpty_iff, forall_const, Nat.zero_add]

/-- A reloaded board is done at once when it has no entries and no second phase. -/
theorem SkeinState.Fresh.checkPhase_done (h : x.Fresh) (now : Time) :
    (x.checkPhase now).done = true ↔ x.boardActive = true ∧ x.phases.length < 2 ∧ ∀ l : Fin 8, x.list l = [] := by
  rw [h.checkPhase]
  split
  · next empty =>
    obtain ⟨active, noEntries⟩ := empty
    split
    · next more =>
      rw [h.done]
      exact ⟨nofun, fun ⟨_, last, _⟩ => absurd more (Nat.not_lt.mpr (Nat.le_of_lt_succ last))⟩
    · next last => exact ⟨fun _ => ⟨active, Nat.lt_succ_of_le (Nat.le_of_not_lt last), noEntries⟩, fun _ => rfl⟩
  · next entries =>
    rw [h.done]
    exact ⟨nofun, fun ⟨active, _, all⟩ => absurd ⟨active, all⟩ entries⟩

/-- The first phase of a reloaded board is complete at once when it has no entries and is followed by a second. -/
theorem SkeinState.Fresh.checkPhase_completeAt (h : x.Fresh) (now : Time) :
    (x.checkPhase now).completeAt = some now ↔ x.boardActive = true ∧ 1 < x.phases.length ∧ ∀ l : Fin 8, x.list l = [] := by
  rw [h.checkPhase]
  split
  · next empty =>
    obtain ⟨active, noEntries⟩ := empty
    split
    · next more => exact ⟨fun _ => ⟨active, more, noEntries⟩, fun _ => rfl⟩
    · next last =>
      rw [h.completeAt]
      exact ⟨nofun, fun ⟨_, more, _⟩ => absurd more last⟩
  · next entries =>
    rw [h.completeAt]
    exact ⟨nofun, fun ⟨active, _, all⟩ => absurd ⟨active, all⟩ entries⟩

end

/-- The phases that a board takes from its staple-list section, each entry in the list of its owner (R193). -/
def sectionPhases (board : Option (List Byte)) : List BoardPhase :=
  (board.map (fun b => (boardPhases b).map (fun p =>
    { window := p.1, lists := Vector.ofFn (fun l => p.2.filter (fun t => t.owner == l)) }))).getD []

/-- A skein at a step start is a freshly reloaded board whose first phase has been examined. -/
theorem SkeinState.startStep_eq_checkPhase (x : SkeinState) (board : Option (List Byte)) (rings : Vector Ring 32) (out : BitVec 8) (now : Time) :
    ∃ y : SkeinState, x.startStep board rings out now = y.checkPhase now ∧ y.Fresh ∧ y.boardActive = board.isSome ∧
      y.phases = sectionPhases board ∧ y.rings = rings := by
  refine ⟨_, rfl, ?_, rfl, ?_, rfl⟩
  · constructor <;> rfl
  · cases board <;> rfl

/-- A ring at a step start is built from its skein's wiring of it. -/
theorem startRings_get (im : Image) (boards : Vector (List (BitVec 16 × List RingUse)) 16) (k : Skein) (r : Fin 32) :
    ∃ producers consumers, (startRings boards (Vector.ofFn im.wiring) k)[r] =
      ringOf (((im.wiring k).find? (fun w => w.1 == r.val)).map (·.2)) producers consumers := by
  simp only [startRings, Fin.getElem_fin, Vector.getElem_ofFn]
  cases (im.wiring k).find? (fun w => w.1 == r.val) with
  | none => exact ⟨[], [], rfl⟩
  | some w => exact ⟨_, _, rfl⟩

/-- A ring that is built at a step start is filled by its preload alone, with nothing held, freed or taken (R195, R210). -/
theorem ringOf_fields (w : Option RingWiring) (producers consumers : List RingShare) :
    (ringOf w producers consumers).wiring = w ∧
    (ringOf w producers consumers).filled =
      (w.map (fun x => (List.range x.preload).map (fun j => (j, BitVec.ofNat 32 (j + 2 ^ 12 * x.preloadUnits))))).getD [] ∧
    (ringOf w producers consumers).held = [] ∧ (ringOf w producers consumers).done = [] ∧ (ringOf w producers consumers).nextTake = 0 := by
  cases w <;> exact ⟨rfl, rfl, rfl, rfl, rfl⟩

/-! ## The command -/

/-- Every skein starts a step as a fresh board with the lists and the rings of its sections, whose first phase has been examined. -/
theorem State.startUnits_skein (s : State) (im : Image) (k : Skein) :
    ∃ y : SkeinState, (s.startUnits im).skeins[k] = y.checkPhase s.now ∧ y.Fresh ∧ y.boardActive = (im.find 2 k.val).isSome ∧
      y.phases = sectionPhases (im.find 2 k.val) ∧ ∀ r : Fin 32, ∃ producers consumers,
        y.rings[r] = ringOf (((im.wiring k).find? (fun w => w.1 == r.val)).map (·.2)) producers consumers := by
  simp only [State.startUnits, vall_get]
  obtain ⟨y, examined, fresh, boardActive, phases, rings⟩ := SkeinState.startStep_eq_checkPhase _ (im.find 2 k.val) _ _ s.now
  exact ⟨y, examined, fresh, boardActive, phases, fun r => rings ▸ startRings_get im _ k r⟩

/-- No ring is held when the units have started. -/
theorem State.startUnits_unheld (s : State) (im : Image) (k : Skein) : ((s.startUnits im).skeins[k]).Unheld := by
  obtain ⟨y, examined, -, -, -, rings⟩ := s.startUnits_skein im k
  intro r
  obtain ⟨producers, consumers, ring⟩ := rings r
  obtain ⟨-, -, held, -, nextTake⟩ := ringOf_fields (((im.wiring k).find? (fun w => w.1 == r.val)).map (·.2)) producers consumers
  rw [examined, y.checkPhase_eq, ring]
  exact ⟨held, nextTake⟩

/-- The end of cancelled jobs takes no time. -/
theorem State.endCancelled_now (s : State) : s.endCancelled.now = s.now := by
  refine State.foldl_now _ (fun t j => ?_) _ s
  unfold State.endJob
  split
  · rfl
  · rw [State.raiseVector_eq]

/-- STEP_START with a job due leaves the boards as the start of the units does: an ABORT raised in the same command keeps them. -/
theorem completes_stepStart {s : State} {im : Image} (clocked : Clocked s) (idle : s.step.phase = .idle) (closed : s.step.closed = true)
    (enabled : s.tick.enable = true) (running : s.tick.stopped = false) (due : s.endCancelled.jobDue.isSome = true)
    (active : s.endCancelled.dist.active = some im) :
    Completes (exec .stepStart s) (fun t => ∃ u : State, u.now = s.now ∧ t.HasBoards (fun k => (u.startUnits im).skeins[k])) := by
  obtain ⟨j, due⟩ := Option.isSome_iff_exists.mp due
  let u := s.endCancelled.modJob j.id (fun j => { j with state := .running, commit := { j.commit with jobId := j.id } })
  have started : (u.startUnits im).HasBoards (fun k => (u.startUnits im).skeins[k]) := fun k => ⟨u.startUnits_unheld im k, rfl⟩
  have exec_eq : exec .stepStart s = execStepStart s := rfl
  simp only [exec_eq, execStepStart, State.clocked, clocked, idle, closed, enabled, running, due, active]
  refine ⟨_, rfl, u, s.endCancelled_now, ?_⟩
  have begun {st : Step} : ({ u.startUnits im with step := st } : State).HasBoards (fun k => (u.startUnits im).skeins[k]) := started.of_skeins rfl
  exact (State.HasBoards.pinnedLost (begun.ite (f := (·.abort _)) (·.abort _)) _).ite (f := State.stopStep) (·.stopStep)

/-- Settles O58: the start of the units reloads every board from its sections, and the rest of STEP_START keeps the boards. -/
theorem boardsReload : Obligations.BoardsReload := by
  unfold Obligations.BoardsReload
  intro s im k clocked idle closed enabled running due active
  obtain ⟨t, next, u, now, boards⟩ := completes_stepStart clocked idle closed enabled running due active
  refine ⟨t, next, ?_⟩
  obtain ⟨y, examined, fresh, boardActive, phases, rings⟩ := u.startUnits_skein im k
  have board : ∃ code channels, t.skeins[k] = { y with
      completeAt := (y.checkPhase u.now).completeAt, done := (y.checkPhase u.now).done, code := code, channels := channels } := by
    obtain ⟨-, same⟩ := boards k
    simp only [examined] at same
    rw [y.checkPhase_eq] at same
    exact ⟨_, _, same⟩
  obtain ⟨code, channels, board⟩ := board
  rw [board, ← boardActive, ← now]
  refine ⟨phases, rfl, fresh.returned, fresh.phase, fresh.inProgress, fresh.faultedOnce, fresh.slow, fresh.checkPhase_done u.now,
    fresh.checkPhase_completeAt u.now, fresh.latePhases, fresh.takes, fresh.steals, fresh.sends, fresh.returnedCount, fresh.stallFault,
    fresh.overrun, fresh.budgetRepeat, fresh.stallLanes, fresh.stallRings, fun r => ?_⟩
  obtain ⟨producers, consumers, ring⟩ := rings r
  obtain ⟨wiring, filled, kept⟩ := ringOf_fields (((im.wiring k).find? (fun w => w.1 == r.val)).map (·.2)) producers consumers
  rw [ring]
  rw [Option.map_map] at filled
  exact ⟨wiring, filled, kept⟩

end Sys2Proof.Machine

/-!
O59, a late ABORT (R488): what an accepted flit acknowledges reaches no more of the state than its links and the skeins whose ring positions
the acknowledgement frees, so the ABORT is judged against the step, the pacer and the jobs that stood before it; a tick that is neither the
running step's nor the next one's, and that a job has committed, is reported as 0x0809.
-/
namespace Sys2Proof.Machine
open Sys2Proof Sys2Proof.Safety

/-! ## What an accepted flit leaves of the state -/

/-- Two states differ at most in their links and their skeins. -/
def State.SameButTraffic (s t : State) : Prop := t = { s with links := t.links, skeins := t.skeins }

section
variable {s t : State}

/-- A state differs from itself in neither. -/
theorem State.SameButTraffic.refl (s : State) : s.SameButTraffic s := rfl

/-- Such states have the same step, pacer, jobs and device memory. -/
theorem State.SameButTraffic.kept (h : s.SameButTraffic t) : t.step = s.step ∧ t.tick = s.tick ∧ t.dist = s.dist ∧ t.mem = s.mem := by
  rw [h]
  exact ⟨rfl, rfl, rfl, rfl⟩

/-- A change of one link more. -/
theorem State.SameButTraffic.modLink (h : s.SameButTraffic t) (l : Link) (f : LinkState → LinkState) : s.SameButTraffic (t.modLink l f) := by
  unfold SameButTraffic at *
  rw [h]
  rfl

/-- A change of one skein more. -/
theorem State.SameButTraffic.modSk (h : s.SameButTraffic t) (k : Skein) (f : SkeinState → SkeinState) : s.SameButTraffic (t.modSk k f) := by
  unfold SameButTraffic at *
  rw [h]
  rfl

/-- The ring positions that an acknowledgement frees (R316). -/
theorem State.SameButTraffic.freeAcked (h : s.SameButTraffic t) (l : Link) : s.SameButTraffic (t.freeAcked l) :=
  List.foldlRecOn (motive := s.SameButTraffic) _ _ h (fun _ hu _ _ =>
    (List.foldlRecOn (motive := s.SameButTraffic) _ _ hu (fun _ hv _ _ => hv.modSk _ _)).modLink _ _)

/-- An acknowledgement, whether or not the flit carries one. -/
theorem State.SameButTraffic.takeAck (h : s.SameButTraffic t) (l : Link) (f : Flit) : s.SameButTraffic (t.takeAck l f) := by
  unfold State.takeAck
  split
  · exact (h.modLink _ _).freeAcked _
  · exact h

/-- An accepted flit changes links and skeins alone. -/
theorem State.sameButTraffic_of_receiveSeq {l : Link} {f : Flit} (h : s.receiveSeq l f = some t) : s.SameButTraffic t := by
  unfold State.receiveSeq at h
  split at h
  · cases h
  · split at h
    · cases h
      exact ((State.SameButTraffic.refl s).takeAck l f).modLink _ _
    · cases h

end

/-! ## The late ABORT -/

/-- A number of as many bytes as the list has. -/
theorem leNat_lt : ∀ bs : List Byte, leNat bs < 256 ^ bs.length
  | [] => Nat.one_pos
  | b :: bs => by
    have rest := leNat_lt bs
    have low := b.isLt
    rw [leNat, List.length_cons, Nat.pow_succ]
    omega

/-- A field holds a number of its bytes. -/
theorem field_lt (bs : List Byte) (o n : Nat) : field bs o n < 256 ^ n := by
  simpa only [field, sliceBytes_length] using leNat_lt (sliceBytes bs o n)

/-- A field of six bytes is a tick number. -/
theorem toNat_ofNat_field_six (bs : List Byte) (o : Nat) : (BitVec.ofNat 48 (field bs o 6)).toNat = field bs o 6 :=
  (BitVec.toNat_ofNat _ _).trans (Nat.mod_eq_of_lt (field_lt bs o 6))

/-- With no step open, an ABORT for a tick that a job has committed, not the tick counter's, sets late_abort and is reported as 0x0809. -/
theorem State.acceptAbort_eq_report {s : State} {j : Job} {tick : BitVec 48} (l : Link) (origin : BitVec 16) (cause : Code) (hops : Nat)
    (idle : s.step.phase = .idle) (past : tick ≠ s.tick.count) (mem : j ∈ s.dist.jobs)
    (same : j.commit.committedTick.toNat = tick.toNat) (committed : j.commit.committedStep ≠ 0) :
    s.acceptAbort l tick origin cause hops = ({ s with tick := { s.tick with lateAbort := true } }).report 0x0809 := by
  have notRunning : (s.step.phase != .idle && tick == s.step.tick) = false := by rw [idle]; rfl
  have notNext : (s.step.phase != .window && tick == s.tick.count) = false := by rw [beq_false_of_ne past, Bool.and_false]
  have found : (s.dist.jobs ++ s.dist.ended.take 1).any
      (fun i => i.commit.committedTick.toNat == tick.toNat && i.commit.committedStep != 0) = true :=
    List.any_eq_true.mpr ⟨j, List.mem_append_left _ mem, by simpa [same] using committed⟩
  simp only [State.acceptAbort, notRunning, notNext, found, Bool.false_eq_true, if_false, if_true]

/-- An ABORT flit heard in sequence is judged by the state that its acknowledgement leaves. -/
theorem exec_abortFlit_of_receiveSeq {s u : State} {l : Link} {f : Flit} (hears : s.hears l f 5 = true) (received : s.receiveSeq l f = some u) :
    exec (.abortFlit l f) s = .next (u.acceptAbort l (BitVec.ofNat 48 (field f.payload 0 6)) (BitVec.ofNat 16 (field f.payload 6 2))
      (BitVec.ofNat 16 (field f.payload 8 2)) (field f.payload 10 2)) := by
  have exec_eq : exec (.abortFlit l f) s = execAbortFlit l f s := rfl
  simp only [exec_eq, execAbortFlit, hears, received, Bool.not_true, Bool.false_eq_true, if_false]

/-- Settles O59: the flit's own bookkeeping keeps the step, the pacer and the jobs, and by these the ABORT is late. -/
theorem lateAbort : Obligations.LateAbort := by
  unfold Obligations.LateAbort
  intro s u l f j hears received idle past job tick committed
  obtain ⟨step_eq, tick_eq, dist_eq, mem_eq⟩ := (State.sameButTraffic_of_receiveSeq received).kept
  rw [← step_eq] at idle
  rw [← tick_eq] at past
  rw [← dist_eq] at job
  rw [exec_abortFlit_of_receiveSeq hears received,
    State.acceptAbort_eq_report l _ _ _ idle past job (tick.trans (toNat_ofNat_field_six _ _).symm) committed, State.report_eq]
  exact ⟨_, rfl, rfl, rfl, step_eq, dist_eq, mem_eq, by rw [tick_eq]⟩

end Sys2Proof.Machine
